-- ==== Sys2Proof/Word.lean ====
section
/-! DEFINITION. The plain numbers and names the whole model is written in: bytes, station and lane numbers, store
time, and the enumerations of 12.1 that more than one block uses. -/

namespace Sys2Proof

/-- One byte of a payload, an image or a frame. -/
abbrev Byte := BitVec 8

/-- A trunk station number, 0..15 (00 §1.5). -/
abbrev Station := Fin 16

/-- A till lane number, 0..15 (00 §1.5). -/
abbrev LaneNo := Fin 16

/-- An event line number, 0..3 (R198). -/
abbrev LineNo := Fin 4

/-- Store time: a day number and a second of the day (00 §1.5). The clock and a deadline hold days 0..65,535 and
seconds 0..86,399; a frame can carry larger values, which its rule refuses. -/
structure StoreTime where
  day : Nat
  sec : Nat
deriving DecidableEq, Repr

/-- Class of a trunk frame (R121). -/
inductive TrunkClass where
  | urgent | notice | bulk
deriving DecidableEq, Repr

/-- Kind of an article (00 §1.6). -/
inductive ArticleKind where
  | each | weighed | multi
deriving DecidableEq, Repr

/-- Form of payment at CLOSE (00 §1.6). -/
inductive Tender where
  | cash | card | other
deriving DecidableEq, Repr

/-- Trading mode (R193). -/
inductive Mode where
  | open | late | closed | distress
deriving DecidableEq, Repr

/-- Part state (R139). -/
inductive PartState where
  | starting | listening | running | listenOnly | halted
deriving DecidableEq, Repr

/-- Kind of a trunk station (00 §1.6). -/
inductive StationKind where
  | controller | office
deriving DecidableEq, Repr

/-- Class of a parcel (R143). -/
inductive ParcelClass where
  | till | office | guest
deriving DecidableEq, Repr

/-- Origin port of a parcel (R143). -/
inductive OriginPort where
  | lane (l : LaneNo)
  | session
  | guest
deriving DecidableEq, Repr

/-- Status of a parcel (R143). -/
inductive ParcelStatus where
  | data | noRoute | busy
deriving DecidableEq, Repr

/-- What a label's display shows (R77). -/
inductive Form where
  | price | blank
deriving DecidableEq, Repr

/-- A label's battery state (R77). -/
inductive Battery where
  | good | low | empty
deriving DecidableEq, Repr

end Sys2Proof
end

