-- ==== Sys2Proof/Syntax.lean ====
section
/-! DEFINITION. The commands: one constructor of `Instr` for each row of spec/opcode_table.json, with the operands
its frame, request, packet, parcel or event carries (12). -/

namespace Sys2Proof

/-- The destination of a trunk frame (R121, 12.2): a station, ALL, or a number 16..254 that names no station. -/
inductive Dest where
  | station (n : Station)
  | all
  | nobody (code : Nat)
deriving DecidableEq, Repr

/-- Source and destination of a received trunk frame (R121). -/
structure FrameHead where
  src : Station
  dest : Dest
deriving DecidableEq, Repr

/-- Source, destination and command tag of an OFFICE frame (R209). -/
structure OfficeHead where
  src : Station
  dest : Dest
  tag : Nat
deriving DecidableEq, Repr

/-- A change record as its 33 bytes give it (12.4). The two codes are kept as sent: 1 SET and 2 WITHDRAW, and 1 EACH,
2 WEIGHED and 3 MULTI; a WITHDRAW record's article kind is not examined (R2). -/
structure ChangeRecord where
  article : Nat
  version : Nat
  changeCode : Nat
  kindCode : Nat
  price : Nat
  groupSize : Nat
  groupPrice : Nat
  effective : StoreTime
  fileSerial : Nat
  index : Nat
deriving DecidableEq, Repr

/-- One shelf report: an article code and a version (01 §1.4). -/
structure Report where
  article : Nat
  version : Nat
deriving DecidableEq, Repr

/-- The fields of a BEACON (R134, 12.2). An office beacon sends 0 in every field after the kind, which has no part
state and no mode. -/
structure Beacon where
  kind : StationKind
  part : Option PartState
  mode : Option Mode
  labelService : Bool
  labelChannel : Nat
  offer : Nat
  heldSerial : Nat
deriving DecidableEq, Repr

/-- What a label's display shows: form, article and version (R77). -/
structure Display where
  form : Form
  article : Option Nat
  version : Nat
deriving DecidableEq, Repr

/-- A parcel (R143). -/
structure Parcel where
  cls : ParcelClass
  origin : Station
  port : OriginPort
  tag : Nat
  guest : Option Nat
  status : ParcelStatus
  payload : List Byte
deriving DecidableEq, Repr

/-- A label's ACK packet (12.9). `common` tells that it was received on the common channel. -/
structure AckPacket where
  common : Bool
  label : Nat
  owner : Station
  version : Nat
  level : Int
  battery : Battery
deriving DecidableEq, Repr

/-- A label's presence packet (R108, 12.9), with the level at which the transceiver received it. -/
structure PresencePacket where
  label : Nat
  owner : Station
  display : Display
  battery : Battery
  orphan : Bool
  level : Int
deriving DecidableEq, Repr

/-- The fields of a LABEL-HANDOVER (12.2). -/
structure Handover where
  label : Nat
  bound : Option Nat
  display : Display
  battery : Battery
deriving DecidableEq, Repr

/-- The destination a guest's device asked for (12.10). -/
inductive GuestDest where
  | uplink | guest | station | branch
deriving DecidableEq, Repr

/-- Why a lane frame is discarded (R28): longer than 600 bytes; a bad check, broken framing, an unknown kind or a
length that does not agree; an AUTH payload that is empty or longer than 512 bytes; a tender that is none of the three. -/
inductive LaneFault where
  | oversize | check | authLength | tender
deriving DecidableEq, Repr

/-- What the peer table takes from a good frame that is addressed elsewhere (R131 step 4, R135). -/
inductive Overheard where
  | beacon (b : Beacon)
  | cycleMark
  | other
deriving DecidableEq, Repr

/-- What a frame that is malformed by R131 step 6 is otherwise: a BEACON, which bears on the test of the frame's own
number (R131 step 3); a CYCLE-MARK, which bears on its sender's slot (R135); any other kind, or none of the fifteen. -/
inductive MalformedKind where
  | beacon | cycleMark | other
deriving DecidableEq, Repr

/-- A malformed frame: its source and destination, and what it is otherwise. -/
structure MalformedFrame where
  src : Station
  dest : Dest
  kind : MalformedKind
deriving DecidableEq, Repr

/-- The class and source bits with which another station begins a frame (R125). -/
structure Header where
  cls : TrunkClass
  src : Station
deriving DecidableEq, Repr

/-- The commands, one constructor for each row of spec/opcode_table.json. -/
inductive Instr where
  | powerOn
  | resetLineAsserted
  | resetLineReleased
  | profileLoad (image : Option (List Byte))
  | listeningTimerExpiry
  | secondTimerExpiry
  | changeoverDeadline (article : Nat)
  | releaseRecord
  | spotPrice (h : OfficeHead) (r : ChangeRecord)
  | readEntry (h : OfficeHead) (article : Nat)
  | bind (h : OfficeHead) (label article : Nat)
  | unbind (h : OfficeHead) (label : Nat)
  | readLabel (h : OfficeHead) (label : Nat)
  | setMode (h : OfficeHead) (code : Nat)
  | setTime (h : OfficeHead) (time : StoreTime)
  | runSession (h : OfficeHead)
  | readAlerts (h : OfficeHead) (first : Nat)
  | ackAlert (h : OfficeHead) (serial : Nat)
  | readCounts (h : OfficeHead) (group : Nat)
  | restart (h : OfficeHead)
  | officeBadCommand (h : OfficeHead) (kind : Nat)
  | laneFrameBad (lane : LaneNo) (why : LaneFault)
  | laneTimeout (lane : LaneNo)
  | openBasket (lane : LaneNo) (bit : Bool)
  | item (lane : LaneNo) (bit : Bool) (article quantity : Nat) (markdown : Option Nat)
  | void (lane : LaneNo) (bit : Bool) (line : Nat)
  | total (lane : LaneNo) (bit : Bool)
  | close (lane : LaneNo) (bit : Bool) (tender : Tender)
  | cancel (lane : LaneNo) (bit : Bool)
  | lookup (lane : LaneNo) (bit : Bool) (article : Nat)
  | auth (lane : LaneNo) (bit : Bool) (payload : List Byte)
  | authTimeout (lane : LaneNo)
  | basketAbandon (lane : LaneNo)
  | slotEnd
  | claimExpiry (label : Nat)
  | ackReceived (ack : AckPacket)
  | presenceReceived (p : PresencePacket)
  | presenceWindowEnd
  | cycleMarkReceived (f : FrameHead) (number length : Nat) (time : Option StoreTime)
  | labelClaimReceived (f : FrameHead) (label : Nat) (claimant : Station) (channel : Nat) (level : Int)
  | labelRefuseReceived (f : FrameHead) (label : Nat) (level : Option Int)
  | labelHandoverReceived (f : FrameHead) (r : Handover)
  | labelAdoptedReceived (f : FrameHead) (label : Nat) (adopter : Station) (display : Display)
  | beaconTimerExpiry
  | beaconReceived (f : FrameHead) (b : Beacon)
  | peerSilent (station : Station)
  | trunkFrameBegin (others : List Header)
  | trunkAttemptEnd (taken spoiled : Bool)
  | trunkFrameBadCheck
  | trunkFrameOtherDest (f : FrameHead) (body : Overheard)
  | officeReplyReceived (f : FrameHead)
  | priceChangeReceived (f : FrameHead) (records : List ChangeRecord)
  | filePriceChangeReceived (f : FrameHead) (serial firstIndex : Nat) (records : List ChangeRecord)
  | fileAnnounceReceived (f : FrameHead) (serial count check : Nat)
  | fileCloseReceived (f : FrameHead) (serial count check : Nat)
  | trunkCollectionTimeout
  | shelfDoneReceived (f : FrameHead) (reports : List Report)
  | shelfQueryReceived (f : FrameHead) (reports : List Report)
  | shelfPendingReceived (f : FrameHead) (reports : List Report)
  | relayReceived (f : FrameHead) (p : Parcel)
  | uplinkCarrierChange (present : Bool)
  | uplinkSendEnd
  | uplinkParcelReceived (p : Parcel)
  | guestFrameReceived (guest : Nat) (dest : GuestDest) (payload : List Byte)
  | guestRefillTimer
  | sessionSecondTimer
  | restTimerExpiry
  | sessionReplyTimeout
  | accept (tag : Nat) (time : StoreTime) (newest : Nat)
  | defer (tag : Nat)
  | refuse (tag : Nat) (reason : Nat)
  | batchTaken (tag : Nat) (serial : Nat)
  | fileStart (tag : Nat) (serial count check : Nat)
  | filePart (tag : Nat) (serial firstIndex : Nat) (records : List ChangeRecord)
  | fileEnd (tag : Nat) (serial : Nat)
  | noResend (tag : Nat) (serial : Nat)
  | clockTimerExpiry
  | eventLineChange (line : LineNo) (high : Bool)
  | mainsRiseTimeout
  | mainsFallTimeout
  | powerLoss
  | malformedFrameReceived (f : MalformedFrame)
deriving DecidableEq, Repr

end Sys2Proof
end

