-- ==== Sys2Proof/Decode.lean ====
section
/-! DEFINITION. The commands a word spells by the opcode table's bits. The table gives no row any bits, so no word spells a
command (spec/opcode_table.json). -/

namespace Sys2Proof

/-- The command that a word of `nbits` bits spells: none, since no row of the table has bits. -/
def decodeTableWord (_nbits _w : Nat) : Option Instr := none

end Sys2Proof
end

