-- ==== Sys2Proof/Config.lean ====
section
/-! DEFINITION. What the manual fixes for every part (capacities, periods, limits), and the free values it leaves
open. -/

namespace Sys2Proof.Config

/-- Every count is held at this value once it is reached (R24, R49, R75, R101, R120, R141, R165, R189, R204). -/
def countMax : Nat := 4294967295
/-- The greatest 32-bit number: the shelf floor of an article with no label to count (R98). -/
def versionMax : Nat := 4294967295
/-- The greatest article code (00 §1.5). -/
def articleMax : Nat := 9999999999999
/-- Entries of the price book (R1). -/
def bookCapacity : Nat := 65536
/-- Entries of the label table (R77). -/
def labelCapacity : Nat := 2048
/-- Reports in the report list and in one frame (R12, R13). -/
def reportCapacity : Nat := 64
/-- Lines of a basket (R34). -/
def lineCapacity : Nat := 250
/-- Terms records of a basket (R34). -/
def termsCapacity : Nat := 100
/-- Records of the journal (R65). -/
def journalCapacity : Nat := 16384
/-- Records of one batch (R71). -/
def batchSize : Nat := 32
/-- Alerts in the alert list (R200). -/
def alertCapacity : Nat := 64
/-- Guests in the guest list (R157). -/
def guestCapacity : Nat := 128
/-- A full guest bucket, in bytes (R157). -/
def bucketFull : Nat := 65536
/-- Records of a staged file (R184). -/
def stagingCapacity : Nat := 8192
/-- Frames a block keeps behind its held frame, for each queue (R124). -/
def keptCapacity : Nat := 64
/-- Frames of the URGENT, NOTICE and BULK queues (R123). -/
def queueCapacity : TrunkClass → Nat
  | .urgent => 8
  | .notice => 64
  | .bulk => 32
/-- Bytes of the TILL, OFFICE and GUEST uplink queues (R146). -/
def uplinkCapacity : ParcelClass → Nat
  | .till => 16384
  | .office => 65536
  | .guest => 65536
/-- Bytes of the relay-back list (R154). -/
def relayBackCapacity : Nat := 65536
/-- The last day of the store clock (R190). -/
def dayMax : Nat := 65535
/-- Seconds of a day. -/
def daySeconds : Nat := 86400

/-! Part time is counted in microseconds (log 1). -/

/-- Microseconds of part time in `n` seconds. -/
def seconds (n : Nat) : Nat := n * 1000000
/-- Microseconds of part time in `n` minutes. -/
def minutes (n : Nat) : Nat := seconds (n * 60)
/-- Microseconds of part time in `n` milliseconds. -/
def millis (n : Nat) : Nat := n * 1000

/-- DESIGN CHOICE (log 6), a free value with no body: the last heard cycle of a label no presence of which has been
taken since its entry was made. R77, R109 and R110 give the field and no value. It is applied to the counter
`State.fresh`, so two such labels need not agree. -/
opaque unheardCycle : Nat → BitVec 32

end Sys2Proof.Config
end

