-- ==== Sys2Proof/Machine/State.lean ====
section
/-! DEFINITION. The state of the part, as plain data: what each block of 00 §1.3 holds, what the attached memory
keeps, the inputs, the outputs and the waiting commands; the faults and refusals; the state just after power-on. -/

namespace Sys2Proof.Machine

open Sys2Proof

/-- A collection keyed by a number, in strictly rising order of key (Machine/Maps.lean). -/
abbrev AMap (α : Type) := List (Nat × α)

/-! ### Counts -/

/-- The counts of the part, each named by the rule that raises it. A count that is not listed in a tally is 0. -/
inductive Count where
  -- price book unit (R24)
  | recordsApplied | recordsStale | fullBookRefused | badRecords | reportsDropped | forcedChangeovers
  -- lane controller as a whole (R49)
  | basketsCancelled | basketsAbandoned
  -- journal unit (R75)
  | appendsTaken | appendsRefused | recordsRemoved | mismatches | clearings
  -- label radio controller (R101)
  | showsSent | blanksSent | acksTaken | unansweredAttempts | attemptsCutShort | labelsLost | strayAcks
  -- label radio controller, shared labels (R120; handoversIgnored by R117)
  | marksSent | marksNotSent | marksTaken | marksIgnored | presencesTaken | presencesIgnored | heardRemoved
  | claimsSent | claimsDropped | claimsReceived | claimsRefused | handoversSent
  | takenByHandover | takenByAdoption | takenByPresence | turnedAway | dropsToHeard | failedMoves | handoversIgnored
  -- trunk controller (R141)
  | sentUrgent | sentNotice | sentBulk | failedAttempts | framesDropped
  | notTakenUrgent | notTakenNotice | notTakenBulk | framesWaited | arbitrationLosses | checkErrors
  | malformedFrames | ownNumberFrames | notForPart | beaconsReplaced | beaconsMissed
  -- forwarding unit (R165)
  | uplinkTill | uplinkOffice | uplinkGuest | tillBusy | tillNoRoute | relayedOut
  | relayedInTill | relayedInOffice | relayedInGuest | relayedBack | undeliverable | malformedParcels
  | repliesNoEntry | lostAtUplinkLoss | droppedByMode | guestQueueFull | guestNoRoute | guestRelayRefused
  | isolationDrops | budgetDrops | rejections | evictions | unknownGuestReplies | guestsRemovedByMode | holderChanges
  -- office link controller (R189)
  | startedWindow | startedKey | startedEarly | attemptsCompleted | attemptsFailed | startsIgnored
  | staleMessages | unexpectedMessages | batchesAcknowledged | foreignRecords | filesTaken | filesFailed
  | filesRefused | filesSkipped | trunkFramesIgnored | trunkFilesTaken | trunkFilesFailed | filesReleased | shareFramesLost
  -- mode and event unit (R204)
  | setByMark | setByOffice | setByAccept | settingsIgnored | modeChanges | overridesGiven | overridesEnded
  | mainsNotQualified | alertsRecorded | ackedAlertsRemoved | alertOverflow
  -- command memory (R210)
  | commandsRepeated | repliesLost | commandsDiscarded
deriving DecidableEq, Repr

/-- The counts that are not 0, keyed by `Count.ctorIdx`. -/
abbrev Tally := AMap Nat

/-! ### Price book (01) -/

/-- Terms of an article: the unit price or price per kilogram, and the group size and group price of MULTI, which are 0
for the other kinds (R1). -/
structure Terms where
  price : Nat
  groupSize : Nat
  groupPrice : Nat
deriving DecidableEq, Repr

/-- What a change does when it takes effect (R1). -/
inductive Action where
  | set (kind : ArticleKind) (terms : Terms)
  | withdraw
deriving DecidableEq, Repr

/-- A pending or queued change (R1). -/
structure Change where
  version : Nat
  action : Action
  effective : StoreTime
  fileSerial : Nat
deriving DecidableEq, Repr

/-- Query status of a station held out (R1). -/
inductive QueryStatus where
  | none | queried | pending
deriving DecidableEq, Repr

/-- One station of a holdout set (R1). -/
structure Holdout where
  station : Station
  status : QueryStatus
deriving DecidableEq, Repr

/-- Deadline of a changeover (R11). -/
inductive Deadline where
  | at (t : StoreTime)
  | countdown (n : Nat)
deriving DecidableEq, Repr

/-- What an entry holds only while it is CHANGING (R1). The holdout set is kept in rising order of station number, the order
in which READ-ENTRY and CHANGEOVER-FORCED write it down (DESIGN CHOICE, log 77). -/
structure Changeover where
  pending : Change
  queued : Option Change
  holdout : List Holdout
  deadline : Deadline
  age : Nat
deriving DecidableEq, Repr

/-- State of an entry, with what it holds in that state (R1). -/
inductive Phase where
  | steady
  | waiting (pending : Change)
  | changing (c : Changeover)
deriving DecidableEq, Repr

/-- A price book entry (R1); its article code is its key. -/
structure Entry where
  kind : ArticleKind
  current : Option Terms
  version : Nat
  phase : Phase
  bound : Nat
deriving DecidableEq, Repr

/-- The name of an entry's state (R1). -/
inductive EntryState where
  | steady | waiting | changing
deriving DecidableEq, Repr

/-- The price book unit. `entries` is kept in attached memory. -/
structure Book where
  entries : AMap Entry
  cursor : Option Nat
  fullNoted : Bool
  reports : List Report
  outstanding : Bool
  queryTimes : AMap Nat
  timer : Nat
deriving DecidableEq, Repr

/-! ### Lanes and baskets (02) -/

/-- Kind of a lane request (R28). -/
inductive RequestKind where
  | openBasket | item | void | total | close | cancel | lookup | auth
deriving DecidableEq, Repr

/-- What PRICE carries (R22, 12.3). -/
structure PriceReply where
  kind : ArticleKind
  state : EntryState
  changeover : Bool
  current : Option Terms
  pending : Option Terms
deriving DecidableEq, Repr

/-- A lane reply (12.3). -/
inductive LaneReply where
  | ok (id : Option Nat)
  | basketOpen (id : Nat)
  | itemOk (line amount running : Nat)
  | voidOk (running : Nat)
  | totalOk (total reduction : Nat) (changeover : Bool)
  | closed (serial due : Nat)
  | price (p : PriceReply)
  | authReply (payload : List Byte)
  | restarted (serial : Nat)
  | unknownItem | notForSale | badQuantity | overlimit | basketFull | noBasket | noSuchLine | notTotalled | empty
  | journalFull | noRoute | timeout | busy | wait | halt
deriving DecidableEq, Repr

/-- A line of a basket or a journal record (R34, R66). -/
structure Line where
  article : Nat
  kind : ArticleKind
  quantity : Nat
  markdown : Nat
  amount : Nat
  void : Bool
  version : Nat
  pendingVersion : Option Nat
deriving DecidableEq, Repr

/-- A terms record: a basket's snapshot of one article's terms (R35). -/
structure TermsRecord where
  article : Nat
  kind : ArticleKind
  current : Terms
  version : Nat
  pending : Option (Terms × Nat)
deriving DecidableEq, Repr

/-- The total result of a TOTALLED basket (R34). -/
structure TotalResult where
  total : Nat
  reduction : Nat
  changeover : Bool
deriving DecidableEq, Repr

/-- A basket that is OPEN (no total result) or TOTALLED (R34). -/
structure Basket where
  id : Nat
  lines : List Line
  terms : List TermsRecord
  running : Nat
  lastActivity : Nat
  result : Option TotalResult
deriving DecidableEq, Repr

/-- Lane state (R26). -/
inductive LaneState where
  | disabled | down | up
deriving DecidableEq, Repr

/-- An AUTH in flight: the AUTH count of its tag, its sequence bit and when its timer runs out (R46). -/
structure AuthFlight where
  count : Nat
  bit : Bool
  due : Nat
deriving DecidableEq, Repr

/-- A lane record with the lane's basket (R26, R34). The lane is AWAITING exactly while an AUTH is in flight. `last` is
the last sequence bit, the last request kind and the saved reply, which are absent together. `lastClosed` is kept in
attached memory. -/
structure Lane where
  state : LaneState
  flight : Option AuthFlight
  last : Option (Bool × RequestKind × LaneReply)
  restart : Bool
  basketId : Nat
  authCount : Nat
  lastClosed : Nat
  checkErrors : Nat
  oversize : Nat
  lateReplies : Nat
  timer : Option Nat
  basket : Option Basket
deriving DecidableEq, Repr

/-! ### Journal (04) -/

/-- A journal record (R66). -/
structure JournalRecord where
  serial : Nat
  lane : LaneNo
  time : Option StoreTime
  tender : Tender
  due : Nat
  total : Nat
  reduction : Nat
  changeover : Bool
  lines : List Line
  sent : Bool
deriving DecidableEq, Repr

/-- The basket serial counter (R67). -/
inductive SerialCounter where
  | next (n : Nat)
  | exhausted
deriving DecidableEq, Repr

/-- An entry of the outstanding batch list (R71). -/
structure BatchMark where
  first : Nat
  last : Nat
  count : Nat
deriving DecidableEq, Repr

/-- The journal unit. `records` (but their sent marks) and `counter` are kept in attached memory. -/
structure Journal where
  records : List JournalRecord
  counter : SerialCounter
  outstanding : List BatchMark
  high : Bool
deriving DecidableEq, Repr

/-! ### Labels (05, 06) -/

/-- A label's target (R78). -/
inductive Target where
  | price (article version : Nat)
  | blank (article version : Nat)
  | unbound
deriving DecidableEq, Repr

/-- The move record of a MOVING label (R115), and whether a MOVE attempt is in the air. -/
structure Move where
  claimant : Station
  channel : Nat
  level : Int
  inAir : Bool
deriving DecidableEq, Repr

/-- State of an OWNED label (R77). UPDATE-DUE holds its due time; SENT keeps the due time it had when it was taken into
the turn (R80). -/
inductive LabelState where
  | showing
  | updateDue (due : Nat)
  | sent (due : Nat)
  | moving (m : Move)
  | lost
deriving DecidableEq, Repr

/-- The fields OWNED and HEARD entries share (R109). `stamp` orders the entries by last hearing. -/
structure Hearing where
  smoothed : Option Int
  lastCycle : Nat
  owner : Station
  ownerLevel : Option Int
  stamp : Nat
deriving DecidableEq, Repr

/-- An OWNED entry (R77); its label address is its key. `bound`, `display`, `state`, `target` and `battery` are kept in
attached memory (R102). -/
structure Owned where
  bound : Option Nat
  display : Display
  state : LabelState
  target : Target
  lastSent : Option Display
  attempts : Nat
  power : Nat
  battery : Battery
  lastReceived : Option Int
  hearing : Hearing
deriving DecidableEq, Repr

/-- A HEARD entry (R109); its label address is its key. `claimed` is set from a LABEL-CLAIM; the claim is outstanding
while it is set and the claim age is below 16. -/
structure Heard where
  hearing : Hearing
  claimAge : Option Nat
  claimed : Bool
deriving DecidableEq, Repr

/-- An adoption MOVE sent in the present presence window: the presence it answered, with the cycle counter and the place
in the order of last hearing at which that presence was taken, and the station the ACK heard for it names (R118, R119). -/
structure Adoption where
  presence : PresencePacket
  cycle : Nat
  stamp : Nat
  ack : Option Station
deriving DecidableEq, Repr

/-- The label radio controller. -/
structure Labels where
  owned : AMap Owned
  heard : AMap Heard
  stamp : Nat
  cycle : Nat
  slot : Nat
  length : Nat
  slotEnd : Option Nat
  markLength : Option Nat
  aligned : Bool
  reference : Option Station
  adoptions : List Adoption
deriving DecidableEq, Repr

/-! ### Staging list and session (09) -/

/-- Owner of the staging list (R184). -/
inductive Owner where
  | none | session | trunk
deriving DecidableEq, Repr

/-- Phase of the staging list (R184). -/
inductive StagePhase where
  | collecting | releasing
deriving DecidableEq, Repr

/-- The staging list (R184). `source` is the announcing station of a trunk file. `share` is the number of the next share
frame of R188, absent when no share is in progress. `released` tells that the release is complete. -/
structure Staging where
  owner : Owner
  phase : StagePhase
  serial : Nat
  source : Option Station
  count : Option Nat
  check : Option Nat
  records : AMap ChangeRecord
  lastFrame : Nat
  share : Option Nat
  released : Bool
deriving DecidableEq, Repr

/-- Session state (R167). -/
inductive SessionState where
  | idle | opening | uploading | downloading | closing | resting | done
deriving DecidableEq, Repr

/-- Kind of an attempt (R167). -/
inductive AttemptKind where
  | window | key | early
deriving DecidableEq, Repr

/-- A batch of the batch window (R167). -/
structure WindowBatch where
  serial : Nat
  first : Nat
  last : Nat
  lastPart : Bool
deriving DecidableEq, Repr

/-- Outcome of the file in SESSION-END (09 §9.1). -/
inductive FileOutcome where
  | none | taken | skipped | refused | bad
deriving DecidableEq, Repr

/-- A message to head office (09 §9.1). `fileBad` tells whether it is the attempt's second. -/
inductive OutMessage where
  | opening (station : Station) (held unsent : Nat)
  | batchPart (serial part : Nat) (last : Bool) (run : List Byte)
  | fileWanted (serial : Nat)
  | skipFile (serial : Nat)
  | fileTaken (serial : Nat)
  | fileBad (serial present : Nat) (second : Bool)
  | fileRefused (serial : Nat) (tooLarge : Bool)
  | sessionEnd (batches : Nat) (outcome : FileOutcome)
deriving DecidableEq, Repr

/-- Why an attempt failed (R182, R174). -/
inductive FailReason where
  | noReply | pathLost | noRoute | distress | outOfOrder | deferred | refused
deriving DecidableEq, Repr

/-- The session record (R167). `attemptTag` and `held` are kept in attached memory. `toSend` are the messages formed and
not yet QUEUED; `waiting` tells that the first of them was answered WAITING (R172). -/
structure Link where
  state : SessionState
  attemptCount : Nat
  windowDay : Option Nat
  attemptTag : Nat
  kind : Option AttemptKind
  cut : Option Nat
  newest : Option Nat
  batchSerial : Nat
  window : List WindowBatch
  replyTimer : Option Nat
  restTimer : Option Nat
  resendUsed : Bool
  held : Nat
  announce : Option (Nat × Nat)
  lastEarly : Option Nat
  earlyPending : Bool
  toSend : List OutMessage
  waiting : Bool
  acked : Nat
  outcome : FileOutcome
  lastFailure : Option FailReason
  timer : Nat
deriving DecidableEq, Repr

/-! ### Mode and event unit (10) -/

/-- Use of an event line (R198). -/
inductive LineUse where
  | none | mainsFail | closeKey | sessionKey
deriving DecidableEq, Repr

/-- An event line record (R198). -/
structure EventLine where
  use : LineUse
  activeHigh : Bool
  asserted : Bool
  edges : Nat
deriving DecidableEq, Repr

/-- Mains-fail qualification, with the moment its timer runs out (R196). -/
inductive Mains where
  | clear
  | rising (due : Nat)
  | qualified
  | falling (due : Nat)
deriving DecidableEq, Repr

/-- The mode and event unit's clock, mode and lines. `override` is the override's mode and the schedule mode recorded
with it (R195). -/
structure ModeUnit where
  clock : Option StoreTime
  clockTimer : Option Nat
  highestDay : Option Nat
  mode : Mode
  override : Option (Mode × Option Mode)
  schedule : Option Mode
  mains : Mains
  lines : Vector EventLine 4
deriving DecidableEq, Repr

/-- Cause of a reset (R204). -/
inductive Cause where
  | powerOn | resetLine | restart
deriving DecidableEq, Repr

/-- Kind of an alert (R201). -/
inductive AlertKind where
  | labelLost | labelBattery | changeoverForced | bookFull | journalHigh | sessionFailed | fileBad | stationClash
  | peerSilent | distressEntered | restarted
deriving DecidableEq, Repr

/-- Severity of an alert (R200). -/
inductive Severity where
  | info | warn
deriving DecidableEq, Repr

/-- Subject of an alert (R200). `self` is this station, whose number is not known while the profile is unread (log 9). -/
inductive Subject where
  | label (n : Nat)
  | article (n : Nat)
  | station (n : Station)
  | self
  | file (n : Nat)
deriving DecidableEq, Repr

/-- Details of an alert (R200). -/
inductive Detail where
  | nothing
  | cause (c : Cause)
  | lost (bound : Option Nat) (version : Nat)
  | battery (b : Battery)
  | forced (version : Nat) (dropped : List Holdout)
  | count (n : Nat)
  | failure (r : FailReason) (code : Option Nat)
deriving DecidableEq, Repr

/-- An alert (R200). -/
structure Alert where
  serial : Nat
  kind : AlertKind
  severity : Severity
  time : Option StoreTime
  subject : Subject
  detail : Detail
  acked : Bool
deriving DecidableEq, Repr

/-- The alert list and the alert serial counter (R200). -/
structure AlertList where
  list : List Alert
  next : Nat
deriving DecidableEq, Repr

/-! ### Profile (11) -/

/-- The profile's settings (R205). Times of day are in minutes. -/
structure Settings where
  station : Station
  laneCount : Nat
  labelService : Bool
  labelChannel : Nat
  uplinkPresent : Bool
  uplinkRate : Nat
  guestService : Bool
  guestRelay : Bool
  guestRate : Nat
  allowance : Nat
  share : Bool
  windowStart : Nat
  windowLength : Nat
  openTime : Nat
  lateTime : Nat
  closeTime : Nat
  changeoverLimit : Nat
  claimMargin : Nat
  cashStep : Nat
  highWatermark : Nat
  lines : Vector (LineUse × Bool) 4
deriving DecidableEq, Repr

/-! ### Trunk (07), office commands (11) -/

/-- State of a peer table slot (R135). -/
inductive PeerState where
  | absent | alive | silent
deriving DecidableEq, Repr

/-- A peer table slot (R135). `timer` is the moment its silence timer runs out. -/
structure Peer where
  state : PeerState
  kind : Option StationKind
  beacon : Option Beacon
  labelService : Bool
  timer : Option Nat
deriving DecidableEq, Repr

/-- Reasons of a REFUSED reply (R209). OWNED-ELSEWHERE carries the entry's owner station (R81). -/
inductive Reason where
  | unknownItem | stale | bookFull | badRecord | kindMismatch | noLabelService | notForSale
  | ownedElsewhere (owner : Station)
  | labelMoving | tableFull | notOwned | noSuchLabel | badValue | notReference | sessionBusy | distress | notRunning
  | noSuchAlert
deriving DecidableEq, Repr

/-- What a lane's figures show (R49). -/
structure LaneFigures where
  state : LaneState
  awaiting : Bool
  basketOpen : Bool
  basketTotalled : Bool
  checkErrors : Nat
  oversize : Nat
  lateReplies : Nat
deriving DecidableEq, Repr

/-- The figures of one READ-COUNTS group (R210). `counts` are the group's counts in the order their rule lists them;
`shared` are those of R120. -/
inductive Figures where
  | start (part : PartState) (settings : Settings) (clamped : Nat) (cause : Cause) (counts : List Nat)
  | trunk (counts : List Nat) (queues : List Nat) (peers : List Peer) (part : PartState) (clash : Bool)
  | priceBook (counts : List Nat)
  | lanes (lanes : List LaneFigures) (counts : List Nat)
  | journal (counts : List Nat) (records unsent oldest lastIssued : Nat) (high : Bool)
  | labels (counts : List Nat) (owned lost updates age cycle length : Nat) (shared : List Nat) (heard : Nat)
      (reference : Option Station) (aligned : Bool)
  | forwarding (counts : List Nat) (up : Bool) (offer till office guest relayBack : Nat) (heldParcel : Bool)
      (holder : Option Station) (pendingEntries guests capped : Nat)
  | session (counts : List Nat) (state : SessionState) (attemptCount : Nat) (windowDay cut : Option Nat)
      (window : List WindowBatch) (held : Nat) (owner : Owner) (phase : StagePhase) (serial : Nat) (count : Option Nat)
      (present : Nat)
  | mode (counts : List Nat) (lines : List EventLine) (mains : Mains) (closeKey : Bool)
      (override : Option (Mode × Option Mode)) (schedule : Option Mode) (mode : Mode) (clock : Option StoreTime)
deriving DecidableEq, Repr

/-- The data of a DONE reply (R209). -/
inductive OfficeData where
  | nothing
  | entry (article : Nat) (e : Entry)
  | entryState (s : EntryState)
  | label (target : Target) (state : LabelState)
  | ownedLabel (label slot : Nat) (position : Option Nat) (o : Owned)
  | heardLabel (label slot : Nat) (h : Heard)
  | mode (m : Mode)
  | time (t : StoreTime)
  | alerts (list : List Alert) (held overflow : Nat)
  | figures (f : Figures)
deriving DecidableEq, Repr

/-- The outcome an OFFICE-REPLY carries (11 §11.3). -/
inductive OfficeOutcome where
  | done (d : OfficeData)
  | refused (r : Reason)
  | badCommand
deriving DecidableEq, Repr

/-- An office reply: tag, kind as received and outcome (12.7). -/
structure OfficeReply where
  tag : Nat
  kind : Nat
  outcome : OfficeOutcome
deriving DecidableEq, Repr

/-- The payload of a trunk frame the part forms (12.2). -/
inductive FrameBody where
  | beacon (b : Beacon)
  | cycleMark (number length : Nat) (time : Option StoreTime)
  | priceChange (serial firstIndex : Nat) (records : List ChangeRecord)
  | fileAnnounce (serial count check : Nat)
  | fileClose (serial count check : Nat)
  | shelfDone (reports : List Report)
  | shelfQuery (reports : List Report)
  | shelfPending (reports : List Report)
  | labelClaim (label : Nat) (claimant : Station) (channel : Nat) (level : Int)
  | labelRefuse (label : Nat) (level : Option Int)
  | labelHandover (r : Handover)
  | labelAdopted (label : Nat) (adopter : Station) (display : Display)
  | relay (p : Parcel)
  | officeReply (r : OfficeReply)
deriving DecidableEq, Repr

/-- What a frame was formed for, by which its outcome is taken (R123). -/
inductive Purpose where
  | beacon
  | mark
  | spot
  | reports
  | shelfAnswer
  | shelfQuestion
  | label
  | share
  | reply (restart : Bool)
  | relayOut
  | relayBack
deriving DecidableEq, Repr

/-- A frame of the trunk controller (R121): destination (absent for ALL), payload, purpose and attempt count. -/
structure Frame where
  dest : Option Station
  body : FrameBody
  purpose : Purpose
  attempts : Nat
deriving DecidableEq, Repr

/-- The trunk controller. `kept` are the frames blocks keep behind their held frames, in the order formed (R124).
`inAir` is the queue whose front frame is being sent. -/
structure Trunk where
  urgent : List Frame
  notice : List Frame
  bulk : List Frame
  holdNotice : List Frame
  holdBulk : List Frame
  kept : List Frame
  inAir : Option TrunkClass
  peers : Vector Peer 16
  clash : Bool
  beaconTimer : Option Nat
deriving DecidableEq, Repr

/-- The command memory (R209): a place for each source station, and whether a RESTART has been acted on (R211). -/
structure CommandMemory where
  places : Vector (Option OfficeReply) 16
  restarting : Bool
deriving DecidableEq, Repr

/-! ### Forwarding (08) -/

/-- Path of a pending table entry (R155): LOCAL, with whether the parcel has been sent, or RELAY with the holder. -/
inductive AuthPath where
  | local (sent : Bool)
  | relay (holder : Station)
deriving DecidableEq, Repr

/-- An entry of the pending table (R155); the lane is its key and `count` completes the tag. -/
structure PendingAuth where
  count : Nat
  path : AuthPath
deriving DecidableEq, Repr

/-- Path of the session's last parcel (R156). -/
inductive SessionPath where
  | local
  | holder (n : Station)
deriving DecidableEq, Repr

/-- An entry of the guest list (R157). -/
structure Guest where
  address : Nat
  capped : Bool
  bytesToday : Nat
  level : Nat
  lastSeen : Nat
deriving DecidableEq, Repr

/-- This station's session parcel while it is held until it fits the OFFICE queue, and how many parcels relayed in since
have joined that queue (R156). -/
structure HeldParcel where
  parcel : Parcel
  relayedSince : Nat
deriving DecidableEq, Repr

/-- The forwarding unit. `sending` is the parcel being sent and the moment its sending ends (R147). -/
structure Forwarding where
  up : Bool
  till : List Parcel
  office : List Parcel
  guest : List Parcel
  sending : Option (Parcel × Nat)
  officeTally : Nat
  guestTally : Nat
  heldParcel : Option HeldParcel
  holder : Option Station
  sessionPath : Option SessionPath
  pendingTable : AMap PendingAuth
  relayBack : List Parcel
  guests : List Guest
  timer : Nat
deriving DecidableEq, Repr

/-! ### Outputs -/

/-- A packet handed to the label transceiver (12.9). A MOVE's channel is absent for the common channel. -/
inductive RadioPacket where
  | header (channel : Nat) (station : Station) (cycle slot length : Nat)
  | show (channel label article version : Nat) (kind : ArticleKind) (terms : Terms) (power : Nat)
  | blank (channel label : Nat) (article : Option Nat) (version power : Nat)
  | move (channel : Option Nat) (label : Nat) (owner : Station) (ownerChannel power : Nat)
deriving DecidableEq, Repr

/-- Reason of a REJECT at the guest port (R158, R159). -/
inductive RejectReason where
  | noService | full | closed
deriving DecidableEq, Repr

/-- What the part puts on its ports. -/
inductive Output where
  | laneReply (lane : LaneNo) (bit : Bool) (r : LaneReply)
  | trunkFrame (src : Station) (f : Frame)
  | takenSlot
  | spoiledSlot
  | radio (p : RadioPacket)
  | uplink (p : Parcel)
  | guestReply (guest : Nat) (payload : List Byte)
  | guestReject (guest : Nat) (why : RejectReason)
deriving DecidableEq, Repr

/-! ### The whole part -/

/-- The state of the part. `out` and `pending` and `fresh` are the model's own fields. -/
structure State where
  powered : Bool
  resetHeld : Bool
  now : Nat
  carrier : Bool
  levels : Vector Bool 4
  part : PartState
  listenTimer : Option Nat
  cause : Cause
  image : Option (List Byte)
  settings : Settings
  clamped : Nat
  counts : Tally
  trunk : Trunk
  commands : CommandMemory
  book : Book
  lanes : Vector Lane 16
  journal : Journal
  labels : Labels
  fwd : Forwarding
  link : Link
  staging : Staging
  unit : ModeUnit
  alerts : AlertList
  out : List Output
  fresh : Nat
  pending : List Instr
deriving DecidableEq, Repr

/-- No command ends in a fault: the spec gives every event an outcome, so the type has no constructor. -/
inductive Fault where
deriving DecidableEq, Repr

/-- Why a command has no meaning. -/
inductive Refusal where
  /-- Raised by exec's arm for a command the model gives no meaning yet; safe. No arm uses it: every row of the table
  has its meaning. -/
  | notModelled (mnemonic : String)
deriving DecidableEq, Repr

/-! ### Values just after a reset -/

/-- The settings until a profile is accepted (DESIGN CHOICE, log 4). -/
def Settings.none : Settings :=
  { station := 0, laneCount := 0, labelService := false, labelChannel := 0, uplinkPresent := false, uplinkRate := 256,
    guestService := false, guestRelay := false, guestRate := 2000, allowance := 209715200, share := true,
    windowStart := 60, windowLength := 4, openTime := 0, lateTime := 0, closeTime := 0, changeoverLimit := 6,
    claimMargin := 6, cashStep := 1, highWatermark := 12288, lines := Vector.replicate 4 (.none, true) }

/-- A peer table slot after a reset (R142). -/
def Peer.absent : Peer := { state := .absent, kind := none, beacon := none, labelService := false, timer := none }

/-- The trunk controller after a reset (R142). -/
def Trunk.initial : Trunk :=
  { urgent := [], notice := [], bulk := [], holdNotice := [], holdBulk := [], kept := [], inAir := none,
    peers := Vector.replicate 16 Peer.absent, clash := false, beaconTimer := none }

/-- The command memory after a reset (R209). -/
def CommandMemory.initial : CommandMemory := { places := Vector.replicate 16 none, restarting := false }

/-- A lane record after a reset, with the last closed serial that attached memory keeps (R50; DOWN until the profile is
loaded, log 8). -/
def Lane.initial (lastClosed : Nat) : Lane :=
  { state := .down, flight := none, last := none, restart := true, basketId := 0, authCount := 0,
    lastClosed := lastClosed, checkErrors := 0, oversize := 0, lateReplies := 0, timer := none, basket := none }

/-- The price book unit after a reset at part time `now`, with the entries given (R25). -/
def Book.initial (now : Nat) (entries : AMap Entry) : Book :=
  { entries := entries, cursor := none, fullNoted := false, reports := [], outstanding := false, queryTimes := [],
    timer := now + Config.seconds 1 }

/-- The journal unit after a reset, with the records and counter given (R76). The high flag is clear until the loading of
the profile sets it (DESIGN CHOICE, log 52). -/
def Journal.initial (records : List JournalRecord) (counter : SerialCounter) : Journal :=
  { records := records, counter := counter, outstanding := [], high := false }

/-- The label radio controller after a reset, with the OWNED entries given (R102, R120). The cycle length is 16 s and the
slot 0 until the entry to LISTENING sets them (DESIGN CHOICE, log 53). -/
def Labels.initial (owned : AMap Owned) : Labels :=
  { owned := owned, heard := [], stamp := 0, cycle := 0, slot := 0, length := 16, slotEnd := none, markLength := none,
    aligned := false, reference := none, adoptions := [] }

/-- The forwarding unit after a reset at part time `now` (R166). -/
def Forwarding.initial (now : Nat) : Forwarding :=
  { up := false, till := [], office := [], guest := [], sending := none, officeTally := 0, guestTally := 0,
    heldParcel := none, holder := none, sessionPath := none, pendingTable := [], relayBack := [], guests := [],
    timer := now + Config.millis 8 }

/-- The staging list with owner NONE (R184, R189). It shows the phase COLLECTING and the serial 0, which no rule gives it
then (DESIGN CHOICE, log 65). -/
def Staging.empty : Staging :=
  { owner := .none, phase := .collecting, serial := 0, source := none, count := none, check := none, records := [],
    lastFrame := 0, share := none, released := false }

/-- The session record after a reset at part time `now`, with the attempt tag and held file serial that attached memory
keeps (R189). -/
def Link.initial (now attemptTag held : Nat) : Link :=
  { state := .idle, attemptCount := 0, windowDay := none, attemptTag := attemptTag, kind := none, cut := none,
    newest := none, batchSerial := 0, window := [], replyTimer := none, restTimer := none, resendUsed := false,
    held := held, announce := none, lastEarly := none, earlyPending := false, toSend := [], waiting := false, acked := 0,
    outcome := .none, lastFailure := none, timer := now + Config.seconds 1 }

/-- An event line record until the profile is loaded (R198). -/
def EventLine.unread : EventLine := { use := .none, activeHigh := true, asserted := false, edges := 0 }

/-- The mode and event unit after a reset (R204). -/
def ModeUnit.initial : ModeUnit :=
  { clock := none, clockTimer := none, highestDay := none, mode := .late, override := none, schedule := none,
    mains := .clear, lines := Vector.replicate 4 EventLine.unread }

/-- The alert list after a reset: one RESTARTED alert (R204). -/
def AlertList.initial (c : Cause) : AlertList :=
  { list := [{ serial := 1, kind := .restarted, severity := .info, time := none, subject := .self,
               detail := .cause c, acked := false }],
    next := 2 }

/-- The part just after power has been applied with the attached memory first prepared (R208 and each chapter's
state-after-reset rule). The RESTARTED alert is counted among the alerts recorded (R200). -/
def State.reset : State :=
  { powered := true, resetHeld := false, now := 0, carrier := false, levels := Vector.replicate 4 false,
    part := .starting, listenTimer := none, cause := .powerOn, image := none, settings := Settings.none, clamped := 0,
    counts := [(Count.alertsRecorded.ctorIdx, 1)],
    trunk := Trunk.initial, commands := CommandMemory.initial, book := Book.initial 0 [],
    lanes := Vector.replicate 16 (Lane.initial 0), journal := Journal.initial [] (.next 1),
    labels := Labels.initial [], fwd := Forwarding.initial 0, link := Link.initial 0 0 0, staging := Staging.empty,
    unit := ModeUnit.initial, alerts := AlertList.initial .powerOn, out := [], fresh := 0, pending := [] }

end Sys2Proof.Machine
end

