-- ==== Sys2Proof/Machine/Maps.lean ====
section
/-! DEFINITION. Collections keyed by a number, in strictly rising order of key, so that equal contents are equal
data. -/

namespace Sys2Proof.Machine

/-- The value held under key `k`. -/
def AMap.get {α : Type} : AMap α → Nat → Option α
  | [], _ => none
  | (k', v) :: m, k => if k' = k then some v else AMap.get m k

/-- The collection with `v` held under `k`, replacing what `k` held. -/
def AMap.put {α : Type} : AMap α → Nat → α → AMap α
  | [], k, v => [(k, v)]
  | (k', v') :: m, k, v =>
    if k < k' then (k, v) :: (k', v') :: m
    else if k = k' then (k, v) :: m
    else (k', v') :: AMap.put m k v

/-- The collection without key `k`. -/
def AMap.del {α : Type} (m : AMap α) (k : Nat) : AMap α := m.filter fun e => e.1 != k

/-- The collection with `f` applied to what `k` holds, if it holds anything. -/
def AMap.modify {α : Type} (m : AMap α) (k : Nat) (f : α → α) : AMap α :=
  m.map fun e => if e.1 = k then (e.1, f e.2) else e

/-- The canonical form: keys strictly rising. -/
def AMap.wf {α : Type} : AMap α → Bool
  | [] => true
  | [_] => true
  | (k, _) :: (k', v') :: m => decide (k < k') && AMap.wf ((k', v') :: m)

end Sys2Proof.Machine
end

