-- ==== Sys2Proof/Machine/Ops.lean ====
section
/-! DEFINITION. The operations every block uses: the block-by-block updates of the state, counts, outputs, part time,
store-time comparison, the alert list, the offer of a frame to the trunk controller, and the reset. -/

namespace Sys2Proof.Machine

open Sys2Proof

/-! ### Updates of one block -/

def State.withTrunk (s : State) (f : Trunk → Trunk) : State := { s with trunk := f s.trunk }
def State.withCommands (s : State) (f : CommandMemory → CommandMemory) : State := { s with commands := f s.commands }
def State.withBook (s : State) (f : Book → Book) : State := { s with book := f s.book }
def State.withJournal (s : State) (f : Journal → Journal) : State := { s with journal := f s.journal }
def State.withLabels (s : State) (f : Labels → Labels) : State := { s with labels := f s.labels }
def State.withFwd (s : State) (f : Forwarding → Forwarding) : State := { s with fwd := f s.fwd }
def State.withLink (s : State) (f : Link → Link) : State := { s with link := f s.link }
def State.withStaging (s : State) (f : Staging → Staging) : State := { s with staging := f s.staging }
def State.withUnit (s : State) (f : ModeUnit → ModeUnit) : State := { s with unit := f s.unit }

/-- The record of lane `l`. -/
def State.lane (s : State) (l : LaneNo) : Lane := s.lanes.get l

/-- The state with lane `l`'s record changed by `f`. -/
def State.withLane (s : State) (l : LaneNo) (f : Lane → Lane) : State :=
  { s with lanes := s.lanes.set l.val (f (s.lanes.get l)) l.isLt }

/-- The peer table slot of station `n`. -/
def State.peer (s : State) (n : Station) : Peer := s.trunk.peers.get n

/-- The state with station `n`'s peer table slot changed by `f`. -/
def State.withPeer (s : State) (n : Station) (f : Peer → Peer) : State :=
  s.withTrunk fun t => { t with peers := t.peers.set n.val (f (t.peers.get n)) n.isLt }

/-- This station's number (R205). -/
abbrev State.self (s : State) : Station := s.settings.station

/-! ### Counts -/

/-- A count raised by `n` and held at its maximum (R24 and the other count rules). -/
def raise (c n : Nat) : Nat := min (c + n) Config.countMax

/-- The value of a count. -/
def State.count (s : State) (c : Count) : Nat := (AMap.get s.counts c.ctorIdx).getD 0

/-- Raise a count by `n`. -/
def State.bumpBy (s : State) (c : Count) (n : Nat) : State :=
  if n = 0 then s else { s with counts := AMap.put s.counts c.ctorIdx (raise (s.count c) n) }

/-- Raise a count by 1. -/
def State.bump (s : State) (c : Count) : State := s.bumpBy c 1

/-! ### Outputs, part time, free values -/

/-- Put something on a port. -/
def State.emit (s : State) (o : Output) : State := { s with out := s.out ++ [o] }

/-- Put several things on the ports, in order. -/
def State.emitAll (s : State) (os : List Output) : State := { s with out := s.out ++ os }

/-- Part time moved on to the moment a timer was set for. It never moves back. -/
def State.reach (s : State) (due : Nat) : State := { s with now := max s.now due }

/-- Draw a free last heard cycle (log 6). -/
def State.drawCycle (s : State) : Nat × State :=
  ((Config.unheardCycle s.fresh).toNat, { s with fresh := s.fresh + 1 })

/-- The part has power and is not held in reset, so that its blocks act (R208). -/
def State.live (s : State) : Bool := s.powered && !s.resetHeld

/-- The trunk controller sends, and asserts acknowledgement slots (R139). -/
def State.canSend (s : State) : Bool := s.part == .listening || s.part == .running

/-- The part state is RUNNING or LISTEN-ONLY, in which the price book's examination is not held (R9), turns may be
filled (R88) and sessions run (R167). -/
def State.working (s : State) : Bool := s.part == .running || s.part == .listenOnly

/-- The part state is LISTENING, RUNNING or LISTEN-ONLY (R87, R144, R209). -/
def State.serving (s : State) : Bool := s.part == .listening || s.working

/-! ### Store time -/

/-- `a` is at or before `b`, day first and second of the day after (R9). -/
def timeLe (a b : StoreTime) : Bool := decide (a.day < b.day) || (decide (a.day = b.day) && decide (a.sec ≤ b.sec))

/-- A store time within the ranges of the clock (R191). -/
def timeValid (t : StoreTime) : Bool := decide (t.day ≤ Config.dayMax) && decide (t.sec < Config.daySeconds)

/-- The effective time "at once" (R2). -/
def isAtOnce (t : StoreTime) : Bool := t == ⟨0, 0⟩

/-- `t` plus `n` seconds, carried into the following days and held at the last second of day 65,535 (R11). -/
def timePlus (t : StoreTime) (n : Nat) : StoreTime :=
  let sum := t.day * Config.daySeconds + t.sec + n
  if sum / Config.daySeconds > Config.dayMax then ⟨Config.dayMax, Config.daySeconds - 1⟩
  else ⟨sum / Config.daySeconds, sum % Config.daySeconds⟩

/-- The store clock is set and at or after `t`: `t` has come (R9). -/
def State.hasCome (s : State) (t : StoreTime) : Bool :=
  match s.unit.clock with
  | none => false
  | some c => timeLe t c

/-! ### Alerts (R200) -/

/-- Drop the first alert that satisfies `p`. -/
def dropFirst (p : Alert → Bool) : List Alert → List Alert
  | [] => []
  | a :: l => if p a then l else a :: dropFirst p l

/-- Record an alert: make room when the list is full, give the alert the next serial, put it at the tail (R200). -/
def State.recordAlert (s : State) (kind : AlertKind) (sev : Severity) (subject : Subject) (detail : Detail) : State :=
  let full := decide (s.alerts.list.length ≥ Config.alertCapacity)
  let anyAcked := s.alerts.list.any (·.acked)
  let list :=
    if full then (if anyAcked then dropFirst (·.acked) s.alerts.list else s.alerts.list.drop 1) else s.alerts.list
  let s1 := if full then s.bump (if anyAcked then .ackedAlertsRemoved else .alertOverflow) else s
  let a : Alert :=
    { serial := s.alerts.next, kind := kind, severity := sev, time := s.unit.clock, subject := subject,
      detail := detail, acked := false }
  { (s1.bump .alertsRecorded) with
    alerts := { list := list ++ [a], next := if s.alerts.next < Config.countMax then s.alerts.next + 1 else s.alerts.next } }

/-! ### Offering a frame to the trunk controller (R122 to R124, R138) -/

/-- The class of a frame (R122). -/
def FrameBody.trunkClass : FrameBody → TrunkClass
  | .beacon _ => .urgent
  | .cycleMark _ _ _ => .urgent
  | .priceChange _ _ _ => .notice
  | .fileAnnounce _ _ _ => .notice
  | .fileClose _ _ _ => .notice
  | .shelfDone _ => .notice
  | .shelfQuery _ => .notice
  | .shelfPending _ => .notice
  | .labelClaim _ _ _ _ => .notice
  | .labelRefuse _ _ => .notice
  | .labelHandover _ => .notice
  | .labelAdopted _ _ _ => .notice
  | .relay p => match p.cls with
    | .till => .urgent
    | .office => .bulk
    | .guest => .bulk
  | .officeReply _ => .notice

/-- A frame that waits when its queue is full (the last column of R122). -/
def FrameBody.waits : FrameBody → Bool
  | .beacon _ => false
  | .cycleMark _ _ _ => false
  | .priceChange _ _ _ => true
  | .fileAnnounce _ _ _ => true
  | .fileClose _ _ _ => true
  | .shelfDone _ => false
  | .shelfQuery _ => true
  | .shelfPending _ => true
  | .labelClaim _ _ _ _ => false
  | .labelRefuse _ _ => false
  | .labelHandover _ => true
  | .labelAdopted _ _ _ => true
  | .relay p => p.cls == .office
  | .officeReply _ => true

/-- The blocks that form frames, as R124 counts them (00 §1.3, R122). -/
inductive Sender where
  | trunk | book | lanes | journal | labels | forwarding | link | unit | loader
deriving DecidableEq, Repr

/-- The block that owns the figures of a READ-COUNTS group (R209, R210). -/
def Figures.owner : Figures → Sender
  | .start _ _ _ _ _ => .loader
  | .trunk _ _ _ _ _ => .trunk
  | .priceBook _ => .book
  | .lanes _ _ => .lanes
  | .journal _ _ _ _ _ _ => .journal
  | .labels _ _ _ _ _ _ _ _ _ _ _ => .labels
  | .forwarding _ _ _ _ _ _ _ _ _ _ _ _ => .forwarding
  | .session _ _ _ _ _ _ _ _ _ _ _ _ => .link
  | .mode _ _ _ _ _ _ _ _ => .unit

/-- The block that answers a READ-COUNTS: that whose figures are given, and for a group that is refused the trunk
controller (log 10). -/
def OfficeOutcome.countsOwner : OfficeOutcome → Sender
  | .done (.figures f) => f.owner
  | _ => .trunk

/-- The block that answered an office command, told from its kind as 12.7 numbers the kinds: the block that owns the state
the command concerns (R122, R209). The trunk controller, which keeps the command memory, answers a BAD-COMMAND, and the
profile loader a RESTART (log 10). -/
def OfficeReply.answeredBy (r : OfficeReply) : Sender :=
  match r.outcome, r.kind with
  | .badCommand, _ => .trunk
  | _, 1 => .book
  | _, 2 => .book
  | _, 3 => .labels
  | _, 4 => .labels
  | _, 5 => .labels
  | _, 6 => .unit
  | _, 7 => .unit
  | _, 8 => .link
  | _, 9 => .unit
  | _, 10 => .unit
  | o, 11 => o.countsOwner
  | _, 12 => .loader
  | _, _ => .trunk

/-- The block that formed a frame's payload, for an office reply (R122). -/
def FrameBody.answeredBy : FrameBody → Sender
  | .officeReply r => r.answeredBy
  | _ => .trunk

/-- The block that formed a frame (R122). -/
def Frame.sender (f : Frame) : Sender :=
  match f.purpose with
  | .beacon => .trunk
  | .mark => .labels
  | .spot => .book
  | .reports => .book
  | .shelfAnswer => .book
  | .shelfQuestion => .book
  | .label => .labels
  | .share => .link
  | .reply _ => f.body.answeredBy
  | .relayOut => .forwarding
  | .relayBack => .forwarding

/-- The frames of one transmit queue (R123). -/
def Trunk.queue (t : Trunk) : TrunkClass → List Frame
  | .urgent => t.urgent
  | .notice => t.notice
  | .bulk => t.bulk

/-- The trunk controller with one transmit queue replaced. -/
def Trunk.setQueue (t : Trunk) (c : TrunkClass) (q : List Frame) : Trunk :=
  match c with
  | .urgent => { t with urgent := q }
  | .notice => { t with notice := q }
  | .bulk => { t with bulk := q }

/-- The hold line of a queue (R124); URGENT has none. -/
def Trunk.hold (t : Trunk) : TrunkClass → List Frame
  | .urgent => []
  | .notice => t.holdNotice
  | .bulk => t.holdBulk

/-- The trunk controller with one hold line replaced. -/
def Trunk.setHold (t : Trunk) (c : TrunkClass) (q : List Frame) : Trunk :=
  match c with
  | .urgent => t
  | .notice => { t with holdNotice := q }
  | .bulk => { t with holdBulk := q }

/-- The count of offers not taken for a queue (R141). -/
def notTakenCount : TrunkClass → Count
  | .urgent => .notTakenUrgent
  | .notice => .notTakenNotice
  | .bulk => .notTakenBulk

/-- What a block is told when it hands over a frame: QUEUED, held to wait, or NOT-TAKEN (R122, R123). -/
inductive Answer where
  | queued | waiting | notTaken
deriving DecidableEq, Repr

/-- Frames of class `c` that block `b` keeps behind its held frame. -/
def Trunk.keptBy (t : Trunk) (b : Sender) (c : TrunkClass) : List Frame :=
  t.kept.filter fun f => f.sender == b && f.body.trunkClass == c

/-- Hand a frame to the trunk controller (R122 to R124, R138, R139). A place in the queue takes it. With no place, a
frame that may wait goes to the hold line, or is kept by its block behind the block's held frame, at most 64 of them;
any other frame is not taken. -/
def State.offer (s : State) (f : Frame) : Answer × State :=
  let c := f.body.trunkClass
  if !s.canSend then (.notTaken, s.bump (notTakenCount c))
  else if (s.trunk.queue c).length < Config.queueCapacity c then
    (.queued, s.withTrunk fun t => t.setQueue c (t.queue c ++ [f]))
  else if !f.body.waits then (.notTaken, s.bump (notTakenCount c))
  else if (s.trunk.hold c).any fun g => g.sender == f.sender then
    if (s.trunk.keptBy f.sender c).length < Config.keptCapacity then
      (.waiting, s.withTrunk fun t => { t with kept := t.kept ++ [f] })
    else (.notTaken, s)
  else (.waiting, (s.withTrunk fun t => t.setHold c (t.hold c ++ [f])).bump .framesWaited)

/-- A frame newly formed: no attempt has been made. -/
def Frame.new (dest : Option Station) (body : FrameBody) (purpose : Purpose) : Frame :=
  { dest := dest, body := body, purpose := purpose, attempts := 0 }

/-- Hand over a frame whose answer its block does not use. -/
def State.send (s : State) (f : Frame) : State := (s.offer f).2

/-! ### The reset (R208 and the state-after-reset rule of each chapter) -/

/-- A label is current: its display meets its target (R78). -/
def Owned.current (o : Owned) : Bool :=
  match o.target with
  | .price a v => o.display.form == .price && o.display.article == some a && decide (v ≤ o.display.version)
  | .blank a v => o.display.form == .blank && o.display.article == some a && decide (v ≤ o.display.version)
  | .unbound => o.display.form == .blank

/-- A claim is outstanding: set from a LABEL-CLAIM until it is ended, or the claim age reaches 16 (R109). -/
def Heard.outstanding (h : Heard) : Bool := h.claimed && h.claimAge.all fun n => decide (n < 16)

/-- An OWNED entry as a reset at part time `now` leaves it (R102, R120). Its owner station keeps its number until the
profile, which gives this station's, is loaded (DESIGN CHOICE, log 4). Its place in the order of hearing is the oldest until a presence is taken
(DESIGN CHOICE, log 6). -/
def Owned.afterReset (now : Nat) (o : Owned) : Owned :=
  { o with
    state := match o.state with
      | .lost => .lost
      | .updateDue _ => .updateDue now
      | .showing => if o.current then .showing else .updateDue now
      | .sent _ => if o.current then .showing else .updateDue now
      | .moving _ => if o.current then .showing else .updateDue now
    lastSent := none, attempts := 0, power := 0, lastReceived := none
    hearing := { smoothed := none, lastCycle := 0, owner := o.hearing.owner, ownerLevel := none, stamp := 0 } }

/-- An entry as a reset leaves it: the changeover age is 0 and all else is kept (R25). -/
def Entry.afterReset (e : Entry) : Entry :=
  match e.phase with
  | .changing c => { e with phase := .changing { c with age := 0 } }
  | .steady => e
  | .waiting _ => e

/-- Every block in its reset state, with what the attached memory keeps (R25, R50, R74, R76, R102, R120, R142, R166,
R189, R204, R209). The alert list is empty: the RESTARTED alert is recorded when the part enters STARTING. -/
def State.cleared (s : State) : State :=
  { s with
    part := .starting, listenTimer := none, settings := Settings.none, clamped := 0, counts := []
    trunk := Trunk.initial, commands := CommandMemory.initial
    book := Book.initial s.now (s.book.entries.map fun e => (e.1, e.2.afterReset))
    lanes := s.lanes.map fun l => Lane.initial l.lastClosed
    journal := Journal.initial (s.journal.records.map fun r => { r with sent := false }) s.journal.counter
    labels := Labels.initial (s.labels.owned.map fun e => (e.1, e.2.afterReset s.now))
    fwd := Forwarding.initial s.now, link := Link.initial s.now s.link.attemptTag s.link.held
    staging := Staging.empty, unit := ModeUnit.initial, alerts := { list := [], next := 1 } }

/-- Enter STARTING after a reset of the given cause: the reset state, and the RESTARTED alert (R204, R208). -/
def State.enterStarting (s : State) (c : Cause) : State :=
  { s.cleared with cause := c }.recordAlert .restarted .info .self (.cause c)

end Sys2Proof.Machine
end

