-- ==== Sys2Proof/Machine/Formats.lean ====
section
/-! DEFINITION. Byte layouts and check definitions (12): what the part produces and reads as bytes. -/

namespace Sys2Proof.Machine

open Sys2Proof

/-! ### Numbers and checks (R212) -/

/-- The number `v` in `n` bytes, most significant byte first (R212). -/
def be : Nat → Nat → List Byte
  | 0, _ => []
  | n + 1, v => BitVec.ofNat 8 (v / 256 ^ n) :: be n v

/-- The number that bytes give, most significant byte first (R212). -/
def num (bs : List Byte) : Nat := bs.foldl (fun a b => a * 256 + b.toNat) 0

/-- The number in the `n` bytes at offset `at_`. -/
def numAt (bs : List Byte) (at_ n : Nat) : Nat := num ((bs.drop at_).take n)

/-- One bit into a CRC register, most significant bit first (R212). -/
def crcBit {w : Nat} (poly crc : BitVec w) (bit : Bool) : BitVec w :=
  if crc.msb != bit then (crc <<< 1) ^^^ poly else crc <<< 1

/-- One byte into a CRC register, bit 7 first (R212). -/
def crcByte {w : Nat} (poly crc : BitVec w) (b : Byte) : BitVec w :=
  [7, 6, 5, 4, 3, 2, 1, 0].foldl (fun c i => crcBit poly c (b.getLsbD i)) crc

/-- The CRC-16 of R212. -/
def crc16 (bs : List Byte) : Nat := (~~~ (bs.foldl (crcByte 0x1021#16) 0xFFFF#16)).toNat

/-- The CRC-32 of R212. -/
def crc32 (bs : List Byte) : Nat := (~~~ (bs.foldl (crcByte 0x04C11DB7#32) 0xFFFFFFFF#32)).toNat

/-- A flag: 1 byte (12.1). -/
def flagBytes (b : Bool) : List Byte := [if b then 1 else 0]

/-- A store time: day in 2 bytes, second in 4; UNSET is day 0 and second 4,294,967,295 (12.1). -/
def timeBytes : Option StoreTime → List Byte
  | none => be 2 0 ++ be 4 4294967295
  | some t => be 2 t.day ++ be 4 t.sec

/-- A radio level: 2 bytes, two's complement (12.1). -/
def levelBytes (x : Int) : List Byte := be 2 (BitVec.ofInt 16 x).toNat

/-! ### Codes (12.1) -/

def classCode : TrunkClass → Nat
  | .urgent => 0 | .notice => 1 | .bulk => 2
def kindCode : ArticleKind → Nat
  | .each => 1 | .weighed => 2 | .multi => 3
def tenderCode : Tender → Nat
  | .cash => 1 | .card => 2 | .other => 3
def modeCode : Mode → Nat
  | .open => 1 | .late => 2 | .closed => 3 | .distress => 4
def partCode : PartState → Nat
  | .starting => 1 | .listening => 2 | .running => 3 | .listenOnly => 4 | .halted => 5
def parcelClassCode : ParcelClass → Nat
  | .till => 1 | .office => 2 | .guest => 3
def portCode : OriginPort → Nat
  | .lane l => l.val | .session => 16 | .guest => 17
def statusCode : ParcelStatus → Nat
  | .data => 0 | .noRoute => 1 | .busy => 2
def formCode : Form → Nat
  | .price => 1 | .blank => 2
def batteryCode : Battery → Nat
  | .good => 1 | .low => 2 | .empty => 3
def stationKindCode : StationKind → Nat
  | .controller => 1 | .office => 2

/-- The article kind a code stands for (12.1). -/
def articleKindOf : Nat → Option ArticleKind
  | 1 => some .each
  | 2 => some .weighed
  | 3 => some .multi
  | _ => none

/-! ### Change records and journal records (12.4, 12.5) -/

/-- A change record: 33 bytes (12.4). -/
def recordBytes (r : ChangeRecord) : List Byte :=
  be 6 r.article ++ be 4 r.version ++ be 1 r.changeCode ++ be 1 r.kindCode ++ be 4 r.price ++ be 1 r.groupSize
    ++ be 4 r.groupPrice ++ be 2 r.effective.day ++ be 4 r.effective.sec ++ be 4 r.fileSerial ++ be 2 r.index

/-- The change record in 33 bytes (12.4). -/
def recordOf (bs : List Byte) : ChangeRecord :=
  { article := numAt bs 0 6, version := numAt bs 6 4, changeCode := numAt bs 10 1, kindCode := numAt bs 11 1,
    price := numAt bs 12 4, groupSize := numAt bs 16 1, groupPrice := numAt bs 17 4,
    effective := ⟨numAt bs 21 2, numAt bs 23 4⟩, fileSerial := numAt bs 27 4, index := numAt bs 31 2 }

/-- `n` change records laid end to end. -/
def recordsOf : Nat → List Byte → List ChangeRecord
  | 0, _ => []
  | n + 1, bs => recordOf (bs.take 33) :: recordsOf n (bs.drop 33)

/-- A line of a journal record: 25 bytes (12.5). -/
def lineBytes (l : Line) : List Byte :=
  be 6 l.article ++ be 1 (kindCode l.kind) ++ be 4 l.quantity ++ be 1 l.markdown ++ be 4 l.amount ++ flagBytes l.void
    ++ be 4 l.version ++ be 4 (l.pendingVersion.getD 0)

/-- A journal record: 26 bytes of heading and its lines (12.5). -/
def journalBytes (r : JournalRecord) : List Byte :=
  be 4 r.serial ++ be 1 r.lane.val ++ timeBytes r.time ++ be 1 (tenderCode r.tender) ++ be 4 r.due ++ be 4 r.total
    ++ be 4 r.reduction ++ flagBytes r.changeover ++ be 1 r.lines.length ++ r.lines.flatMap lineBytes

/-! ### Session messages (12.8) -/

def outcomeCode : FileOutcome → Nat
  | .none => 0 | .taken => 1 | .skipped => 2 | .refused => 3 | .bad => 4

/-- A message to head office (12.8). -/
def messageBytes : OutMessage → List Byte
  | .opening n held unsent => be 1 1 ++ be 1 n.val ++ be 4 held ++ be 4 unsent
  | .batchPart serial part last run => be 1 5 ++ be 2 serial ++ be 1 part ++ flagBytes last ++ run
  | .fileWanted serial => be 1 7 ++ be 4 serial
  | .skipFile serial => be 1 8 ++ be 4 serial
  | .fileTaken serial => be 1 12 ++ be 4 serial
  | .fileBad serial present _ => be 1 13 ++ be 4 serial ++ be 2 present
  | .fileRefused serial tooLarge => be 1 14 ++ be 4 serial ++ be 1 (if tooLarge then 1 else 2)
  | .sessionEnd batches outcome => be 1 16 ++ be 2 batches ++ be 1 (outcomeCode outcome)

/-- A message from head office (09 §9.1); `other` is any whose kind or length does not fit 12.8. -/
inductive InMessage where
  | accept (time : StoreTime) (newest : Nat)
  | defer
  | refuse (reason : Nat)
  | batchTaken (serial : Nat)
  | fileStart (serial count check : Nat)
  | filePart (serial firstIndex : Nat) (records : List ChangeRecord)
  | fileEnd (serial : Nat)
  | noResend (serial : Nat)
  | other
deriving DecidableEq, Repr

/-- The message in the payload of an OFFICE reply parcel (12.8). -/
def messageOf (bs : List Byte) : InMessage :=
  match numAt bs 0 1, bs.length with
  | 2, 11 => .accept ⟨numAt bs 1 2, numAt bs 3 4⟩ (numAt bs 7 4)
  | 3, 1 => .defer
  | 4, 2 => .refuse (numAt bs 1 1)
  | 6, 3 => .batchTaken (numAt bs 1 2)
  | 9, 11 => .fileStart (numAt bs 1 4) (numAt bs 5 2) (numAt bs 7 4)
  | 10, n =>
    let k := numAt bs 7 1
    if 1 ≤ k ∧ k ≤ 32 ∧ n = 8 + 33 * k then .filePart (numAt bs 1 4) (numAt bs 5 2) (recordsOf k (bs.drop 8)) else .other
  | 11, 5 => .fileEnd (numAt bs 1 4)
  | 15, 5 => .noResend (numAt bs 1 4)
  | _, _ => .other

/-! ### Parcels, trunk frames (12.2) -/

/-- A parcel, as a RELAY frame and the uplink port carry it (12.2, 12.10). -/
def parcelBytes (p : Parcel) : List Byte :=
  be 1 (parcelClassCode p.cls) ++ be 1 p.origin.val ++ be 1 (portCode p.port) ++ be 2 p.tag ++ be 1 (statusCode p.status)
    ++ (match p.guest with
        | none => flagBytes false
        | some g => flagBytes true ++ be 6 g)
    ++ p.payload

/-- A report list: the count in one byte, then 10 bytes a report (12.2). -/
def reportsBytes (rs : List Report) : List Byte :=
  be 1 rs.length ++ rs.flatMap fun r => be 6 r.article ++ be 4 r.version

/-- The displayed form, article (0 when absent) and version (12.2). -/
def displayBytes (d : Display) : List Byte :=
  be 1 (formCode d.form) ++ be 6 (d.article.getD 0) ++ be 4 d.version

/-- The kind code of a frame (12.2). -/
def FrameBody.code : FrameBody → Nat
  | .beacon _ => 1
  | .cycleMark _ _ _ => 2
  | .priceChange _ _ _ => 3
  | .fileAnnounce _ _ _ => 4
  | .fileClose _ _ _ => 5
  | .shelfDone _ => 6
  | .shelfQuery _ => 7
  | .shelfPending _ => 8
  | .labelClaim _ _ _ _ => 9
  | .labelRefuse _ _ => 10
  | .labelHandover _ => 11
  | .labelAdopted _ _ _ => 12
  | .relay _ => 13
  | .officeReply _ => 15

/-- The position, counted from 1, of a refusal reason among its command's reasons in the table of R209 (12.7). The
command kinds are numbered 1 READ-ENTRY to 12 RESTART. -/
def reasonCode (kind : Nat) (r : Reason) : Nat :=
  match kind, r with
  | 1, .unknownItem => 1
  | 2, .stale => 1
  | 2, .bookFull => 2
  | 2, .badRecord => 3
  | 2, .kindMismatch => 4
  | 3, .noLabelService => 1
  | 3, .unknownItem => 2
  | 3, .notForSale => 3
  | 3, .ownedElsewhere _ => 4
  | 3, .labelMoving => 5
  | 3, .tableFull => 6
  | 4, .noLabelService => 1
  | 4, .notOwned => 2
  | 4, .labelMoving => 3
  | 5, .noSuchLabel => 1
  | 6, .badValue => 1
  | 7, .notReference => 1
  | 7, .badValue => 2
  | 8, .sessionBusy => 1
  | 8, .distress => 2
  | 8, .notRunning => 3
  | 10, .noSuchAlert => 1
  | 11, .badValue => 1
  | _, _ => 0

/-- Any number in the DONE data: 4 bytes (12.7). -/
def n4 (n : Nat) : List Byte := be 4 n

/-- A name in the DONE data: one byte, numbered from 1 (12.7). -/
def n1 (n : Nat) : List Byte := be 1 n

/-- An optional value: a flag, then the value when present (12.7). -/
def optBytes {α : Type} (f : α → List Byte) : Option α → List Byte
  | none => flagBytes false
  | some a => flagBytes true ++ f a

/-- A list: its number of items in one byte, then the items (12.7). -/
def listBytes {α : Type} (f : α → List Byte) (l : List α) : List Byte := be 1 l.length ++ l.flatMap f

def articleBytes (a : Nat) : List Byte := be 6 a

/-- A station number in the DONE data: a number with no encoding in 12.1 (12.7). -/
def stationBytes (n : Station) : List Byte := n4 n.val

/-- Terms as a PRICE lane reply and a SHOW packet carry them: 9 bytes (12.3, 12.9). -/
def termsBytes (t : Terms) : List Byte := be 4 t.price ++ be 1 t.groupSize ++ be 4 t.groupPrice

/-- Terms in the DONE data (12.7): a group size and a group price for every kind, 0 for EACH and WEIGHED (DESIGN CHOICE,
log 64). -/
def doneTermsBytes (t : Terms) : List Byte := n4 t.price ++ n4 t.groupSize ++ n4 t.groupPrice

def changeBytes (c : Change) : List Byte :=
  n4 c.version ++
    (match c.action with
     | .set _ t => n1 1 ++ doneTermsBytes t
     | .withdraw => n1 2)
    ++ timeBytes (some c.effective) ++ n4 c.fileSerial

def queryStatusCode : QueryStatus → Nat
  | .none => 1 | .queried => 2 | .pending => 3

/-- A station of a holdout set with its query status (R1, R20, 12.7). -/
def holdoutBytes (h : Holdout) : List Byte := stationBytes h.station ++ n1 (queryStatusCode h.status)

/-- An entry as READ-ENTRY carries it: the fields of R1 in its order (R210, 12.7). A countdown deadline is sent as a
number after an absent store time, and the fields of a changeover stand only in an entry that is CHANGING (DESIGN CHOICE,
log 11). The holdout set stands in rising order of station number (DESIGN CHOICE, log 77). -/
def entryBytes (article : Nat) (e : Entry) : List Byte :=
  let head := articleBytes article ++ n1 (kindCode e.kind) ++ optBytes doneTermsBytes e.current ++ n4 e.version
  match e.phase with
  | .steady => head ++ n1 1 ++ flagBytes false ++ flagBytes false ++ n4 e.bound
  | .waiting p => head ++ n1 2 ++ optBytes changeBytes (some p) ++ flagBytes false ++ n4 e.bound
  | .changing c =>
    head ++ n1 3 ++ optBytes changeBytes (some c.pending) ++ optBytes changeBytes c.queued
      ++ listBytes holdoutBytes c.holdout
      ++ (match c.deadline with
          | .at t => flagBytes true ++ timeBytes (some t)
          | .countdown n => flagBytes false ++ n4 n)
      ++ n4 c.age ++ n4 e.bound

def targetBytes : Target → List Byte
  | .price a v => n1 1 ++ optBytes articleBytes (some a) ++ n4 v
  | .blank a v => n1 2 ++ optBytes articleBytes (some a) ++ n4 v
  | .unbound => n1 2 ++ flagBytes false ++ n4 0

def labelStateCode : LabelState → Nat
  | .showing => 1 | .updateDue _ => 2 | .sent _ => 3 | .moving _ => 4 | .lost => 5

def hearingBytes (h : Hearing) : List Byte :=
  optBytes levelBytes h.smoothed ++ n4 h.lastCycle ++ stationBytes h.owner ++ optBytes levelBytes h.ownerLevel

def alertKindCode : AlertKind → Nat
  | .labelLost => 1 | .labelBattery => 2 | .changeoverForced => 3 | .bookFull => 4 | .journalHigh => 5
  | .sessionFailed => 6 | .fileBad => 7 | .stationClash => 8 | .peerSilent => 9 | .distressEntered => 10
  | .restarted => 11

def severityCode : Severity → Nat
  | .info => 1 | .warn => 2

/-- The reasons of a failed attempt, numbered in the order of R182's table, with R174's REFUSED after them (DESIGN CHOICE,
log 64). -/
def failReasonCode : FailReason → Nat
  | .noReply => 1 | .pathLost => 2 | .noRoute => 3 | .distress => 4 | .outOfOrder => 5 | .deferred => 6 | .refused => 7

def causeCode : Cause → Nat
  | .powerOn => 1 | .resetLine => 2 | .restart => 3

/-- The details of an alert, in the order its recording rule gives them (R200, 12.7; log 11). Head office's reason code
follows every reason of SESSION-FAILED as an optional number (DESIGN CHOICE, log 64). -/
def detailBytes : Detail → List Byte
  | .nothing => []
  | .cause c => n1 (causeCode c)
  | .lost b v => optBytes articleBytes b ++ n4 v
  | .battery b => n1 (batteryCode b)
  | .forced v d => n4 v ++ listBytes holdoutBytes d
  | .count n => n4 n
  | .failure r c => n1 (failReasonCode r) ++ optBytes n4 c

/-- An alert of this station (R200, 12.7). -/
def alertBytes (self : Station) (a : Alert) : List Byte :=
  n4 a.serial ++ n1 (alertKindCode a.kind) ++ n1 (severityCode a.severity) ++ timeBytes a.time
    ++ (match a.subject with
        | .label n => n4 n
        | .article n => articleBytes n
        | .station n => stationBytes n
        | .self => stationBytes self
        | .file n => n4 n)
    ++ detailBytes a.detail ++ flagBytes a.acked

def sessionStateCode : SessionState → Nat
  | .idle => 1 | .opening => 2 | .uploading => 3 | .downloading => 4 | .closing => 5 | .resting => 6 | .done => 7

def ownerCode : Owner → Nat
  | .none => 1 | .session => 2 | .trunk => 3

def stagePhaseCode : StagePhase → Nat
  | .collecting => 1 | .releasing => 2

def laneStateCode : LaneState → Nat
  | .disabled => 1 | .down => 2 | .up => 3

def peerStateCode : PeerState → Nat
  | .absent => 1 | .alive => 2 | .silent => 3

/-- The uses of an event line, numbered in the order of R198. -/
def lineUseCode : LineUse → Nat
  | .none => 1 | .mainsFail => 2 | .closeKey => 3 | .sessionKey => 4

/-- The active polarities of an event line, numbered in the order of R198: HIGH, LOW. -/
def polarityCode (high : Bool) : Nat := if high then 1 else 2

/-- The states of an event line, numbered in the order of R198: ASSERTED, DEASSERTED. -/
def lineStateCode (asserted : Bool) : Nat := if asserted then 1 else 2

/-- The uplink states, numbered in the order of R145: DOWN, UP. -/
def uplinkStateCode (up : Bool) : Nat := if up then 2 else 1

/-- The activities of a lane, numbered in the order of R26: IDLE, AWAITING. -/
def activityCode (awaiting : Bool) : Nat := if awaiting then 2 else 1

/-- The states of a lane's basket, numbered in the order of R34: NONE, OPEN, TOTALLED. -/
def basketCode (x : LaneFigures) : Nat := if x.basketTotalled then 3 else if x.basketOpen then 2 else 1

def mainsCode : Mains → Nat
  | .clear => 1 | .rising _ => 2 | .qualified => 3 | .falling _ => 4

/-- The fields of a BEACON: 13 bytes (12.2). -/
def beaconBytes (b : Beacon) : List Byte :=
  be 1 (stationKindCode b.kind) ++ be 1 (b.part.elim 0 partCode) ++ be 1 (b.mode.elim 0 modeCode)
    ++ flagBytes b.labelService ++ be 1 b.labelChannel ++ be 4 b.offer ++ be 4 b.heldSerial

/-- The profile's settings in the order of R205 (R210, 12.7), each event line's use beside its polarity as the image has
them (DESIGN CHOICE, log 64). -/
def settingsBytes (c : Settings) : List Byte :=
  stationBytes c.station ++ n4 c.laneCount ++ flagBytes c.labelService ++ n4 c.labelChannel ++ flagBytes c.uplinkPresent
    ++ n4 c.uplinkRate ++ flagBytes c.guestService ++ flagBytes c.guestRelay ++ n4 c.guestRate ++ n4 c.allowance
    ++ flagBytes c.share ++ n4 c.windowStart ++ n4 c.windowLength ++ n4 c.openTime ++ n4 c.lateTime ++ n4 c.closeTime
    ++ n4 c.changeoverLimit ++ n4 c.claimMargin ++ n4 c.cashStep ++ n4 c.highWatermark
    ++ c.lines.toList.flatMap fun l => n1 (lineUseCode l.1) ++ n1 (polarityCode l.2)

/-- A peer's last beacon as READ-COUNTS shows it: the fields of R135 in its order, an office beacon's with 0 for its part
state and mode (12.2, 12.7). -/
def lastBeaconBytes (b : Beacon) : List Byte :=
  be 1 (b.part.elim 0 partCode) ++ be 1 (b.mode.elim 0 modeCode) ++ flagBytes b.labelService ++ n4 b.labelChannel
    ++ n4 b.offer ++ n4 b.heldSerial

/-- An event line record as READ-COUNTS shows it (R199). -/
def eventLineBytes (l : EventLine) : List Byte :=
  n1 (lineUseCode l.use) ++ n1 (polarityCode l.activeHigh) ++ n1 (lineStateCode l.asserted) ++ n4 l.edges

/-- The figures of one READ-COUNTS group, in the order the rules R210 names for the group list them (R210, 12.7; log 11
says what those rules leave open). An UNSET schedule mode is an absent optional value (DESIGN CHOICE, log 64). -/
def figuresBytes : Figures → List Byte
  | .start part settings clamped cause counts =>
    n1 (partCode part) ++ settingsBytes settings ++ n4 clamped ++ n1 (causeCode cause) ++ counts.flatMap n4
  | .trunk counts queues peers part clash =>
    counts.flatMap n4 ++ queues.flatMap n4
      ++ peers.flatMap (fun p => n1 (peerStateCode p.state) ++ optBytes (fun k => n1 (stationKindCode k)) p.kind
          ++ optBytes lastBeaconBytes p.beacon)
      ++ n1 (partCode part) ++ flagBytes clash
  | .priceBook counts => counts.flatMap n4
  | .lanes lanes counts =>
    lanes.flatMap (fun l => n4 l.checkErrors ++ n4 l.oversize ++ n4 l.lateReplies) ++ counts.flatMap n4
      ++ lanes.flatMap fun l => n1 (laneStateCode l.state) ++ n1 (activityCode l.awaiting) ++ n1 (basketCode l)
  | .journal counts records unsent oldest lastIssued high =>
    counts.flatMap n4 ++ n4 records ++ n4 unsent ++ n4 oldest ++ n4 lastIssued ++ flagBytes high
  | .labels counts owned lost updates age cycle length shared heard reference aligned =>
    counts.flatMap n4 ++ n4 owned ++ n4 lost ++ n4 updates ++ n4 age ++ n4 cycle ++ n4 length ++ shared.flatMap n4
      ++ n4 heard ++ optBytes stationBytes reference ++ flagBytes aligned
  | .forwarding counts up offer till office guest relayBack heldParcel holder pendingEntries guests capped =>
    counts.flatMap n4 ++ n1 (uplinkStateCode up) ++ n4 offer ++ n4 till ++ n4 office ++ n4 guest ++ n4 relayBack
      ++ flagBytes heldParcel ++ optBytes stationBytes holder ++ n4 pendingEntries ++ n4 guests ++ n4 capped
  | .session counts state attemptCount windowDay cut window held owner phase serial count present =>
    counts.flatMap n4 ++ n1 (sessionStateCode state) ++ n4 attemptCount ++ optBytes n4 windowDay ++ optBytes n4 cut
      ++ listBytes (fun b => n4 b.serial ++ n4 b.first ++ n4 b.last ++ flagBytes b.lastPart) window
      ++ n4 held ++ n1 (ownerCode owner) ++ n1 (stagePhaseCode phase) ++ n4 serial ++ optBytes n4 count ++ n4 present
  | .mode counts lines mains closeKey override schedule mode clock =>
    lines.flatMap eventLineBytes ++ n1 (mainsCode mains) ++ flagBytes closeKey
      ++ optBytes (fun o => n1 (modeCode o.1) ++ optBytes (fun m => n1 (modeCode m)) o.2) override
      ++ optBytes (fun m => n1 (modeCode m)) schedule ++ n1 (modeCode mode) ++ timeBytes clock ++ counts.flatMap n4

/-- The due time of an UPDATE-DUE label in READ-LABEL's data: whole seconds of part time, held at the largest number of 4
bytes (DESIGN CHOICE, log 54). -/
def dueBytes (due : Nat) : List Byte := n4 (min (due / 1000000) Config.countMax)

/-- The DONE data of a reply (12.7). -/
def officeDataBytes (self : Station) : OfficeData → List Byte
  | .nothing => []
  | .entry a e => entryBytes a e
  | .entryState s => n1 (match s with | .steady => 1 | .waiting => 2 | .changing => 3)
  | .label t st => targetBytes t ++ n1 (labelStateCode st)
  | .ownedLabel a slot pos o =>
    n1 1 ++ be 4 a ++ optBytes articleBytes o.bound ++ n1 (formCode o.display.form)
      ++ optBytes articleBytes o.display.article ++ n4 o.display.version ++ n1 (labelStateCode o.state)
      ++ targetBytes o.target
      ++ optBytes dueBytes (match o.state with | .updateDue d => some d | _ => none)
      ++ optBytes (fun d => n1 (formCode d.form) ++ optBytes articleBytes d.article ++ n4 d.version) o.lastSent
      ++ n4 o.attempts ++ n4 o.power ++ n1 (batteryCode o.battery) ++ optBytes levelBytes o.lastReceived
      ++ hearingBytes o.hearing ++ n4 slot ++ optBytes n4 pos
  | .heardLabel a slot h =>
    n1 2 ++ be 4 a ++ hearingBytes h.hearing ++ optBytes n4 h.claimAge ++ flagBytes h.outstanding ++ n4 slot
  | .mode m => n1 (modeCode m)
  | .time t => timeBytes (some t)
  | .alerts l held overflow => listBytes (alertBytes self) l ++ n4 held ++ n4 overflow
  | .figures f => figuresBytes f

/-- The payload of a trunk frame the part forms (12.2, 12.7). A refusal carries its reason alone, so that the owner station
of R81's OWNED-ELSEWHERE, which the reply's data holds, is not in its bytes (DESIGN CHOICE, log 55). -/
def bodyBytes (self : Station) : FrameBody → List Byte
  | .beacon b => beaconBytes b
  | .cycleMark number length time => be 4 number ++ be 2 length ++ timeBytes time
  | .priceChange serial first records =>
    be 4 serial ++ be 2 first ++ be 1 records.length ++ records.flatMap recordBytes
  | .fileAnnounce serial count check => be 4 serial ++ be 2 count ++ be 4 check
  | .fileClose serial count check => be 4 serial ++ be 2 count ++ be 4 check
  | .shelfDone rs => reportsBytes rs
  | .shelfQuery rs => reportsBytes rs
  | .shelfPending rs => reportsBytes rs
  | .labelClaim label claimant channel level => be 4 label ++ be 1 claimant.val ++ be 1 channel ++ levelBytes level
  | .labelRefuse label level => be 4 label ++ flagBytes level.isSome ++ levelBytes (level.getD 0)
  | .labelHandover r => be 4 r.label ++ be 6 (r.bound.getD 0) ++ displayBytes r.display ++ be 1 (batteryCode r.battery)
  | .labelAdopted label adopter display => be 4 label ++ be 1 adopter.val ++ displayBytes display
  | .relay p => parcelBytes p
  | .officeReply r =>
    be 2 r.tag ++ be 1 r.kind ++
      (match r.outcome with
       | .done d => be 1 0 ++ officeDataBytes self d
       | .refused why => be 1 1 ++ be 1 (reasonCode r.kind why)
       | .badCommand => be 1 2)

/-- A trunk frame on the pair: header, payload and CRC-16 (12.2). -/
def frameBytes (src : Station) (f : Frame) : List Byte :=
  let payload := bodyBytes src f.body
  let head := [BitVec.ofNat 8 (classCode f.body.trunkClass * 64 + src.val * 4)]
    ++ be 1 (f.dest.elim 255 Fin.val) ++ be 1 f.body.code ++ be 2 payload.length
  head ++ payload ++ be 2 (crc16 (head ++ payload))

/-! ### Lane replies, radio packets, guest port (12.3, 12.9, 12.10) -/

/-- The code and data of a lane reply (12.3). -/
def replyBytes : LaneReply → Nat × List Byte
  | .ok id => (1, id.elim [] (be 2))
  | .basketOpen id => (2, be 2 id)
  | .itemOk line amount running => (3, be 2 line ++ be 4 amount ++ be 4 running)
  | .voidOk running => (4, be 4 running)
  | .totalOk total reduction flag => (5, be 4 total ++ be 4 reduction ++ flagBytes flag)
  | .closed serial due => (6, be 4 serial ++ be 4 due)
  | .price p =>
    (7, be 1 (kindCode p.kind) ++ be 1 (match p.state with | .steady => 1 | .waiting => 2 | .changing => 3)
      ++ flagBytes p.changeover ++ flagBytes p.current.isSome ++ p.current.elim [] termsBytes
      ++ p.pending.elim [] termsBytes)
  | .authReply payload => (8, payload)
  | .restarted serial => (9, be 4 serial)
  | .unknownItem => (10, [])
  | .notForSale => (11, [])
  | .badQuantity => (12, [])
  | .overlimit => (13, [])
  | .basketFull => (14, [])
  | .noBasket => (15, [])
  | .noSuchLine => (16, [])
  | .notTotalled => (17, [])
  | .empty => (18, [])
  | .journalFull => (19, [])
  | .noRoute => (20, [])
  | .timeout => (21, [])
  | .busy => (22, [])
  | .wait => (23, [])
  | .halt => (24, [])

/-- A lane reply frame: sequence bit and code, length, data and CRC-16 (12.3). -/
def laneBytes (bit : Bool) (r : LaneReply) : List Byte :=
  let (code, data) := replyBytes r
  let body := [BitVec.ofNat 8 ((if bit then 128 else 0) + code)] ++ be 2 data.length ++ data
  body ++ be 2 (crc16 body)

/-- A packet for the label transceiver (12.9), each number with its most significant byte first (DESIGN CHOICE, log 72). -/
def radioBytes : RadioPacket → List Byte
  | .header channel station cycle slot length =>
    be 1 1 ++ be 1 channel ++ be 1 station.val ++ be 4 cycle ++ be 1 slot ++ be 2 length
  | .show channel label article version kind terms power =>
    be 1 2 ++ be 1 channel ++ be 4 label ++ be 6 article ++ be 4 version ++ be 1 (kindCode kind) ++ termsBytes terms
      ++ be 1 power
  | .blank channel label article version power =>
    be 1 3 ++ be 1 channel ++ be 4 label ++ be 6 (article.getD 0) ++ be 4 version ++ be 1 power
  | .move channel label owner ownerChannel power =>
    be 1 4 ++ be 1 (channel.getD 255) ++ be 4 label ++ be 1 owner.val ++ be 1 ownerChannel ++ be 1 power

def rejectCode : RejectReason → Nat
  | .noService => 1 | .full => 2 | .closed => 3

/-- What an output is as bytes on its port; the acknowledgement slots carry none. A guest address goes most significant
byte first (12.10; DESIGN CHOICE, log 72). A parcel at the uplink port is laid out as a RELAY's payload is (12.10). -/
def outputBytes : Output → List Byte
  | .laneReply _ bit r => laneBytes bit r
  | .trunkFrame src f => frameBytes src f
  | .takenSlot => []
  | .spoiledSlot => []
  | .radio p => radioBytes p
  | .uplink p => parcelBytes p
  | .guestReply guest payload => be 1 2 ++ be 6 guest ++ payload
  | .guestReject guest why => be 1 3 ++ be 6 guest ++ be 1 (rejectCode why)

end Sys2Proof.Machine
end

