-- ==== Sys2Proof/Machine/Operands.lean ====
section
/-! DEFINITION. What the operands of the commands mean to the price book: the checks of a change record (R2), the
entry's views (R21, R22), its visible version and the bind check (R23), and the operand tests of the other blocks. -/

namespace Sys2Proof.Machine

open Sys2Proof

/-! ### Change records (R2, R4) -/

/-- A number in 1..`hi`. -/
def inRange (n hi : Nat) : Bool := decide (1 ≤ n) && decide (n ≤ hi)

/-- The terms of a SET record of the given kind; the group fields count for MULTI only (R2). -/
def recordTerms (k : ArticleKind) (r : ChangeRecord) : Terms :=
  match k with
  | .each => ⟨r.price, 0, 0⟩
  | .weighed => ⟨r.price, 0, 0⟩
  | .multi => ⟨r.price, r.groupSize, r.groupPrice⟩

/-- The terms of a SET record lie within their ranges (R2). -/
def termsInRange (k : ArticleKind) (r : ChangeRecord) : Bool :=
  inRange r.price 9999999 &&
    (match k with
     | .each => true
     | .weighed => true
     | .multi => decide (2 ≤ r.groupSize) && decide (r.groupSize ≤ 9) && inRange r.groupPrice 99999999)

/-- What a record does, when its codes and terms pass R2: SET with its kind and terms, or WITHDRAW. A change code or a
SET record's kind code outside 12.1 fails the check (log 12). -/
def recordAction (r : ChangeRecord) : Option Action :=
  if r.changeCode = 2 then some .withdraw
  else if r.changeCode = 1 then
    match articleKindOf r.kindCode with
    | none => none
    | some k => if termsInRange k r then some (.set k (recordTerms k r)) else none
  else none

/-- The change a record carries when it passes the checks of R2 other than the kind check. -/
def recordChange (r : ChangeRecord) : Option Change :=
  if inRange r.article Config.articleMax && inRange r.version Config.versionMax
      && decide (r.effective.sec < Config.daySeconds) then
    (recordAction r).map fun a => { version := r.version, action := a, effective := r.effective, fileSerial := r.fileSerial }
  else none

/-- The codes of a record are those of 12.1, as far as they are examined: the field test of R131 step 6. -/
def recordCodesOk (r : ChangeRecord) : Bool :=
  r.changeCode == 2 || (r.changeCode == 1 && (articleKindOf r.kindCode).isSome)

/-- The pending change of an entry, if it has one (R1). -/
def Entry.pending (e : Entry) : Option Change :=
  match e.phase with
  | .steady => none
  | .waiting p => some p
  | .changing c => some c.pending

/-- The queued change of an entry, if it has one (R1). -/
def Entry.queued (e : Entry) : Option Change :=
  match e.phase with
  | .steady => none
  | .waiting _ => none
  | .changing c => c.queued

/-- The version of an optional change, 0 when absent (R4). -/
def versionOf (c : Option Change) : Nat := (c.map (·.version)).getD 0

/-- The highest version the entry knows (R4). -/
def Entry.highest (e : Entry) : Nat := max e.version (max (versionOf e.pending) (versionOf e.queued))

/-- The entry is CHANGING with a WITHDRAW pending. -/
def Entry.withdrawing (e : Entry) : Bool :=
  match e.phase with
  | .steady => false
  | .waiting _ => false
  | .changing c => c.pending.action == .withdraw

/-- The kind check of R2: a SET record differs in kind from the entry's current terms, and no WITHDRAW's changeover is
in progress. -/
def Entry.kindClash (e : Entry) (c : Change) : Bool :=
  match c.action with
  | .withdraw => false
  | .set k _ => e.current.isSome && !e.withdrawing && k != e.kind

/-- The name of the entry's state (R1). -/
def Entry.state (e : Entry) : EntryState :=
  match e.phase with
  | .steady => .steady
  | .waiting _ => .waiting
  | .changing _ => .changing

/-! ### Views given to the tills and to the labels (R21 to R23) -/

/-- The terms and version of a SET pending in a CHANGING entry (R21). -/
def Entry.pendingTerms (e : Entry) : Option (Terms × Nat) :=
  match e.phase with
  | .steady => none
  | .waiting _ => none
  | .changing c => match c.pending.action with
    | .withdraw => none
    | .set _ t => some (t, c.pending.version)

/-- The visible version: the current version in STEADY and WAITING, the pending version in CHANGING (R23). -/
def Entry.visible (e : Entry) : Nat :=
  match e.phase with
  | .steady => e.version
  | .waiting _ => e.version
  | .changing c => c.pending.version

/-- The display the entry asks of a label: the BLANK of the article at the pending version while a WITHDRAW is pending
in CHANGING, and the PRICE at the visible version otherwise (R82, R89). -/
def Entry.display (article : Nat) (e : Entry) : Target :=
  if e.withdrawing then .blank article e.visible else .price article e.visible

/-- The price book entry of an article. -/
def State.entry (s : State) (article : Nat) : Option Entry := AMap.get s.book.entries article

/-- The answer of the bind check (R23). -/
inductive BindCheck where
  | unknownItem
  | notForSale
  | visible (e : Entry)
deriving DecidableEq, Repr

/-- The bind check of an article (R23). -/
def State.bindCheck (s : State) (article : Nat) : BindCheck :=
  match s.entry article with
  | none => .unknownItem
  | some e => if e.current.isSome then .visible e else .notForSale

/-- A code within the range of article codes (00 §1.5). -/
def articleOk (a : Nat) : Bool := inRange a Config.articleMax

/-- The terms record a scan takes from an entry's view; absent when the view has no current terms (R21, R35). -/
def termsOf (article : Nat) (e : Entry) : Option TermsRecord :=
  e.current.map fun t =>
    { article := article, kind := e.kind, current := t, version := e.version, pending := e.pendingTerms }

/-- What PRICE carries for an entry (R22). -/
def priceReply (e : Entry) : PriceReply :=
  { kind := e.kind, state := e.state, changeover := e.pendingTerms.isSome, current := e.current,
    pending := e.pendingTerms.map (·.1) }

/-- The quantity lies in the range of the kind and the markdown does not exceed 90 (R37 test 4). -/
def quantityOk (k : ArticleKind) (quantity markdown : Nat) : Bool :=
  (match k with
   | .each => inRange quantity 999
   | .multi => inRange quantity 999
   | .weighed => inRange quantity 99999) && decide (markdown ≤ 90)

/-- An AUTH or AUTH-REPLY payload of 1 to 512 bytes (R28, R48). -/
def authPayloadOk (p : List Byte) : Bool := inRange p.length 512

/-- A report list of 1 to 64 reports (12.2, R131 step 6). Every article code and version that its bytes can hold is taken
(DESIGN CHOICE, log 63). -/
def reportsOk (rs : List Report) : Bool := inRange rs.length 64

/-- A record list of 1 to 32 records whose codes are those of 12.1 (12.2, R131 step 6). -/
def frameRecordsOk (rs : List ChangeRecord) : Bool := inRange rs.length 32 && rs.all recordCodesOk

/-- A received parcel whose class, origin port and guest address agree and whose payload is at most 1,500 bytes (R143). -/
def parcelOk (p : Parcel) : Bool :=
  decide (p.payload.length ≤ 1500) &&
    (match p.cls, p.port with
     | .till, .lane _ => p.guest.isNone
     | .office, .session => p.guest.isNone
     | .guest, .guest => p.guest.isSome
     | _, _ => false)

/-- A radio level clamped to −480..−80 quarter-dB (00 §1.5, R112). -/
def clampLevel (x : Int) : Int := max (-480) (min x (-80))

/-- The smoothed level after a sample: the sample, or S plus (x − S) / 4 truncated toward zero (R112). -/
def smooth (old : Option Int) (x : Int) : Int :=
  match old with
  | none => clampLevel x
  | some s => clampLevel (s + (clampLevel x - s).tdiv 4)

end Sys2Proof.Machine
end

