-- ==== Sys2Proof/Machine/Flags.lean ====
section
/-! DEFINITION. What the part judges from its state: the alert output, the local shelf state, the schedule and the
session window, the event line functions, the uplink offer and the reference station. -/

namespace Sys2Proof.Machine

open Sys2Proof

/-- The station numbers in rising order. -/
def allStations : List Station := [0, 1, 2, 3, 4, 5, 6, 7, 8, 9, 10, 11, 12, 13, 14, 15]

/-- The lane numbers in rising order. -/
def allLanes : List LaneNo := [0, 1, 2, 3, 4, 5, 6, 7, 8, 9, 10, 11, 12, 13, 14, 15]

/-- The alert output: asserted while an unacknowledged WARN alert is held, and in HALTED whatever the list holds
(R203). -/
def State.alertOutput (s : State) : Bool :=
  s.powered && (s.part == .halted || s.alerts.list.any fun a => a.severity == .warn && !a.acked)

/-! ### Local shelf state (R78, R98) -/

/-- The version a label displays of article `a` (R78). -/
def Owned.shows (o : Owned) (a : Nat) : Nat := if o.display.article = some a then o.display.version else 0

/-- The shelf floor of an article over the OWNED entries given (R98). -/
def floorOf (a : Nat) : List (Nat × Owned) → Nat
  | [] => Config.versionMax
  | (_, o) :: m => if o.bound = some a ∧ o.state ≠ .lost then min (o.shows a) (floorOf a m) else floorOf a m

/-- The shelf floor of an article (R98). -/
def State.floor (s : State) (a : Nat) : Nat := floorOf a s.labels.owned

/-- The local shelf state of article `a` for version `v` is done: always while label service is off, with no entry or no
bound label, and else when the floor is at least `v` (R16, R79, R98, R100). -/
def State.shelfDone (s : State) (a v : Nat) : Bool :=
  !s.settings.labelService ||
    (match s.entry a with
     | none => true
     | some e => e.bound == 0 || decide (v ≤ s.floor a))

/-! ### Schedule and session window (R194, R168) -/

/-- Seconds since the time of day `m` (in minutes) was last reached, at second of the day `t` (R194). -/
def sinceTime (m t : Nat) : Nat := if m * 60 ≤ t then t - m * 60 else t + Config.daySeconds - m * 60

/-- The schedule mode at second of the day `t` (R194): the mode named by the time most recently reached; equal times
name OPEN before LATE and LATE before CLOSED. -/
def scheduleMode (c : Settings) (t : Nat) : Mode :=
  let o := sinceTime c.openTime t
  let l := sinceTime c.lateTime t
  let k := sinceTime c.closeTime t
  if o ≤ l ∧ o ≤ k then .open else if l ≤ k then .late else .closed

/-- The window a store time lies in: the day it is named by, and the seconds to its end (R168). -/
def windowAt (c : Settings) (t : StoreTime) : Option (Nat × Nat) :=
  let start := c.windowStart * 60
  let stop := start + c.windowLength * 3600
  if start ≤ t.sec ∧ t.sec < stop then some (t.day, stop - t.sec)
  else if 1 ≤ t.day ∧ t.sec + Config.daySeconds < stop then some (t.day - 1, stop - (t.sec + Config.daySeconds))
  else none

/-- The window the store clock lies in; none while it is UNSET (R168). -/
def State.window (s : State) : Option (Nat × Nat) :=
  match s.unit.clock with
  | none => none
  | some t => windowAt s.settings t

/-- The mode allows a window or early attempt: LATE or CLOSED (R169, R171). -/
def State.quietMode (s : State) : Bool := s.unit.mode == .late || s.unit.mode == .closed

/-- An attempt is in progress (R167). -/
def SessionState.inProgress : SessionState → Bool
  | .idle => false
  | .opening => true
  | .uploading => true
  | .downloading => true
  | .closing => true
  | .resting => false
  | .done => false

/-! ### Event lines (R198) -/

/-- A function is asserted: any line with that use is ASSERTED (R198). -/
def ModeUnit.asserted (u : ModeUnit) (use : LineUse) : Bool := u.lines.toList.any fun l => l.use == use && l.asserted

/-- DISTRESS is decided by the mains-fail qualification (R193, R196). -/
def Mains.failing : Mains → Bool
  | .clear => false
  | .rising _ => false
  | .qualified => true
  | .falling _ => true

/-- The mode the conditions of R193 decide. -/
def decidedMode (u : ModeUnit) : Mode :=
  if u.mains.failing then .distress
  else if u.asserted .closeKey then .closed
  else match u.override with
    | some (m, _) => m
    | none => u.schedule.getD .late

/-! ### Uplink offer, reference, holder candidates -/

/-- The uplink offer: the rate while the uplink is UP and the mode is not DISTRESS, else 0 (R145). -/
def State.uplinkOffer (s : State) : Nat := if s.fwd.up && s.unit.mode != .distress then s.settings.uplinkRate else 0

/-- A peer is a controller station whose last beacon showed label service on (R10, R103, R135). -/
def Peer.labelController (p : Peer) : Bool := p.kind == some .controller && p.labelService

/-- The reference station as R103 judges it: the lowest-numbered candidate. -/
def State.judgedReference (s : State) : Option Station :=
  allStations.find? fun n =>
    if n = s.self then s.settings.labelService && s.canSend
    else (s.peer n).state == .alive && (s.peer n).labelController

/-- This station is its own reference, or has none (R191). -/
def State.mayTakeTime (s : State) : Bool := s.labels.reference == none || s.labels.reference == some s.self

/-- The offer a station's last beacon showed (R150). -/
def Peer.offer (p : Peer) : Nat := (p.beacon.map (·.offer)).getD 0

/-- A holder candidate: ALIVE, a controller, with a non-zero offer (R150). -/
def Peer.canHold (p : Peer) : Bool := p.state == .alive && p.kind == some .controller && p.offer != 0

/-- The best of the candidates among `l`: the highest offer, the first among equal offers (R150). -/
def bestHolder (s : State) : List Station → Option Station → Option Station
  | [], best => best
  | n :: l, best =>
    if n ≠ s.self ∧ (s.peer n).canHold ∧ (best.all fun b => decide ((s.peer b).offer < (s.peer n).offer)) then
      bestHolder s l (some n)
    else bestHolder s l best

/-- The holder as R150 judges it. -/
def State.judgedHolder (s : State) : Option Station :=
  if s.fwd.up || !s.canSend then none
  else match s.fwd.holder with
    | some h => if (s.peer h).state == .alive && (s.peer h).offer != 0 then some h else bestHolder s allStations none
    | none => bestHolder s allStations none

/-- The cycle length of a trading mode, in seconds (05 §5.5). -/
def cycleLength : Mode → Nat
  | .open => 16
  | .late => 16
  | .closed => 64
  | .distress => 256

/-- The length of a slot of a cycle of `n` seconds (R87). -/
def slotLength (n : Nat) : Nat := Config.seconds n / 128

/-- The cycle length taken at a cycle start (R87). -/
def State.nextLength (s : State) : Nat :=
  let peerReference := s.labels.reference.any fun n => n != s.self
  match s.labels.markLength with
  | some n => if peerReference then n else cycleLength s.unit.mode
  | none => cycleLength s.unit.mode

/-- Turns may be filled and slot headers are sent (R88, R107). -/
def State.mayFill (s : State) : Bool := s.settings.labelService && s.labels.aligned && s.working

end Sys2Proof.Machine
end

