-- ==== Sys2Proof/Machine/LabelTable.lean ====
section
/-! DEFINITION. The label table as the other blocks reach it: target changes (R84), marks (R85), the unbinds of a
withdrawal (R86), the update list (R80), and the bound-label counts (R23). -/

namespace Sys2Proof.Machine

open Sys2Proof

/-! ### Bound-label counts (R23) -/

/-- The state with the book's entry of article `a` changed by `f`, if there is one. -/
def State.modifyEntry (s : State) (a : Nat) (f : Entry → Entry) : State :=
  s.withBook fun b => { b with entries := AMap.modify b.entries a f }

/-- A label counts for article `a` (R23). -/
def State.countBound (s : State) (a : Nat) : State :=
  s.modifyEntry a fun e => { e with bound := min (e.bound + 1) Config.labelCapacity }

/-- A label no longer counts for article `a` (R23). -/
def State.uncountBound (s : State) (a : Nat) : State := s.modifyEntry a fun e => { e with bound := e.bound - 1 }

/-- A label no longer counts for the article it was bound to, if any (R23). -/
def State.uncountOpt (s : State) : Option Nat → State
  | none => s
  | some a => s.uncountBound a

/-! ### Entries -/

/-- The OWNED entry of a label. -/
def State.owned (s : State) (label : Nat) : Option Owned := AMap.get s.labels.owned label

/-- The HEARD entry of a label. -/
def State.heard (s : State) (label : Nat) : Option Heard := AMap.get s.labels.heard label

/-- The state with the OWNED entry of a label put in. -/
def State.putOwned (s : State) (label : Nat) (o : Owned) : State :=
  s.withLabels fun l => { l with owned := AMap.put l.owned label o }

/-- The state with the HEARD entry of a label put in. -/
def State.putHeard (s : State) (label : Nat) (h : Heard) : State :=
  s.withLabels fun l => { l with heard := AMap.put l.heard label h }

/-- A label is UPDATE-DUE when it is not current, and SHOWING when it is (R84, R91, R102, R110). -/
def Owned.settled (o : Owned) (now : Nat) : Owned :=
  { o with state := if o.current then .showing else .updateDue now }

/-! ### The update list (R80) -/

/-- `a` stands before `b` in the update list: by due time, then by label address (R80). -/
def dueBefore (a b : Nat × Nat) : Bool := decide (a.1 < b.1) || (decide (a.1 = b.1) && decide (a.2 ≤ b.2))

/-- Put an item into a list in update-list order. -/
def insertDue (x : Nat × Nat) : List (Nat × Nat) → List (Nat × Nat)
  | [] => [x]
  | y :: l => if dueBefore x y then x :: y :: l else y :: insertDue x l

/-- The update list, as pairs of due time and label address: the UPDATE-DUE labels in order (R80). -/
def updateList : List (Nat × Owned) → List (Nat × Nat)
  | [] => []
  | (k, o) :: m =>
    match o.state with
    | .updateDue d => insertDue (d, k) (updateList m)
    | .showing => updateList m
    | .sent _ => updateList m
    | .moving _ => updateList m
    | .lost => updateList m

/-- The update list of the station (R80). -/
def State.updates (s : State) : List (Nat × Nat) := updateList s.labels.owned

/-! ### Target changes (R84) -/

/-- Refuse a claim (R115, R116): a LABEL-REFUSE to the claimant with the level given, dropped when not taken. -/
def State.refuseClaim (s : State) (label : Nat) (claimant : Station) (level : Option Int) : State :=
  s.send (Frame.new (some claimant) (.labelRefuse label level) .label)

/-- A label's target changes to `t`, not by BIND or UNBIND: the table of R84. A move not in the air whose label is not
current for the new target is given up, and the claim answered as a failed move (R84, R116). -/
def State.retarget (s : State) (label : Nat) (t : Target) : State :=
  match s.owned label with
  | none => s
  | some o =>
    let o1 := { o with target := t }
    match o.state with
    | .showing => s.putOwned label (o1.settled s.now)
    | .updateDue _ => s.putOwned label o1
    | .sent _ => s.putOwned label o1
    | .lost => s.putOwned label o1
    | .moving m =>
      if m.inAir || o1.current then s.putOwned label o1
      else (s.putOwned label { o1 with state := .updateDue s.now }).refuseClaim label m.claimant o.hearing.smoothed

/-- The addresses of the OWNED labels bound to an article, in the order in which a mark or a completed withdrawal takes them:
by address (DESIGN CHOICE, log 68). -/
def State.boundLabels (s : State) (a : Nat) : List Nat :=
  (s.labels.owned.filter fun e => e.2.bound == some a).map (·.1)

/-- A mark for an article: every OWNED label bound to it takes the target (R85). -/
def State.mark (s : State) (a : Nat) (t : Target) : State :=
  (s.boundLabels a).foldl (fun s label => s.retarget label t) s

/-- One unbind of a completed withdrawal: the bound article becomes absent, the target the unbound BLANK, and the price
book unit is told (R86). -/
def State.unbindOne (s : State) (a label : Nat) : State :=
  match s.owned label with
  | none => s
  | some o => ((s.putOwned label { o with bound := none }).retarget label .unbound).uncountBound a

/-- The unbinds of a completed withdrawal (R86). The floor report that R99 hands over after them finds the entry no
longer CHANGING with this station held out, and changes nothing there (R12), so it is not repeated here. -/
def State.unbindAll (s : State) (a : Nat) : State :=
  (s.boundLabels a).foldl (fun s label => s.unbindOne a label) s

end Sys2Proof.Machine
end

