-- ==== Sys2Proof/Machine/Forwarding.lean ====
section
/-! DEFINITION. The forwarding unit (08): the outcome of a card authorisation at its lane (R47, R48), the uplink queues
and transmitter, the pending table, relays, the relay-back list and the guests. -/

namespace Sys2Proof.Machine

open Sys2Proof

/-! ### Authorisation outcomes at the lane (R47, R48) -/

/-- The AUTH in flight on a lane ends with a reply: it is sent and saved, and the lane goes to IDLE (R47). -/
def State.endAuth (s : State) (l : LaneNo) (f : AuthFlight) (r : LaneReply) : State :=
  (s.withLane l fun x => { x with flight := none, last := some (f.bit, .auth, r) }).emit (.laneReply l f.bit r)

/-- An authorisation outcome is discarded as late (R48). -/
def State.lateReply (s : State) (l : LaneNo) : State :=
  s.withLane l fun x => { x with lateReplies := raise x.lateReplies 1 }

/-- A reply that a lane reply can carry (R48). -/
def LaneReply.carries : LaneReply → Bool
  | .authReply p => authPayloadOk p
  | _ => true

/-- An authorisation outcome is delivered to a lane for the tag of AUTH count `n` (R47, R48). -/
def State.authOutcome (s : State) (l : LaneNo) (n : Nat) (r : LaneReply) : State :=
  match (s.lane l).flight with
  | none => s.lateReply l
  | some f => if f.count = n ∧ r.carries then s.endAuth l f r else s.lateReply l

/-! ### Pending table (R155) -/

/-- The entry of lane `l` leaves the pending table (R155). -/
def State.dropPending (s : State) (l : LaneNo) : State :=
  s.withFwd fun w => { w with pendingTable := AMap.del w.pendingTable l.val }

/-- An outcome for a tag that has no entry is discarded, and counted both as a reply without an entry (R155) and as a late
reply of its lane (R48, 2.6; DEDUCED, log 60). -/
def State.outcomeWithoutEntry (s : State) (l : LaneNo) : State := (s.bump .repliesNoEntry).lateReply l

/-- An outcome for a tag reaches the pending table (R155): it goes to the lane and its entry is removed, or, for a tag with
no entry, it is discarded. A reply that no lane reply can carry leaves the AUTH in flight, and its entry too, so that a
later outcome can end it (R48; DEDUCED, log 59). -/
def State.pendingOutcome (s : State) (l : LaneNo) (n : Nat) (r : LaneReply) : State :=
  match AMap.get s.fwd.pendingTable l.val with
  | none => s.outcomeWithoutEntry l
  | some e =>
    if e.count = n then (if r.carries then s.dropPending l else s).authOutcome l n r
    else s.outcomeWithoutEntry l

/-- The reply a returning TILL parcel gives its lane (R155). -/
def laneReplyOf (p : Parcel) : LaneReply :=
  match p.status with
  | .data => .authReply p.payload
  | .noRoute => .noRoute
  | .busy => .busy

/-- A TILL parcel of this station's lane in the TILL queue or in sending, of the given tag. -/
def isTill (self : Station) (l : LaneNo) (n : Nat) (p : Parcel) : Bool :=
  p.cls == .till && p.origin == self && p.port == .lane l && p.tag == n

/-- A withdrawal of a tag (R155): its entry is removed, and its parcel too while it is in the TILL queue. -/
def State.withdrawAuth (s : State) (l : LaneNo) (n : Nat) : State :=
  match AMap.get s.fwd.pendingTable l.val with
  | none => s
  | some e =>
    if e.count = n then
      s.withFwd fun w =>
        { w with
          pendingTable := AMap.del w.pendingTable l.val
          till := match e.path with
            | .local _ => w.till.filter fun p => !isTill s.self l n p
            | .relay _ => w.till }
    else s

/-! ### Uplink queues and transmitter (R146, R147) -/

/-- The byte count of a queue of parcels (R146). -/
def bytesOf (q : List Parcel) : Nat := (q.map (·.payload.length)).sum

/-- One of the three uplink queues (R146). -/
def Forwarding.queue (w : Forwarding) : ParcelClass → List Parcel
  | .till => w.till
  | .office => w.office
  | .guest => w.guest

/-- The forwarding unit with one uplink queue replaced. -/
def Forwarding.setQueue (w : Forwarding) (c : ParcelClass) (q : List Parcel) : Forwarding :=
  match c with
  | .till => { w with till := q }
  | .office => { w with office := q }
  | .guest => { w with guest := q }

/-- A parcel fits its queue (R146). -/
def Forwarding.fits (w : Forwarding) (p : Parcel) : Bool :=
  decide (bytesOf (w.queue p.cls) + p.payload.length ≤ Config.uplinkCapacity p.cls)

/-- The OFFICE queue is eligible (R147). -/
def officeEligible : Mode → Bool
  | .open => true
  | .late => true
  | .closed => true
  | .distress => false

/-- The GUEST queue is eligible, and guests are admitted (R147, R159). -/
def guestEligible : Mode → Bool
  | .open => true
  | .late => true
  | .closed => false
  | .distress => false

/-- OFFICE and GUEST shares of a mode in which both may be eligible (R147). -/
def shares : Mode → Nat × Nat
  | .open => (10, 90)
  | .late => (50, 50)
  | .closed => (100, 0)
  | .distress => (0, 0)

/-- Microseconds a parcel occupies the uplink: its bytes × 8 / R milliseconds, rounded down (R147, log 1). -/
def sendTime (bytes rate : Nat) : Nat := bytes * 8000 / rate

/-- The choice of the transmitter: the parcel, and the queues and tallies after it (R147). -/
def Forwarding.choose (w : Forwarding) (m : Mode) : Option (Parcel × Forwarding) :=
  match w.till with
  | p :: q => some (p, { w with till := q })
  | [] =>
    match (if officeEligible m then w.office else []), (if guestEligible m then w.guest else []) with
    | [], [] => none
    | p :: q, [] => some (p, { w with office := q, officeTally := p.payload.length, guestTally := 0 })
    | [], p :: q => some (p, { w with guest := q, officeTally := 0, guestTally := p.payload.length })
    | po :: qo, pg :: qg =>
      if w.officeTally * (shares m).2 ≤ w.guestTally * (shares m).1 then
        some (po, { w with office := qo, officeTally := w.officeTally + po.payload.length })
      else some (pg, { w with guest := qg, guestTally := w.guestTally + pg.payload.length })

/-- An IDLE transmitter of an uplink that is UP chooses a parcel, if it can (R147). -/
def State.transmit (s : State) : State :=
  if s.fwd.up && s.fwd.sending.isNone then
    match s.fwd.choose s.unit.mode with
    | none => s
    | some (p, w) =>
      { s with fwd := { w with sending := some (p, s.now + sendTime p.payload.length s.settings.uplinkRate) } }
  else s

/-- A parcel joins the tail of its uplink queue, and an IDLE transmitter chooses (R146, R147). -/
def State.joinUplink (s : State) (p : Parcel) : State :=
  (s.withFwd fun w => w.setQueue p.cls (w.queue p.cls ++ [p])).transmit

/-- A parcel relayed in has joined the OFFICE queue: it stands behind a session parcel held by then (R156). -/
def Forwarding.countRelayed (w : Forwarding) : Forwarding :=
  { w with heldParcel := w.heldParcel.map fun h => { h with relayedSince := h.relayedSince + 1 } }

/-- The held session parcel joins the OFFICE queue, ahead of the parcels relayed in since it was held (R156; DEDUCED,
log 73). Parcels leave the queue from its front, so those relayed in since are its last ones. -/
def Forwarding.admitHeld (w : Forwarding) (h : HeldParcel) : Forwarding :=
  let ahead := w.office.length - h.relayedSince
  { w with office := w.office.take ahead ++ h.parcel :: w.office.drop ahead, heldParcel := none }

/-! ### Relays (R140, R152 to R154) -/

/-- A RELAY frame carrying a parcel to a station (R140). -/
def relayFrame (dest : Station) (p : Parcel) (why : Purpose) : Frame := Frame.new (some dest) (.relay p) why

/-- A frame of the forwarding unit waits for the BULK queue, so a further OFFICE reply is kept (R124, R154). -/
def State.relayWaits (s : State) : Bool :=
  s.trunk.holdBulk.any (fun f => f.sender == .forwarding)
    || s.trunk.kept.any fun f => f.sender == .forwarding && f.body.trunkClass == .bulk

/-- Hand over the relay-back list from its front until one waits (R154). -/
def drainRelayBack : List Parcel → State → State
  | [], s => s.withFwd fun w => { w with relayBack := [] }
  | p :: q, s =>
    if s.relayWaits then s.withFwd fun w => { w with relayBack := p :: q }
    else if (s.peer p.origin).state ≠ .alive then drainRelayBack q (s.bump .undeliverable)
    else
      let (ans, s1) := s.offer (relayFrame p.origin p .relayBack)
      drainRelayBack q (if ans = .notTaken then s1.bump .undeliverable else s1)

/-- Carry a parcel back to another station in a RELAY frame (R153, R154). -/
def State.sendBack (s : State) (p : Parcel) : State :=
  if (s.peer p.origin).state ≠ .alive || s.part == .listenOnly then s.bump .undeliverable
  else if p.cls = .office ∧ (s.relayWaits ∨ s.fwd.relayBack ≠ []) then
    if bytesOf s.fwd.relayBack + p.payload.length ≤ Config.relayBackCapacity then
      s.withFwd fun w => { w with relayBack := w.relayBack ++ [p] }
    else s.bump .undeliverable
  else
    let (ans, s1) := s.offer (relayFrame p.origin p .relayBack)
    if ans = .notTaken then s1.bump .undeliverable else s1

/-- The failure report for a parcel (R143). -/
def failureReport (p : Parcel) (st : ParcelStatus) : Parcel := { p with status := st, payload := [] }

/-- A TILL parcel is reported back: to its lane by way of the pending table, or to its origin station (R148, R152). A report
for an origin that is not ALIVE is discarded as undeliverable, under R152 too, which states no condition (DESIGN CHOICE,
log 79). -/
def State.reportTill (s : State) (p : Parcel) (st : ParcelStatus) : State :=
  if p.origin = s.self then
    match p.port with
    | .lane l => s.pendingOutcome l p.tag (laneReplyOf (failureReport p st))
    | .session => s
    | .guest => s
  else s.sendBack (failureReport p st)

/-- The count of parcels relayed in, by class (R165). -/
def relayedInCount : ParcelClass → Count
  | .till => .relayedInTill
  | .office => .relayedInOffice
  | .guest => .relayedInGuest

/-- A parcel offered to the GUEST queue: dropped by mode, dropped for a full queue, or queued (R146). -/
def State.offerGuest (s : State) (p : Parcel) : Bool × State :=
  if !guestEligible s.unit.mode then (false, s.bump .droppedByMode)
  else if s.fwd.fits p then (true, s.joinUplink p)
  else (false, s.bump .guestQueueFull)

/-- A parcel travelling out is taken as a holder (R152). An OFFICE parcel that fits joins its queue while a session parcel
is held too (DEDUCED, log 73). -/
def State.carryOut (s : State) (p : Parcel) : State :=
  if !s.fwd.up then
    match p.cls with
    | .till => s.reportTill p .noRoute
    | .office => s.bump .undeliverable
    | .guest => s.bump .undeliverable
  else
    match p.cls with
    | .till => if s.fwd.fits p then (s.bump .relayedInTill).joinUplink p else s.reportTill p .busy
    | .office =>
      if s.fwd.fits p then ((s.bump .relayedInOffice).withFwd Forwarding.countRelayed).joinUplink p
      else s.bump .undeliverable
    | .guest =>
      if !s.settings.guestRelay then s.bump .guestRelayRefused
      else
        let (ok, s1) := s.offerGuest p
        if ok then s1.bump .relayedInGuest else s1

/-- The trunk controller reports the outcome SENT of a RELAY frame (R154). -/
def State.relaySent (s : State) (out : Bool) : State := s.bump (if out then .relayedOut else .relayedBack)

/-- The trunk controller reports DROPPED or NOT-TAKEN for a RELAY frame (R154). For a TILL parcel of this station's lanes
whose tag has no entry any more nothing is answered, and neither the count of replies without an entry (R155) nor the lane's
late reply count (R48) rises (DESIGN CHOICE, log 82). -/
def State.relayLost (s : State) (out : Bool) (p : Parcel) : State :=
  if out && p.cls == .till then
    match p.port with
    | .lane l =>
      match AMap.get s.fwd.pendingTable l.val with
      | none => s
      | some e => if e.count = p.tag then s.pendingOutcome l p.tag .noRoute else s
    | .session => s
    | .guest => s
  else s.bump .undeliverable

/-! ### Card authorisations handed over (R151) -/

/-- The answer to a hand-off (R46). -/
inductive AuthAnswer where
  | accepted | busy | noRoute
deriving DecidableEq, Repr

/-- The state with an entry for a tag in the pending table (R155). -/
def State.addPending (s : State) (l : LaneNo) (n : Nat) (path : AuthPath) : State :=
  s.withFwd fun w => { w with pendingTable := AMap.put w.pendingTable l.val ⟨n, path⟩ }

/-- Route a TILL parcel handed over by a lane (R151). -/
def State.routeAuth (s : State) (l : LaneNo) (n : Nat) (payload : List Byte) : AuthAnswer × State :=
  let p : Parcel :=
    { cls := .till, origin := s.self, port := .lane l, tag := n, guest := none, status := .data, payload := payload }
  if s.fwd.up then
    if s.fwd.fits p then (.accepted, (s.addPending l n (.local false)).joinUplink p)
    else (.busy, s.bump .tillBusy)
  else match s.fwd.holder with
    | none => (.noRoute, s.bump .tillNoRoute)
    | some h =>
      let (ans, s1) := s.offer (relayFrame h p .relayOut)
      if ans = .queued then (.accepted, s1.addPending l n (.relay h)) else (.busy, s1.bump .tillBusy)

/-! ### Session parcels (R156) -/

/-- The answer to a session parcel (R156). -/
inductive SessionAnswer where
  | queued | waiting | noRoute
deriving DecidableEq, Repr

/-- The session's parcel with the given tag and payload (R143, 09 §9.1). -/
def sessionParcel (self : Station) (tag : Nat) (payload : List Byte) : Parcel :=
  { cls := .office, origin := self, port := .session, tag := tag, guest := none, status := .data, payload := payload }

/-- Route one session parcel (R156). Where the trunk answers NOT-TAKEN, the session is answered QUEUED and the parcel is
undeliverable (DESIGN CHOICE, log 56). -/
def State.handSession (s : State) (payload : List Byte) : SessionAnswer × State :=
  let p := sessionParcel s.self s.link.attemptTag payload
  if s.fwd.up then
    let s1 := s.withFwd fun w => { w with sessionPath := some .local }
    if s.fwd.fits p then (.queued, s1.joinUplink p)
    else (.waiting, s1.withFwd fun w => { w with heldParcel := some ⟨p, 0⟩ })
  else match s.fwd.holder with
    | none => (.noRoute, s)
    | some h =>
      let (ans, s1) := (s.withFwd fun w => { w with sessionPath := some (.holder h) }).offer (relayFrame h p .relayOut)
      match ans with
      | .queued => (.queued, s1)
      | .waiting => (.waiting, s1)
      | .notTaken => (.queued, s1.relayLost true p)

/-- The session has failed or ended: its parcels leave the OFFICE queue and a held one is discarded (R149). -/
def State.removeSessionParcels (s : State) : State :=
  s.withFwd fun w =>
    { w with office := w.office.filter fun p => !(p.origin == s.self && p.port == .session), heldParcel := none }

/-! ### Uplink loss (R148) -/

/-- The TILL parcels bound for the uplink are answered or reported back, in order (R148). -/
def State.loseTill (s : State) (ps : List Parcel) : State :=
  ps.foldl (fun s p => (s.bump .lostAtUplinkLoss).reportTill p .noRoute) s

/-- The uplink goes DOWN: everything bound for it is answered, reported back or dropped (R148). The parcel being sent is
handled as one in its queue. Of the TILL parcels it is taken first, and then the queue from front to back (DESIGN CHOICE,
log 80). -/
def State.uplinkLost (s : State) : State :=
  let air := match s.fwd.sending with
    | none => []
    | some (p, _) => [p]
  let tills := (air.filter fun p => p.cls == .till) ++ s.fwd.till
  let others := (air.filter fun p => p.cls != .till) ++ s.fwd.guest ++ s.fwd.office
  let s1 := s.withFwd fun w =>
    { w with up := false, till := [], office := [], guest := [], sending := none, officeTally := 0, guestTally := 0,
             heldParcel := none }
  (s1.bumpBy .lostAtUplinkLoss others.length).loseTill tills

/-! ### Guests (R157 to R164) -/

/-- The guest of an address in the guest list. -/
def findGuest (a : Nat) (gs : List Guest) : Option Guest := gs.find? fun g => g.address == a

/-- Change the guest of an address. -/
def changeGuest (a : Nat) (f : Guest → Guest) (gs : List Guest) : List Guest :=
  gs.map fun g => if g.address = a then f g else g

/-- The refill rate of a guest, in kbit/s, which is bytes each 8 ms (R160). -/
def refillRate (c : Settings) (m : Mode) (g : Guest) : Nat :=
  if g.capped then 128
  else match m with
    | .late => c.guestRate / 2
    | .open => c.guestRate
    | .closed => c.guestRate
    | .distress => c.guestRate

/-- One refill of a bucket (R160). -/
def refill (c : Settings) (m : Mode) (g : Guest) : Guest :=
  { g with level := min (g.level + refillRate c m g) Config.bucketFull }

/-- A frame of `n` bytes passes the bucket: the level falls, bytes today rise, and the guest may become CAPPED (R160,
R161). -/
def Guest.pass (g : Guest) (allowance n : Nat) : Guest :=
  let today := raise g.bytesToday n
  { g with level := g.level - n, bytesToday := today,
           capped := g.capped || (decide (allowance ≠ 0) && decide (allowance < today)) }

/-- The guest with the oldest last-seen time among those idle for more than 10 min (R159); of several with one time the guest
admitted first (DESIGN CHOICE, log 70). -/
def idleGuest (now : Nat) : List Guest → Option Guest
  | [] => none
  | g :: gs =>
    match idleGuest now gs with
    | none => if g.lastSeen + Config.minutes 10 < now then some g else none
    | some h => if g.lastSeen ≤ h.lastSeen then some g else some h

/-- An admitted guest's entry (R159). -/
def Guest.admitted (a now : Nat) : Guest :=
  { address := a, capped := false, bytesToday := 0, level := Config.bucketFull, lastSeen := now }

/-- REJECT a guest's frame (R158, R159). -/
def State.reject (s : State) (a : Nat) (why : RejectReason) : State :=
  (s.bump .rejections).emit (.guestReject a why)

/-- Admission of an unknown guest (R159): whether it is admitted, and the state after. -/
def State.admitGuest (s : State) (a : Nat) : Bool × State :=
  if !guestEligible s.unit.mode then (false, s.reject a .closed)
  else if s.fwd.guests.length < Config.guestCapacity then
    (true, s.withFwd fun w => { w with guests := w.guests ++ [Guest.admitted a s.now] })
  else match idleGuest s.now s.fwd.guests with
    | none => (false, s.reject a .full)
    | some g =>
      (true, (s.withFwd fun w =>
        { w with guests := (w.guests.filter fun x => x.address != g.address) ++ [Guest.admitted a s.now] }).bump .evictions)

/-- The bucket test of `n` bytes for a listed guest (R160): whether they pass, and the state after. -/
def State.bucketTest (s : State) (g : Guest) (n : Nat) : Bool × State :=
  if n ≤ g.level then
    (true, s.withFwd fun w => { w with guests := changeGuest g.address (fun x => x.pass s.settings.allowance n) w.guests })
  else (false, s.bump .budgetDrops)

/-- Route a guest parcel (R162). -/
def State.routeGuest (s : State) (a : Nat) (payload : List Byte) : State :=
  let p : Parcel :=
    { cls := .guest, origin := s.self, port := .guest, tag := 0, guest := some a, status := .data, payload := payload }
  if s.fwd.up then (s.offerGuest p).2
  else match s.settings.guestRelay, s.fwd.holder with
    | true, some h =>
      let (ans, s1) := s.offer (relayFrame h p .relayOut)
      if ans = .notTaken then s1.relayLost true p else s1
    | _, _ => s.bump .guestNoRoute

/-- A guest reply reaches this station as its origin (R163). -/
def State.guestReply (s : State) (p : Parcel) : State :=
  match p.guest with
  | none => s
  | some a =>
    match findGuest a s.fwd.guests with
    | none => s.bump .unknownGuestReplies
    | some g =>
      let (ok, s1) := s.bucketTest g p.payload.length
      if ok then s1.emit (.guestReply a p.payload) else s1

/-- A guest frame that has been found well formed and bound for the uplink: admission, bucket and routing (R158 tests 4
and 5, R162). -/
def State.guestFrame (s : State) (a : Nat) (payload : List Byte) : State :=
  let (ok, s1) := match findGuest a s.fwd.guests with
    | some _ => (true, s)
    | none => s.admitGuest a
  if !ok then s1
  else
    let s2 := s1.withFwd fun w => { w with guests := changeGuest a (fun g => { g with lastSeen := s1.now }) w.guests }
    match findGuest a s2.fwd.guests with
    | none => s2
    | some g =>
      let (pass, s3) := s2.bucketTest g payload.length
      if pass then s3.routeGuest a payload else s3

/-- A store-day rollover (R161). -/
def State.guestRollover (s : State) : State :=
  s.withFwd fun w => { w with guests := w.guests.map fun g => { g with bytesToday := 0, capped := false } }

/-- The forwarding unit is told of a change of trading mode to `m` (R149, R164). -/
def State.fwdModeChanged (s : State) (m : Mode) : State :=
  let abandon := m == .distress && (match s.fwd.sending with
    | none => false
    | some (p, _) => p.cls != .till)
  let close := !guestEligible m
  let s1 := if abandon then (s.withFwd fun w => { w with sending := none }).bump .droppedByMode else s
  let s2 := if close then
      ((s1.bumpBy .droppedByMode s1.fwd.guest.length).bumpBy .guestsRemovedByMode s1.fwd.guests.length).withFwd fun w =>
        { w with guest := [], guests := [] }
    else s1
  (s2.withFwd fun w => { w with officeTally := 0, guestTally := 0 }).transmit

/-! ### Commands of the guest port -/

/-- GUEST_FRAME_RECEIVED: the tests of R158 in order. -/
def execGuestFrameReceived (a : Nat) (dest : GuestDest) (payload : List Byte) (s : State) :
    Host.Outcome State Fault Refusal :=
  .next <|
    if s.live && s.serving then
      if !s.settings.guestService then s.reject a .noService
      else if payload.length = 0 ∨ 1500 < payload.length then s.bump .malformedParcels
      else if dest ≠ .uplink then s.bump .isolationDrops
      else s.guestFrame a payload
    else s

/-- GUEST_REFILL_TIMER (R160). -/
def execGuestRefillTimer (s : State) : Host.Outcome State Fault Refusal :=
  .next <|
    if s.live then
      (s.reach s.fwd.timer).withFwd fun w =>
        { w with timer := w.timer + Config.millis 8, guests := w.guests.map (refill s.settings s.unit.mode) }
    else s

end Sys2Proof.Machine
end

