-- ==== Sys2Proof/Machine/Journal.lean ====
section
/-! DEFINITION. The journal unit (04): appending, batches, removal after acknowledgement, and the clearing of sent
marks. -/

namespace Sys2Proof.Machine

open Sys2Proof

/-- The last issued serial (R67). -/
def Journal.lastIssued (j : Journal) : Nat :=
  match j.counter with
  | .next n => n - 1
  | .exhausted => Config.countMax

/-- The counter after an append (R67). -/
def nextCounter (n : Nat) : SerialCounter := if n < Config.countMax then .next (n + 1) else .exhausted

/-- The journal is full: 16,384 records are held, or the serial counter is EXHAUSTED (R68). -/
def Journal.full (j : Journal) : Bool :=
  decide (j.records.length ≥ Config.journalCapacity) || j.counter == .exhausted

/-- The records unsent (R70). -/
def Journal.unsent (j : Journal) : Nat := (j.records.filter fun r => !r.sent).length

/-- The newest serial of the journal summary (R70). -/
def Journal.newestSerial (j : Journal) : Nat :=
  match j.records.getLast? with
  | some r => r.serial
  | none => j.lastIssued

/-- Append a closed-basket record (R68, R69): the serial it was given and whether the watermark was crossed, or nothing
for FULL. -/
def State.append (s : State) (r : JournalRecord) : Option (Nat × Bool) × State :=
  match s.journal.counter with
  | .exhausted => (none, s.bump .appendsRefused)
  | .next n =>
    if s.journal.records.length ≥ Config.journalCapacity then (none, s.bump .appendsRefused)
    else
      let count := s.journal.records.length + 1
      let crossed := decide (count = s.settings.highWatermark)
      let s1 := (s.withJournal fun j =>
        { j with records := j.records ++ [{ r with serial := n, sent := false }], counter := nextCounter n,
                 high := crossed || j.high }).bump .appendsTaken
      (some (n, crossed), if crossed then s1.recordAlert .journalHigh .warn .self (.count count) else s1)

/-- The answers to a batch request (R71). -/
inductive BatchAnswer where
  | windowFull
  | noneLeft
  | batch (records : List JournalRecord)
deriving DecidableEq, Repr

/-- The oldest unsent records at or below the cut serial, up to 32 (R71). -/
def Journal.nextBatch (j : Journal) (cut : Nat) : List JournalRecord :=
  (j.records.filter fun r => !r.sent && decide (r.serial ≤ cut)).take Config.batchSize

/-- The first and last serial and the number of records of a batch (R71). -/
def batchMark (rs : List JournalRecord) : BatchMark :=
  { first := (rs.head?.map (·.serial)).getD 0, last := (rs.getLast?.map (·.serial)).getD 0, count := rs.length }

/-- Take a batch (R71). With 2 batches outstanding and no record left to take the answer is NONE-LEFT, as the worked example
of 9.8 gives it (DEDUCED, log 51). -/
def State.takeBatch (s : State) (cut : Nat) : BatchAnswer × State :=
  let rs := s.journal.nextBatch cut
  if rs.isEmpty then (.noneLeft, s)
  else if s.journal.outstanding.length ≥ 2 then (.windowFull, s)
  else
    let m := batchMark rs
    (.batch rs, s.withJournal fun j =>
      { j with
        records := j.records.map fun r => if m.first ≤ r.serial ∧ r.serial ≤ m.last then { r with sent := true } else r
        outstanding := j.outstanding ++ [m] })

/-- A batch is reported acknowledged (R72): its records are removed from the oldest end when it is the oldest
outstanding one. -/
def State.acknowledge (s : State) (first last : Nat) : State :=
  match s.journal.outstanding with
  | [] => s.bump .mismatches
  | m :: rest =>
    if m.first = first ∧ m.last = last then
      let kept := s.journal.records.dropWhile fun r => decide (r.serial ≤ last)
      (s.withJournal fun j =>
        { j with records := kept, outstanding := rest,
                 high := j.high && decide (s.settings.highWatermark ≤ kept.length) }).bumpBy
        .recordsRemoved (s.journal.records.length - kept.length)
    else s.bump .mismatches

/-- A session attempt has failed: every sent mark is cleared and the outstanding batch list emptied (R73). -/
def State.clearSent (s : State) : State :=
  let any := s.journal.records.any (·.sent)
  let s1 := s.withJournal fun j =>
    { j with records := j.records.map fun r => { r with sent := false }, outstanding := [] }
  if any then s1.bump .clearings else s1

/-- The journal takes its high flag when the profile has been loaded; true when it set it (R76). -/
def State.journalLoaded (s : State) : Bool × State :=
  let n := s.journal.records.length
  let high := decide (s.settings.highWatermark ≤ n)
  let s1 := s.withJournal fun j => { j with high := high }
  (high, if high then s1.recordAlert .journalHigh .warn .self (.count n) else s1)

end Sys2Proof.Machine
end

