-- ==== Sys2Proof/Machine/PriceBook.lean ====
section
/-! DEFINITION. The price book unit (01): applying change records, the second-timer examination, changeovers, shelf
reports and queries, and completion. -/

namespace Sys2Proof.Machine

open Sys2Proof

/-! ### Completion (R18, R19) -/

/-- The state with an entry put into the book. -/
def State.putEntry (s : State) (a : Nat) (e : Entry) : State :=
  s.withBook fun b => { b with entries := AMap.put b.entries a e }

/-- An entry is removed from the book, and the book-full noted flag is cleared (R5, R19). -/
def State.removeEntry (s : State) (a : Nat) : State :=
  s.withBook fun b => { b with entries := AMap.del b.entries a, fullNoted := false }

/-- The changeover of a SET completes: the pending terms become current, and a queued change goes to WAITING (R18). -/
def Entry.completeSet (e : Entry) (k : ArticleKind) (t : Terms) (c : Changeover) : Entry :=
  { e with
    kind := k, current := some t, version := c.pending.version
    phase := match c.queued with
      | none => .steady
      | some q => .waiting q }

/-- The changeover `c` of an article's entry completes (R18, R19). After a withdrawal with a queued SET the version is the
withdrawal's, as R19 says, though R1 calls the version 0 while the current terms are absent (DESIGN CHOICE, log 47). -/
def State.complete (s : State) (a : Nat) (c : Changeover) : State :=
  match c.pending.action with
  | .set k t => s.modifyEntry a fun e => e.completeSet k t c
  | .withdraw =>
    let s1 := s.unbindAll a
    match c.queued with
    | none => s1.removeEntry a
    | some q =>
      match q.action with
      | .set k _ =>
        s1.modifyEntry a fun e =>
          { e with kind := k, current := none, version := c.pending.version, phase := .waiting q }
      | .withdraw => (s1.removeEntry a).bump .recordsStale

/-- The holdout set without a station. -/
def dropStation (n : Station) (l : List Holdout) : List Holdout := l.filter fun h => h.station != n

/-- The holdout set holds a station. -/
def holdsOut (n : Station) (l : List Holdout) : Bool := l.any fun h => h.station == n

/-- Set the query status of a station in a holdout set. -/
def setStatus (n : Station) (q : QueryStatus) (l : List Holdout) : List Holdout :=
  l.map fun h => if h.station = n then { h with status := q } else h

/-- Station `n` leaves the holdout set of a CHANGING entry, which completes when its set becomes empty (R14, R18). -/
def State.release (s : State) (a : Nat) (c : Changeover) (n : Station) : State :=
  let c1 := { c with holdout := dropStation n c.holdout }
  let s1 := s.modifyEntry a fun e => { e with phase := .changing c1 }
  if c1.holdout.isEmpty then s1.complete a c1 else s1

/-! ### Own shelf reports (R12, R13, R99) -/

/-- Add a report to the report list: it replaces the article's report, and a full list drops its oldest (R12).
The report that replaces one keeps its place in the list, and is taken whichever version is the higher (DESIGN CHOICE,
log 48). -/
def State.addReport (s : State) (r : Report) : State :=
  if s.book.reports.any fun x => x.article == r.article then
    s.withBook fun b => { b with reports := b.reports.map fun x => if x.article = r.article then r else x }
  else if s.book.reports.length < Config.reportCapacity then
    s.withBook fun b => { b with reports := b.reports ++ [r] }
  else (s.withBook fun b => { b with reports := b.reports.drop 1 ++ [r] }).bump .reportsDropped

/-- Form a SHELF-DONE frame from the report list when none is outstanding (R13). -/
def State.formReports (s : State) : State :=
  if s.book.reports.isEmpty || s.book.outstanding then s
  else
    let f := Frame.new none (.shelfDone (s.book.reports.take Config.reportCapacity)) .reports
    let (ans, s1) := s.offer f
    s1.withBook fun b =>
      { b with reports := b.reports.drop Config.reportCapacity, outstanding := ans == .queued }

/-- The local shelf state of article `a` is done for version `v` (R12). -/
def State.localDone (s : State) (a v : Nat) : State :=
  match s.entry a with
  | none => s
  | some e =>
    match e.phase with
    | .steady => s
    | .waiting _ => s
    | .changing c =>
      if c.pending.version ≤ v ∧ holdsOut s.self c.holdout then
        ((s.addReport ⟨a, c.pending.version⟩).release a c s.self).formReports
      else s

/-- A floor report: the shelf floor of an article is re-derived and handed to the price book unit (R99). None is handed
over while label service is off (R79). -/
def State.floorReport (s : State) (a : Nat) : State :=
  if s.settings.labelService then s.localDone a (s.floor a) else s

/-- A floor report for the article a label was bound to, if any (R99). -/
def State.floorReportOpt (s : State) : Option Nat → State
  | none => s
  | some a => s.floorReport a

/-! ### Applying change records (R2 to R8) -/

/-- What becomes of a change record (R3). -/
inductive Applied where
  | applied | stale | bookFull | badRecord | kindMismatch
deriving DecidableEq, Repr

/-- A new entry made by a SET record (R5). -/
def Entry.announced (k : ArticleKind) (c : Change) : Entry :=
  { kind := k, current := none, version := 0, phase := .waiting c, bound := 0 }

/-- A record that is not stale reaches an entry (R6, R7). -/
def Entry.take (e : Entry) (c : Change) : Entry :=
  match e.phase with
  | .changing ch => { e with phase := .changing { ch with queued := some c } }
  | .steady => { e with phase := .waiting c }
  | .waiting _ =>
    match c.action with
    | .set k _ => { e with phase := .waiting c, kind := if e.current.isNone then k else e.kind }
    | .withdraw => { e with phase := .waiting c }

/-- Apply one change record to the book (R2 to R7). -/
def State.applyRecord (s : State) (r : ChangeRecord) : Applied × State :=
  match recordChange r with
  | none => (.badRecord, s.bump .badRecords)
  | some c =>
    match s.entry r.article with
    | some e =>
      if e.kindClash c then (.kindMismatch, s.bump .badRecords)
      else if c.version ≤ e.highest then (.stale, s.bump .recordsStale)
      else (.applied, (s.putEntry r.article (e.take c)).bump .recordsApplied)
    | none =>
      match c.action with
      | .withdraw => (.stale, s.bump .recordsStale)
      | .set k _ =>
        if s.book.entries.length < Config.bookCapacity then
          (.applied, (s.putEntry r.article (Entry.announced k c)).bump .recordsApplied)
        else
          let s1 := s.bump .fullBookRefused
          if s1.book.fullNoted then (.bookFull, s1)
          else
            (.bookFull,
              (s1.recordAlert .bookFull .warn (.article r.article) .nothing).withBook fun b => { b with fullNoted := true })

/-- Apply records one after another, without an answer (R3). -/
def State.applyRecords (s : State) (rs : List ChangeRecord) : State := rs.foldl (fun s r => (s.applyRecord r).2) s

/-! ### Effective times and the start of a changeover (R9 to R11) -/

/-- The holdout set formed at the start of a changeover (R10), in rising order of station number (DESIGN CHOICE, log 77). -/
def State.newHoldout (s : State) : List Holdout :=
  (allStations.filter fun n =>
    if n = s.self then s.settings.labelService
    else (s.peer n).state != .absent && (s.peer n).labelController).map fun n => ⟨n, .none⟩

/-- The deadline of a changeover that starts now (R11). -/
def State.newDeadline (s : State) : Deadline :=
  let limit := s.settings.changeoverLimit * 3600
  match s.unit.clock with
  | some t => .at (timePlus t limit)
  | none => .countdown limit

/-- A WAITING entry with current terms goes to CHANGING (R10). The pending change keeps its effective time as announced, also
where it was at once or in the past: the store time of the expiry that R11 takes in its stead makes the deadline alone
(DESIGN CHOICE, log 74). -/
def State.startChangeover (s : State) (a : Nat) (e : Entry) (p : Change) : State :=
  let c : Changeover :=
    { pending := p, queued := none, holdout := s.newHoldout, deadline := s.newDeadline, age := 0 }
  let s1 := s.putEntry a { e with phase := .changing c }
  let s2 := s1.mark a (match p.action with | .set _ _ => .price a p.version | .withdraw => .blank a p.version)
  if c.holdout.isEmpty then s2.complete a c
  else if holdsOut s.self c.holdout && s2.shelfDone a p.version then s2.localDone a p.version
  else s2

/-- A WAITING entry whose time has come (R10). -/
def State.effectiveTimeReached (s : State) (a : Nat) (e : Entry) (p : Change) : State :=
  if e.current.isSome then s.startChangeover a e p
  else match p.action with
    | .set k t => s.putEntry a { e with kind := k, current := some t, version := p.version, phase := .steady }
    | .withdraw => s.removeEntry a

/-- A CHANGING entry at an expiry: its countdown is lowered and turned into a store time once the clock is set, and its
age rises (R11). -/
def Changeover.tick (c : Changeover) (clock : Option StoreTime) : Changeover :=
  { c with
    age := min (c.age + 1) 86400
    deadline := match c.deadline with
      | .at t => .at t
      | .countdown n => match clock with
        | none => .countdown (n - 1)
        | some t => .at (timePlus t (n - 1)) }

/-- The examination of one entry at a second-timer expiry (R9 to R11). -/
def State.examine (s : State) (a : Nat) : State :=
  match s.entry a with
  | none => s
  | some e =>
    match e.phase with
    | .steady => s
    | .waiting p => if isAtOnce p.effective || s.hasCome p.effective then s.effectiveTimeReached a e p else s
    | .changing c => s.putEntry a { e with phase := .changing (c.tick s.unit.clock) }

/-- The deadline of a changeover is reached (R11). -/
def State.deadlineReached (s : State) (c : Changeover) : Bool :=
  match c.deadline with
  | .at t => s.hasCome t
  | .countdown n => n == 0

/-! ### Shelf queries (R15 to R17) -/

/-- Entries due a query to station `n`: CHANGING for 60 s or more and holding it out, as triples of age, article code
and pending version. -/
def queryable (n : Station) : List (Nat × Entry) → List (Nat × Nat × Nat)
  | [] => []
  | (a, e) :: m =>
    match e.phase with
    | .steady => queryable n m
    | .waiting _ => queryable n m
    | .changing c =>
      if 60 ≤ c.age ∧ holdsOut n c.holdout then (c.age, a, c.pending.version) :: queryable n m else queryable n m

/-- Greatest age first, then lowest article code (R15). -/
def insertQuery (x : Nat × Nat × Nat) : List (Nat × Nat × Nat) → List (Nat × Nat × Nat)
  | [] => [x]
  | y :: l => if y.1 < x.1 ∨ (y.1 = x.1 ∧ x.2.1 < y.2.1) then x :: y :: l else y :: insertQuery x l

/-- Set the query status of station `n` in the entry of an article (R15, R17). -/
def State.setQueryStatus (s : State) (n : Station) (q : QueryStatus) (a : Nat) : State :=
  s.modifyEntry a fun e =>
    match e.phase with
    | .steady => e
    | .waiting _ => e
    | .changing c => { e with phase := .changing { c with holdout := setStatus n q c.holdout } }

/-- The shelf query to station `n`, when it is due one (R15). Its time is recorded as it is formed and handed over, also when
it waits or is kept behind a held frame (DEDUCED, log 23). -/
def State.queryStation (s : State) (n : Station) : State :=
  let p := s.peer n
  let due := (AMap.get s.book.queryTimes n.val).all fun t => decide (t + Config.seconds 60 ≤ s.now)
  let qs := ((queryable n s.book.entries).foldl (fun l x => insertQuery x l) []).take Config.reportCapacity
  if n ≠ s.self ∧ p.state = .alive ∧ p.kind = some .controller ∧ due ∧ qs ≠ [] then
    let s1 := s.send (Frame.new (some n) (.shelfQuery (qs.map fun q => ⟨q.2.1, q.2.2⟩)) .shelfQuestion)
    (qs.foldl (fun s q => s.setQueryStatus n .queried q.2.1) s1).withBook fun b =>
      { b with queryTimes := AMap.put b.queryTimes n.val s.now }
  else s

/-- One report of a received SHELF-DONE (R14). -/
def State.takeDone (s : State) (n : Station) (r : Report) : State :=
  match s.entry r.article with
  | none => s
  | some e =>
    match e.phase with
    | .steady => s
    | .waiting _ => s
    | .changing c =>
      if c.pending.version ≤ r.version ∧ holdsOut n c.holdout then s.release r.article c n else s

/-- Answer a SHELF-QUERY from the shelves as they stand (R16). The SHELF-DONE is handed over before the SHELF-PENDING, and
the reports of each stand in the order in which the query has them (both are DESIGN CHOICE, log 50). -/
def State.answerQuery (s : State) (n : Station) (rs : List Report) : State :=
  let yes := rs.filter fun r => s.shelfDone r.article r.version
  let no := rs.filter fun r => !s.shelfDone r.article r.version
  let s1 := if yes.isEmpty then s else s.send (Frame.new none (.shelfDone yes) .shelfAnswer)
  if no.isEmpty then s1 else s1.send (Frame.new (some n) (.shelfPending no) .shelfQuestion)

/-- One report of a received SHELF-PENDING (R17). -/
def State.takePending (s : State) (n : Station) (r : Report) : State :=
  match s.entry r.article with
  | none => s
  | some e =>
    match e.phase with
    | .steady => s
    | .waiting _ => s
    | .changing c => if c.pending.version = r.version then s.setQueryStatus n .pending r.article else s

/-! ### End of the listening period (R25) -/

/-- The local shelf state is obtained for one CHANGING entry that holds this station out (R25). -/
def State.listeningCheck (s : State) (a : Nat) : State :=
  match s.entry a with
  | none => s
  | some e =>
    match e.phase with
    | .steady => s
    | .waiting _ => s
    | .changing c =>
      if holdsOut s.self c.holdout && s.shelfDone a c.pending.version then s.localDone a c.pending.version else s

/-- The price book unit takes the end of the listening period (R25). The CHANGING entries are taken in rising article code
(DESIGN CHOICE, log 62). -/
def State.listeningShelfCheck (s : State) : State :=
  (s.book.entries.map (·.1)).foldl (fun s a => s.listeningCheck a) s

/-! ### The commands -/

/-- SECOND_TIMER_EXPIRY (R9 to R11, R15): while the examination is not held, every entry is examined, in rising order of
article code (DESIGN CHOICE, log 62), and the stations due a query are queried, in rising order of station number (DESIGN
CHOICE, log 49). A deadline that is reached is acted on
by CHANGEOVER_DEADLINE (log 13). -/
def execSecondTimerExpiry (s : State) : Host.Outcome State Fault Refusal :=
  .next <|
    if s.live then
      let s1 := (s.reach s.book.timer).withBook fun b => { b with timer := b.timer + Config.seconds 1 }
      if s1.working then
        let s2 := (s1.book.entries.map (·.1)).foldl (fun s a => s.examine a) s1
        allStations.foldl (fun s n => s.queryStation n) s2
      else s1
    else s

/-- CHANGEOVER_DEADLINE (R11, R20): the deadline of an article's changeover is reached; the stations still held out are
dropped and the entry completes. -/
def execChangeoverDeadline (a : Nat) (s : State) : Host.Outcome State Fault Refusal :=
  .next <|
    if s.live && s.working then
      match s.entry a with
      | none => s
      | some e =>
        match e.phase with
        | .steady => s
        | .waiting _ => s
        | .changing c =>
          if s.deadlineReached c then
            let c1 := { c with holdout := [] }
            let s1 := (s.modifyEntry a fun e => { e with phase := .changing c1 }).complete a c1
            (s1.bump .forcedChangeovers).recordAlert .changeoverForced .warn (.article a)
              (.forced c.pending.version c.holdout)
          else s
    else s

end Sys2Proof.Machine
end

