-- ==== Sys2Proof/Machine/Session.lean ====
section
/-! DEFINITION. The office link controller (09): attempts, the hand-over of messages, the upload and the download
decision, the failure of an attempt, the staging list, its release and its share. -/

namespace Sys2Proof.Machine

open Sys2Proof

/-! ### The end and the failure of an attempt (R181 to R183) -/

/-- The fields that are present only during an attempt are cleared, and no message is left to hand over (R167). -/
def Link.attemptOver (l : Link) : Link :=
  { l with replyTimer := none, window := [], toSend := [], waiting := false, kind := none, cut := none, newest := none }

/-- The session becomes DONE after its messages, and the attempt is counted completed (R181). -/
def State.attemptDone (s : State) : State :=
  (s.withLink fun l => { l.attemptOver with state := .done }).bump .attemptsCompleted

/-- The staging list is discarded when the session owns it in COLLECTING (R182). -/
def State.discardCollecting (s : State) : State :=
  if s.staging.owner = .session ∧ s.staging.phase = .collecting then s.withStaging fun _ => Staging.empty else s

/-- The steps of R182 for an attempt that has failed. -/
def State.stopAttempt (s : State) : State :=
  ((s.withLink Link.attemptOver).clearSent.removeSessionParcels.discardCollecting).bump .attemptsFailed

/-- Another window attempt can follow: the store time lies inside the window, the attempt count is below 3 and the
window's end lies more than 10 min ahead (R183). -/
def State.mayRest (s : State) : Bool :=
  match s.window with
  | none => false
  | some (_, left) => decide (s.link.attemptCount < 3) && decide (600 < left)

/-- The session becomes DONE with a SESSION-FAILED alert (R174, R183). -/
def State.sessionFailed (s : State) (r : FailReason) (code : Option Nat) : State :=
  (s.withLink fun l => { l with state := .done, restTimer := none }).recordAlert .sessionFailed .warn .self
    (.failure r code)

/-- After a failure the session becomes RESTING or DONE (R183). -/
def State.restOrDone (s : State) (r : FailReason) : State :=
  let s1 := s.withLink fun l => { l with lastFailure := some r }
  if s1.mayRest then
    s1.withLink fun l => { l with state := .resting, restTimer := some (s.now + Config.minutes 10) }
  else s1.sessionFailed r none

/-- An attempt fails for a reason of R182. -/
def State.failAttempt (s : State) (r : FailReason) : State := s.stopAttempt.restOrDone r

/-- An event of R182 reaches the office link controller: it fails an attempt in OPENING, UPLOADING or DOWNLOADING, ends
one in CLOSING without an alert (R181), and changes nothing when no attempt is in progress. The events that end one in CLOSING
take in the expiry of a reply timer that a message QUEUED there has started (DESIGN CHOICE, log 75). -/
def State.sessionEvent (s : State) (r : FailReason) : State :=
  match s.link.state with
  | .opening => s.failAttempt r
  | .uploading => s.failAttempt r
  | .downloading => s.failAttempt r
  | .closing => s.removeSessionParcels.attemptDone
  | .idle => s
  | .resting => s
  | .done => s

/-! ### Batches and messages (R172, R175 to R178) -/

/-- Cut a run of bytes into the parts of a batch: 1,495 bytes each but the last (R175). `fuel` bounds the number of
parts. -/
def cutParts (serial part : Nat) : Nat → List Byte → List OutMessage
  | 0, _ => []
  | fuel + 1, run =>
    if run.length ≤ 1495 then [.batchPart serial part true run]
    else .batchPart serial part false (run.take 1495) :: cutParts serial (part + 1) fuel (run.drop 1495)

/-- The BATCH-PART messages of a batch (R175). -/
def batchParts (serial : Nat) (rs : List JournalRecord) : List OutMessage :=
  let run := rs.flatMap journalBytes
  cutParts serial 1 (run.length + 1) run

/-- A batch joins the batch window, and its parts stand to be handed over (R175). -/
def State.joinBatch (s : State) (rs : List JournalRecord) : State :=
  let m := batchMark rs
  s.withLink fun l =>
    { l with batchSerial := l.batchSerial + 1
             window := l.window ++ [{ serial := l.batchSerial + 1, first := m.first, last := m.last, lastPart := false }]
             toSend := batchParts (l.batchSerial + 1) rs }

/-- The messages not yet QUEUED while the first of them is WAITING: all of them stay, in front of those formed later (R172,
R180, R181). Where none waits, none is left. -/
def Link.inHand (l : Link) : List OutMessage := if l.waiting then l.toSend else []

/-- The session becomes CLOSING with a file outcome; the messages in hand and those given go first, and SESSION-END last
(R181). -/
def State.closing (s : State) (before : List OutMessage) (o : FileOutcome) : State :=
  s.withLink fun l =>
    { l with state := .closing, outcome := o, replyTimer := none
             toSend := l.inHand ++ before ++ [.sessionEnd l.acked o] }

/-- A peer's copy of file `n` is under way: the staging list is owned by TRUNK, or by SESSION in RELEASING, or the
announce memory holds the serial and was set within the last 10 min (R177). -/
def State.copyUnderWay (s : State) (n : Nat) : Bool :=
  s.staging.owner == .trunk || (s.staging.owner == .session && s.staging.phase == .releasing)
    || (match s.link.announce with
        | none => false
        | some (serial, t) => serial == n && decide (s.now ≤ t + Config.minutes 10))

/-- The download decision at the end of the upload (R175, R177). -/
def State.downloadDecision (s : State) : State :=
  let n := s.link.newest.getD 0
  if n ≤ s.link.held then s.closing [] .none
  else
    let s1 := s.withLink fun l => { l with state := .downloading, replyTimer := none }
    if s.copyUnderWay n then s1.withLink fun l => { l with toSend := [.skipFile n] }
    else
      (s1.withStaging fun _ => { Staging.empty with owner := .session, serial := n }).withLink fun l =>
        { l with toSend := [.fileWanted n] }

/-- A message that asks for an answer: the reply timer is started when it is QUEUED (R172). -/
def OutMessage.asks : OutMessage → Bool
  | .opening _ _ _ => true
  | .batchPart _ _ last _ => last
  | .fileWanted _ => true
  | .skipFile _ => false
  | .fileTaken _ => false
  | .fileBad _ _ second => !second
  | .fileRefused _ _ => false
  | .sessionEnd _ _ => false

/-- Mark the batch of the given serial as having its last part handed over (R175). -/
def markLast (serial : Nat) (w : List WindowBatch) : List WindowBatch :=
  w.map fun b => if b.serial = serial then { b with lastPart := true } else b

/-- The forwarding unit has answered QUEUED for the message at the front of those to hand over (R172, R175, R177, R180,
R181). A file is counted as skipped as its SKIP-FILE is QUEUED (DEDUCED, log 32). A FILE-WANTED or first FILE-BAD that is
QUEUED when the session awaits nothing any more, being CLOSING or having its second FILE-BAD still to hand over, starts the
reply timer all the same (DESIGN CHOICE, log 75). -/
def State.onQueued (s : State) (m : OutMessage) : State :=
  let s1 := s.withLink fun l =>
    { l with toSend := l.toSend.drop 1, waiting := false
             replyTimer := if m.asks then some (s.now + Config.seconds 30) else l.replyTimer }
  match m with
  | .opening _ _ _ => s1
  | .batchPart serial _ last _ => if last then s1.withLink fun l => { l with window := markLast serial l.window } else s1
  | .fileWanted _ => s1
  | .skipFile _ => (s1.closing [] .skipped).bump .filesSkipped
  | .fileTaken _ => s1
  | .fileBad _ _ second => if second then s1.closing [] .bad else s1
  | .fileRefused _ _ => s1
  | .sessionEnd _ _ => s1.attemptDone

/-- Hand over the messages that stand to be handed over, one at a time, each after the one before has been QUEUED, and
ask the journal unit for the next batch when none is left in UPLOADING (R172, R175). `fuel` bounds the number of
hand-overs and requests. -/
def pump : Nat → State → State
  | 0, s => s
  | fuel + 1, s =>
    if !s.link.state.inProgress || s.link.waiting then s
    else match s.link.toSend with
      | m :: _ =>
        let (ans, s1) := s.handSession (messageBytes m)
        match ans with
        | .queued => pump fuel (s1.onQueued m)
        | .waiting => s1.withLink fun l => { l with waiting := true }
        | .noRoute => s1.sessionEvent .noRoute
      | [] =>
        if s.link.state = .uploading then
          let (ans, s1) := s.takeBatch (s.link.cut.getD 0)
          match ans with
          | .windowFull => s1
          | .noneLeft => if s1.link.window.isEmpty then pump fuel s1.downloadDecision else s1
          | .batch rs => pump fuel (s1.joinBatch rs)
        else s

/-- Enough fuel for `pump`: every message in hand, every part of two batches, and the few messages and requests that
can follow. -/
def State.pumpFuel (s : State) : Nat :=
  s.link.toSend.length + (s.journal.records.map fun r => 32 + 25 * r.lines.length).sum + 16

/-- The session goes on handing over its messages. -/
def State.pumpSession (s : State) : State := pump s.pumpFuel s

/-- The session's WAITING message has been QUEUED (R156, R172). -/
def State.toldQueued (s : State) : State :=
  if s.link.state.inProgress && s.link.waiting then
    match s.link.toSend with
    | m :: _ => (s.onQueued m).pumpSession
    | [] => s
  else s

/-- A held session parcel joins the OFFICE queue when it fits, and an IDLE transmitter chooses (R146, R147, R149, R156). -/
def State.serveHeld (s : State) : State :=
  match s.fwd.heldParcel with
  | none => s
  | some h =>
    if s.fwd.up && s.fwd.fits h.parcel && s.unit.mode != .distress then
      (s.withFwd fun w => w.admitHeld h).transmit.toldQueued
    else s

/-! ### The start of an attempt (R169 to R172) -/

/-- The attempt tag after the next start (R172). -/
def nextTag (t : Nat) : Nat := if t < 65535 then t + 1 else 1

/-- The count of attempts started of a kind (R189). -/
def startedCount : AttemptKind → Count
  | .window => .startedWindow
  | .key => .startedKey
  | .early => .startedEarly

/-- The session record at the start of an attempt at part time `now`, with the journal summary's newest serial and
unsent count (R169, R171, R172). -/
def Link.opened (l : Link) (self : Station) (now newest unsent : Nat) (k : AttemptKind) : Link :=
  { l with
    state := .opening, kind := some k, attemptTag := nextTag l.attemptTag, batchSerial := 0, window := []
    resendUsed := false, newest := none, cut := some newest, replyTimer := none, restTimer := none
    toSend := [.opening self l.held unsent], waiting := false, acked := 0, outcome := .none
    attemptCount := if k = .window then l.attemptCount + 1 else l.attemptCount
    lastEarly := if k = .early then some now else l.lastEarly }

/-- An attempt starts (R172). -/
def State.startAttempt (s : State) (k : AttemptKind) : State :=
  ((s.withLink fun l => l.opened s.self s.now s.journal.newestSerial s.journal.unsent k).bump (startedCount k)).pumpSession

/-- A window attempt starts when all the conditions of R169 hold. -/
def State.testWindowStart (s : State) : State :=
  let ready := s.link.state == .idle || (s.link.state == .resting && s.link.restTimer.isNone)
  if ready && s.window.isSome && s.quietMode && decide (s.link.attemptCount < 3) then s.startAttempt .window else s

/-- Why a KEY attempt may not start, if it may not (R170). Where two of the refusals hold the part state goes first, then
the mode (DESIGN CHOICE, log 66). -/
def State.keyRefusal (s : State) : Option Reason :=
  if !s.working then some .notRunning
  else if s.unit.mode = .distress then some .distress
  else if s.link.state.inProgress then some .sessionBusy
  else none

/-- A SESSION-KEY edge (R170, R199). -/
def State.keyEdge (s : State) : State :=
  match s.keyRefusal with
  | none => s.startAttempt .key
  | some _ => s.bump .startsIgnored

/-- A crossing of the high watermark taken in RUNNING or LISTEN-ONLY (R171). -/
def State.earlyStart (s : State) : State :=
  if s.quietMode && !s.link.state.inProgress
      && s.link.lastEarly.all (fun t => decide (t + Config.minutes 60 ≤ s.now)) then s.startAttempt .early
  else s.bump .startsIgnored

/-- The journal unit reports a crossing of its high watermark (R171). -/
def State.watermarkCrossed (s : State) : State :=
  match s.part with
  | .starting => s.withLink fun l => { l with earlyPending := true }
  | .listening => s.withLink fun l => { l with earlyPending := true }
  | .running => s.earlyStart
  | .listenOnly => s.earlyStart
  | .halted => s

/-- The office link controller takes the end of the listening period (R171). -/
def State.takeEarlyNotice (s : State) : State :=
  if s.link.earlyPending then (s.withLink fun l => { l with earlyPending := false }).watermarkCrossed else s

/-! ### Holder (R150) -/

/-- The forwarding unit judges its holder; the session is told when its last parcel went to a holder that is cleared or
changed (R150, R156). -/
def State.judgeHolder (s : State) : State :=
  let h := s.judgedHolder
  if h = s.fwd.holder then s
  else
    let s1 := (s.withFwd fun w => { w with holder := h }).bump .holderChanges
    match s.fwd.holder with
    | none => s1
    | some old => if s.fwd.sessionPath = some (.holder old) then s1.sessionEvent .pathLost else s1

/-! ### The staging list, its release and its share (R184 to R188) -/

/-- The file check: every index from 0 to count − 1 holds a record, and the CRC-32 over the records in index order equals
the check (R184). -/
def Staging.passes (g : Staging) : Bool :=
  match g.count, g.check with
  | some c, some k => (g.records.map (·.1)) == List.range c && crc32 (g.records.flatMap fun e => recordBytes e.2) == k
  | _, _ => false

/-- Store one record of a file frame by its index, or count it foreign: `at_` is the frame's first index plus its place
(R179). -/
def State.storeRecord (s : State) (at_ : Nat) (r : ChangeRecord) : State :=
  if r.index = at_ ∧ r.index < s.staging.count.getD 0 ∧ r.fileSerial = s.staging.serial then
    s.withStaging fun g => { g with records := AMap.put g.records r.index r }
  else s.bump .foreignRecords

/-- Store the records of a file frame (R179, R186). -/
def storeRecords : Nat → List ChangeRecord → State → State
  | _, [], s => s
  | at_, r :: rs, s => storeRecords (at_ + 1) rs (s.storeRecord at_ r)

/-- The release has been reported complete and the share, if any, handed over in full: the list has no owner (R187). -/
def State.freeStaging (s : State) : State :=
  if s.staging.released && s.staging.share.isNone then s.withStaging fun _ => Staging.empty else s

/-- PRICE-CHANGE frames of a share of `c` records (R188). -/
def shareFrames (c : Nat) : Nat := (c + 31) / 32

/-- Frame number `p` of the share (R188). -/
def Staging.shareFrame (g : Staging) (p : Nat) : FrameBody :=
  let c := g.count.getD 0
  if p = 0 then .fileAnnounce g.serial c (g.check.getD 0)
  else if p ≤ shareFrames c then
    .priceChange g.serial ((p - 1) * 32) (((g.records.map (·.2)).drop ((p - 1) * 32)).take 32)
  else .fileClose g.serial c (g.check.getD 0)

/-- Hand over the frames of the share from the next one on, each after the one before has been QUEUED; a frame not taken
is lost and the share goes on (R188). `fuel` bounds the number of frames. -/
def shareFrom : Nat → State → State
  | 0, s => s
  | fuel + 1, s =>
    match s.staging.share with
    | none => s
    | some p =>
      if shareFrames (s.staging.count.getD 0) + 2 ≤ p then
        (s.withStaging fun g => { g with share := none }).freeStaging
      else
        let (ans, s1) := s.offer (Frame.new none (s.staging.shareFrame p) .share)
        match ans with
        | .queued => shareFrom fuel (s1.withStaging fun g => { g with share := some (p + 1) })
        | .waiting => s1
        | .notTaken =>
          shareFrom fuel ((s1.bump .shareFramesLost).withStaging fun g => { g with share := some (p + 1) })

/-- The share goes on from its position. -/
def State.shareOn (s : State) : State := shareFrom (shareFrames (s.staging.count.getD 0) + 3) s

/-- The share's waiting frame has left its place: the share goes on with the next (R188). -/
def State.shareNext (s : State) : State :=
  match s.staging.share with
  | none => s
  | some p => (s.withStaging fun g => { g with share := some (p + 1) }).shareOn

/-- The price book unit reports the release complete (R187). -/
def State.releaseComplete (s : State) : State :=
  let s1 := s.withBook fun b => { b with cursor := none }
  let s2 := s1.withLink fun l => { l with held := max l.held s.staging.serial }
  ((s2.bump .filesReleased).withStaging fun g => { g with released := true }).freeStaging

/-- A staging list that has passed its check goes to RELEASING and is handed to the price book unit (R187, R188). A file
of no records is complete as it is handed over (DESIGN CHOICE, log 14). -/
def State.beginRelease (s : State) : State :=
  let share := if s.staging.owner = .session ∧ s.settings.share then some 0 else none
  let s1 := (s.withStaging fun g => { g with phase := .releasing, share := share, released := false }).withBook fun b =>
    { b with cursor := some 0 }
  let s2 := if s1.staging.count.getD 0 = 0 then s1.releaseComplete else s1
  s2.shareOn

/-- RELEASE_RECORD (R8): the record at the release cursor is applied and the cursor advanced; after the last, the release
is complete. -/
def execReleaseRecord (s : State) : Host.Outcome State Fault Refusal :=
  .next <|
    match s.book.cursor with
    | none => s
    | some i =>
      if s.live then
        let s1 := match AMap.get s.staging.records i with
          | none => s
          | some r => (s.applyRecord r).2
        if s.staging.count.getD 0 ≤ i + 1 then s1.releaseComplete
        else s1.withBook fun b => { b with cursor := some (i + 1) }
      else s

end Sys2Proof.Machine
end

