-- ==== Sys2Proof/Machine/ModeUnit.lean ====
section
/-! DEFINITION. The mode and event unit (10): the trading mode, the store clock, the mains-fail qualification, the event
lines, and the office commands SET-MODE, SET-TIME, READ-ALERTS and ACK-ALERT. -/

namespace Sys2Proof.Machine

open Sys2Proof

/-! ### Mode changes (R193, R197) -/

/-- The notices of a mode change: the forwarding unit's is taken first, then the office link controller's (log 15). None
is sent in STARTING or HALTED (R197). -/
def State.noticeMode (s : State) (m : Mode) : State :=
  if s.part = .starting ∨ s.part = .halted then s
  else
    let s1 := s.fwdModeChanged m
    if m = .distress then s1.sessionEvent .distress else s1

/-- The mode changes to `m` (R197). -/
def State.changeMode (s : State) (m : Mode) : State :=
  let s1 := ((s.withUnit fun u => { u with mode := m }).bump .modeChanges).noticeMode m
  if m = .distress then s1.recordAlert .distressEntered .warn .self .nothing else s1

/-- The mode is decided again (R193). -/
def State.decideMode (s : State) : State :=
  let m := decidedMode s.unit
  if m = s.unit.mode then s else s.changeMode m

/-! ### The store clock (R190 to R195) -/

/-- The schedule mode is recorded after an advance or a setting, and an override recorded with another ends (R194,
R195). -/
def State.recordSchedule (s : State) : State :=
  let sched := s.unit.clock.map fun t => scheduleMode s.settings t.sec
  let s1 := s.withUnit fun u => { u with schedule := sched }
  match s.unit.override with
  | none => s1
  | some (_, with_) =>
    if with_ = sched then s1 else (s1.withUnit fun u => { u with override := none }).bump .overridesEnded

/-- The rollover test (R192). -/
def State.testRollover (s : State) : State :=
  match s.unit.clock with
  | none => s
  | some t =>
    let s1 := s.withUnit fun u => { u with highestDay := some (max t.day (u.highestDay.getD 0)) }
    match s.unit.highestDay with
    | none => s1
    | some h => if h < t.day then s1.guestRollover else s1

/-- What follows a clock advance or a setting: the schedule, the mode decision and the rollover test (R191 to R195). -/
def State.afterClock (s : State) : State := s.recordSchedule.decideMode.testRollover

/-- The clock takes a time, and the clock timer restarts (R190, R191). -/
def State.takeTime (s : State) (t : StoreTime) (source : Count) : State :=
  ((s.withUnit fun u => { u with clock := some t, clockTimer := some (s.now + Config.seconds 1) }).bump source).afterClock

/-- A time carried by a CYCLE-MARK of the reference (R106, R191). -/
def State.timeFromMark (s : State) (t : StoreTime) : State :=
  if timeValid t then s.takeTime t .setByMark else s.bump .settingsIgnored

/-- A time carried by ACCEPT (R174, R191). -/
def State.timeFromAccept (s : State) (t : StoreTime) : State :=
  if s.mayTakeTime && timeValid t then s.takeTime t .setByAccept else s.bump .settingsIgnored

/-- The time one second on; it stays at the last second of day 65,535 (R190). -/
def advanceTime (t : StoreTime) : StoreTime := timePlus t 1

/-- CLOCK_TIMER_EXPIRY (R190). -/
def execClockTimerExpiry (s : State) : Host.Outcome State Fault Refusal :=
  .next <|
    match s.unit.clock, s.unit.clockTimer with
    | some t, some due =>
      if s.live then
        ((s.reach due).withUnit fun u =>
          { u with clock := some (advanceTime t), clockTimer := some (due + Config.seconds 1) }).afterClock
      else s
    | _, _ => s

/-! ### Mains-fail qualification (R196) -/

/-- The mains-fail function has changed to `asserted` (R196). -/
def State.mainsChanged (s : State) (asserted : Bool) : State :=
  match s.unit.mains, asserted with
  | .clear, true => s.withUnit fun u => { u with mains := .rising (s.now + Config.seconds 2) }
  | .clear, false => s
  | .rising _, true => s
  | .rising _, false => (s.withUnit fun u => { u with mains := .clear }).bump .mainsNotQualified
  | .qualified, true => s
  | .qualified, false => s.withUnit fun u => { u with mains := .falling (s.now + Config.seconds 30) }
  | .falling _, true => s.withUnit fun u => { u with mains := .qualified }
  | .falling _, false => s

/-- MAINS_RISE_TIMEOUT (R196). -/
def execMainsRiseTimeout (s : State) : Host.Outcome State Fault Refusal :=
  .next <|
    match s.unit.mains with
    | .clear => s
    | .rising due => if s.live then ((s.reach due).withUnit fun u => { u with mains := .qualified }).decideMode else s
    | .qualified => s
    | .falling _ => s

/-- MAINS_FALL_TIMEOUT (R196). -/
def execMainsFallTimeout (s : State) : Host.Outcome State Fault Refusal :=
  .next <|
    match s.unit.mains with
    | .clear => s
    | .rising _ => s
    | .qualified => s
    | .falling due => if s.live then ((s.reach due).withUnit fun u => { u with mains := .clear }).decideMode else s

/-! ### Event lines (R198, R199) -/

/-- An event line record after its level has become `high` (R198). -/
def EventLine.takeLevel (l : EventLine) (high : Bool) : EventLine :=
  let a := high == l.activeHigh
  { l with asserted := a, edges := if a && !l.asserted then raise l.edges 1 else l.edges }

/-- An event line takes its new level (R198, R199): its record, the functions of the lines, and a SESSION-KEY edge. -/
def State.lineChanged (s : State) (n : LineNo) (high : Bool) : State :=
  let old := s.unit.lines.get n
  let s1 := s.withUnit fun u => { u with lines := u.lines.set n.val (old.takeLevel high) n.isLt }
  let m := s1.unit.asserted .mainsFail
  let s2 := (if m = s.unit.asserted .mainsFail then s1 else s1.mainsChanged m).decideMode
  if old.use = .sessionKey ∧ (old.takeLevel high).asserted ∧ ¬ old.asserted then s2.keyEdge else s2

/-- EVENT_LINE_CHANGE (R198): the level is an input and is held whatever the part does; the part acts on it when it reads
its lines. -/
def execEventLineChange (n : LineNo) (high : Bool) (s : State) : Host.Outcome State Fault Refusal :=
  .next <|
    let s1 := { s with levels := s.levels.set n.val high n.isLt }
    if s.live && s.serving then s1.lineChanged n high else s1

/-- The lines are read when the profile has been loaded (R198): uses, polarities and states, with no edge. -/
def State.readLines (s : State) : State :=
  let line (i : LineNo) : EventLine :=
    let c := s.settings.lines.get i
    { use := c.1, activeHigh := c.2, asserted := s.levels.get i == c.2, edges := (s.unit.lines.get i).edges }
  let s1 := s.withUnit fun u => { u with lines := Vector.ofFn line }
  if s1.unit.asserted .mainsFail then s1.mainsChanged true else s1

/-! ### Office commands of the unit (R191, R195, R202) -/

/-- The trading mode a SET-MODE code gives, the mode code of 12.1; DISTRESS is no override (R195, 12.7). -/
def overrideOf : Nat → Option Mode
  | 1 => some .open
  | 2 => some .late
  | 3 => some .closed
  | _ => none

/-- The override in force ends (R195). -/
def State.endOverride (s : State) : State :=
  match s.unit.override with
  | none => s
  | some _ => (s.withUnit fun u => { u with override := none }).bump .overridesEnded

/-- SET-MODE: code 0 is SCHEDULE (R195, 12.7). -/
def State.actSetMode (code : Nat) (s : State) : OfficeOutcome × State :=
  if code = 0 then
    let s1 := s.endOverride.decideMode
    (.done (.mode s1.unit.mode), s1)
  else match overrideOf code with
    | none => (.refused .badValue, s)
    | some m =>
      let s1 := ((s.withUnit fun u => { u with override := some (m, u.schedule) }).bump .overridesGiven).decideMode
      (.done (.mode s1.unit.mode), s1)

/-- SET-TIME (R191): the reference is tested before the value (log 16). -/
def State.actSetTime (t : StoreTime) (s : State) : OfficeOutcome × State :=
  if !s.mayTakeTime then (.refused .notReference, s.bump .settingsIgnored)
  else if timeValid t then (.done (.time t), s.takeTime t .setByOffice)
  else (.refused .badValue, s.bump .settingsIgnored)

/-- Bytes that a READ-ALERTS reply has for its alerts: 1,536 less the reply's head, the count of alerts and the two
figures after them (R121, 12.7). -/
def alertRoom : Nat := 1536 - 4 - 1 - 8

/-- The alerts, from the oldest on, whose records fit `room` bytes (R121). -/
def alertsFitting (self : Station) : Nat → List Alert → List Alert
  | _, [] => []
  | room, a :: l =>
    let n := (alertBytes self a).length
    if n ≤ room then a :: alertsFitting self (room - n) l else []

/-- READ-ALERTS (R202). Of the up to 16 alerts asked for, the reply carries the oldest ones that one frame of 1,536 bytes
can hold (R121; DESIGN CHOICE, log 61). -/
def State.actReadAlerts (first : Nat) (s : State) : OfficeOutcome × State :=
  (.done (.alerts
    (alertsFitting s.self alertRoom ((s.alerts.list.filter fun a => decide (first ≤ a.serial)).take 16))
    s.alerts.list.length (s.count .alertOverflow)), s)

/-- ACK-ALERT (R202). -/
def State.actAckAlert (serial : Nat) (s : State) : OfficeOutcome × State :=
  let named (a : Alert) : Bool := serial == 0 || a.serial == serial
  if serial = 0 ∨ s.alerts.list.any named then
    (.done .nothing,
      { s with alerts := { s.alerts with
          list := s.alerts.list.map fun a => if named a then { a with acked := true } else a } })
  else (.refused .noSuchAlert, s)

end Sys2Proof.Machine
end

