-- ==== Sys2Proof/Machine/Messages.lean ====
section
/-! DEFINITION. The session's messages from head office and its timers (09): one meaning for a message however it
arrives, and the commands that bring one. -/

namespace Sys2Proof.Machine

open Sys2Proof

/-- The session awaits FILE-START: it owns the staging list in COLLECTING with no count (R177, R178, R180). -/
def State.awaitsStart (s : State) : Bool :=
  s.link.state == .downloading && s.staging.owner == .session && s.staging.phase == .collecting && s.staging.count.isNone

/-- The session is receiving a file, after FILE-START (R179, R180). -/
def State.receiving (s : State) : Bool :=
  s.link.state == .downloading && s.staging.owner == .session && s.staging.phase == .collecting && s.staging.count.isSome

/-- A message the session does not await: it is discarded (R173). -/
def State.unexpected (s : State) : State := s.bump .unexpectedMessages

/-- The reply timer is restarted (R173). -/
def State.restartReply (s : State) : State :=
  s.withLink fun l => { l with replyTimer := some (s.now + Config.seconds 30) }

/-- ACCEPT in OPENING (R174). The session goes on awaiting, a BATCH-TAKEN now, so the reply timer is restarted (R173,
R176); it stops in the download decision of an upload that is over at once (R175). -/
def State.takeAccept (s : State) (t : StoreTime) (n : Nat) : State :=
  ((s.withLink fun l => { l with state := .uploading, newest := some n }).restartReply.timeFromAccept t).pumpSession

/-- REFUSE in OPENING: the session becomes DONE, with the reason code in the alert (R174). -/
def State.takeRefuse (s : State) (code : Nat) : State :=
  (s.stopAttempt.withLink fun l => { l with lastFailure := some .refused }).sessionFailed .refused (some code)

/-- BATCH-TAKEN in UPLOADING (R176). The reply timer is restarted (R173); it stops in the download decision when no batch
follows (R175). -/
def State.takeBatchTaken (s : State) (serial : Nat) : State :=
  match s.link.window with
  | [] => s.failAttempt .outOfOrder
  | b :: rest =>
    if b.serial = serial ∧ b.lastPart then
      let s1 := s.acknowledge b.first b.last
      let s2 := (s1.withLink fun l => { l with window := rest, acked := l.acked + 1 }).restartReply
      (s2.bump .batchesAcknowledged).pumpSession
    else s.failAttempt .outOfOrder

/-- FILE-REFUSED: the staging list is discarded and the session becomes CLOSING (R178). The file is counted as refused at
once (DEDUCED, log 32). -/
def State.refuseFile (s : State) (serial : Nat) (tooLarge : Bool) : State :=
  (((s.withStaging fun _ => Staging.empty).bump .filesRefused).closing [.fileRefused serial tooLarge] .refused).pumpSession

/-- FILE-START while it is awaited (R178). -/
def State.takeFileStart (s : State) (serial count check : Nat) : State :=
  if s.link.newest ≠ some serial then s.refuseFile serial false
  else if Config.stagingCapacity < count then s.refuseFile serial true
  else
    (s.withStaging fun g => { g with count := some count, check := some check, records := [] }).restartReply

/-- The file has failed its check: the alert, the count, the staging list and the FILE-BAD formed, which goes behind the
messages in hand (R180). After the second the staging list is discarded at once, and the session becomes CLOSING when that
FILE-BAD is QUEUED (DEDUCED, log 83). -/
def State.formFileBad (s : State) (serial : Nat) : State :=
  let present := s.staging.records.length
  let second := s.link.resendUsed
  let s1 := (s.recordAlert .fileBad .warn (.file serial) .nothing).bump .filesFailed
  let s2 := s1.withStaging fun g =>
    if second then Staging.empty else { g with count := none, check := none, records := [] }
  s2.withLink fun l =>
    { l with resendUsed := true, toSend := l.inHand ++ [.fileBad serial present second]
             replyTimer := if second then none else some (s.now + Config.seconds 30) }

/-- A file that has failed its check: its FILE-BAD is formed and handed over in its turn (R172, R180). -/
def State.fileFailed (s : State) (serial : Nat) : State := (s.formFileBad serial).pumpSession

/-- FILE-END for the file being received (R180). -/
def State.takeFileEnd (s : State) (serial : Nat) : State :=
  if s.staging.passes then (((s.bump .filesTaken).beginRelease).closing [.fileTaken serial] .taken).pumpSession
  else s.fileFailed serial

/-- A message with the current tag while an attempt is in progress (R173 to R180). -/
def State.awaited (s : State) (m : InMessage) : State :=
  match m with
  | .accept t n => if s.link.state = .opening then s.takeAccept t n else s.unexpected
  | .defer => if s.link.state = .opening then s.failAttempt .deferred else s.unexpected
  | .refuse code => if s.link.state = .opening then s.takeRefuse code else s.unexpected
  | .batchTaken serial => if s.link.state = .uploading then s.takeBatchTaken serial else s.unexpected
  | .fileStart serial count check => if s.awaitsStart then s.takeFileStart serial count check else s.unexpected
  | .filePart serial first rs =>
    if s.receiving && s.link.newest == some serial && inRange rs.length 32 then (storeRecords first rs s).restartReply
    else s.unexpected
  | .fileEnd serial => if s.receiving && s.link.newest == some serial then s.takeFileEnd serial else s.unexpected
  | .noResend serial =>
    if s.awaitsStart && s.link.resendUsed && s.link.newest == some serial then
      ((s.withStaging fun _ => Staging.empty).closing [] .bad).pumpSession
    else s.unexpected
  | .other => s.unexpected

/-- A message from head office reaches the office link controller (R173). -/
def State.message (s : State) (tag : Nat) (m : InMessage) : State :=
  if s.link.state.inProgress && tag == s.link.attemptTag then s.awaited m else s.bump .staleMessages

/-- A message brought by a command: the forwarding unit delivers none in STARTING and HALTED (R144). -/
def State.deliverMessage (s : State) (tag : Nat) (m : InMessage) : State :=
  if s.live && s.serving then s.message tag m else s

/-! ### The commands -/

/-- ACCEPT (R174). -/
def execAccept (tag : Nat) (time : StoreTime) (newest : Nat) (s : State) : Host.Outcome State Fault Refusal :=
  .next (s.deliverMessage tag (.accept time newest))

/-- DEFER (R174). -/
def execDefer (tag : Nat) (s : State) : Host.Outcome State Fault Refusal := .next (s.deliverMessage tag .defer)

/-- REFUSE (R174). -/
def execRefuse (tag reason : Nat) (s : State) : Host.Outcome State Fault Refusal :=
  .next (s.deliverMessage tag (.refuse reason))

/-- BATCH_TAKEN (R176). -/
def execBatchTaken (tag serial : Nat) (s : State) : Host.Outcome State Fault Refusal :=
  .next (s.deliverMessage tag (.batchTaken serial))

/-- FILE_START (R178). -/
def execFileStart (tag serial count check : Nat) (s : State) : Host.Outcome State Fault Refusal :=
  .next (s.deliverMessage tag (.fileStart serial count check))

/-- FILE_PART (R179). -/
def execFilePart (tag serial firstIndex : Nat) (records : List ChangeRecord) (s : State) :
    Host.Outcome State Fault Refusal :=
  .next (s.deliverMessage tag (.filePart serial firstIndex records))

/-- FILE_END (R180). -/
def execFileEnd (tag serial : Nat) (s : State) : Host.Outcome State Fault Refusal :=
  .next (s.deliverMessage tag (.fileEnd serial))

/-- NO_RESEND (R180). -/
def execNoResend (tag serial : Nat) (s : State) : Host.Outcome State Fault Refusal :=
  .next (s.deliverMessage tag (.noResend serial))

/-- A window that the store time lies in opens when its day differs from the window last opened (R168). So one of an earlier
day, opened before the last and reached again by a clock set back, opens again (DESIGN CHOICE, log 76). -/
def State.openWindow (s : State) : State :=
  match s.window with
  | none => s
  | some (day, _) =>
    if s.link.windowDay = some day then s
    else s.withLink fun l =>
      { l with windowDay := some day, attemptCount := 0, state := if l.state = .done then .idle else l.state }

/-- A session in RESTING ends DONE when the store time is outside the window or within 10 min of its end (R183). -/
def State.testResting (s : State) : State :=
  let near : Bool := match s.window with
    | none => true
    | some (_, left) => decide (left ≤ 600)
  if s.link.state = .resting ∧ near then s.sessionFailed (s.link.lastFailure.getD .noReply) none else s

/-- SESSION_SECOND_TIMER (R168, R169, R183): the test of RESTING comes before the start of an attempt (log 17). -/
def execSessionSecondTimer (s : State) : Host.Outcome State Fault Refusal :=
  .next <|
    if s.live then
      let s1 := (s.reach s.link.timer).withLink fun l => { l with timer := l.timer + Config.seconds 1 }
      if s1.working then s1.openWindow.testResting.testWindowStart else s1
    else s

/-- REST_TIMER_EXPIRY (R169, R183). -/
def execRestTimerExpiry (s : State) : Host.Outcome State Fault Refusal :=
  .next <|
    match s.link.restTimer with
    | none => s
    | some due =>
      if s.live && s.working then ((s.reach due).withLink fun l => { l with restTimer := none }).testWindowStart
      else s

/-- SESSION_REPLY_TIMEOUT (R182). -/
def execSessionReplyTimeout (s : State) : Host.Outcome State Fault Refusal :=
  .next <|
    match s.link.replyTimer with
    | none => s
    | some due =>
      if s.live && s.working then
        ((s.reach due).withLink fun l => { l with replyTimer := none }).sessionEvent .noReply
      else s

end Sys2Proof.Machine
end

