-- ==== Sys2Proof/Machine/Labels.lean ====
section
/-! DEFINITION. Shelf label service (05): binding, the turns of a slot, acknowledgements, the retry ladder, and the label
table's passages between OWNED and HEARD that 06 shares with it (R109 to R111). -/

namespace Sys2Proof.Machine

open Sys2Proof

/-! ### Battery and unanswered attempts (R93, R94, R96) -/

/-- Battery states from better to worse (R96). -/
def batteryRank : Battery → Nat
  | .good => 0
  | .low => 1
  | .empty => 2

/-- A reported battery state replaces the entry's, and a worse one records LABEL-BATTERY (R96). -/
def State.takeBattery (s : State) (label : Nat) (b : Battery) : State :=
  match s.owned label with
  | none => s
  | some o =>
    let s1 := s.putOwned label { o with battery := b }
    if batteryRank o.battery < batteryRank b then
      s1.recordAlert .labelBattery (if b = .low then .info else .warn) (.label label) (.battery b)
    else s1

/-- The version of a target (R78). -/
def Target.version : Target → Nat
  | .price _ v => v
  | .blank _ v => v
  | .unbound => 0

/-- An unanswered attempt raises the attempts by 1 and the power step by 2 dB, to no more than 12 (R91, R93, R116). -/
def Owned.missed (o : Owned) : Owned := { o with attempts := o.attempts + 1, power := min (o.power + 2) 12 }

/-- A SENT label's attempt has gone unanswered: it goes to the tail of the update list, or is LOST after the sixth (R91,
R93, R94). -/
def State.unanswered (s : State) (label : Nat) (o : Owned) : State :=
  let o1 := o.missed
  let s1 := s.bump .unansweredAttempts
  if o1.attempts < 6 then s1.putOwned label { o1 with state := .updateDue s.now }
  else
    (((s1.putOwned label { o1 with state := .lost }).bump .labelsLost).recordAlert .labelLost .warn (.label label)
      (.lost o.bound o.target.version)).floorReportOpt o.bound

/-- A MOVE attempt has gone unanswered; after the sixth the move has failed (R116). -/
def State.moveUnanswered (s : State) (label : Nat) (o : Owned) (m : Move) : State :=
  let o1 := o.missed
  let s1 := s.bump .unansweredAttempts
  if o1.attempts < 6 then s1.putOwned label { o1 with state := .moving { m with inAir := false } }
  else
    ((s1.putOwned label (({ o1 with attempts := 0 } : Owned).settled s.now)).bump .failedMoves).refuseClaim label
      m.claimant o.hearing.smoothed

/-- The slot has ended for one label (R93, R116). -/
def State.endTurn (s : State) (label : Nat) : State :=
  match s.owned label with
  | none => s
  | some o =>
    match o.state with
    | .showing => s
    | .updateDue _ => s
    | .sent _ => s.unanswered label o
    | .moving m => if m.inAir then s.moveUnanswered label o m else s
    | .lost => s

/-- The labels with a packet in the air, in the order in which their turns end: by address (DESIGN CHOICE, log 68). -/
def State.inTurn (s : State) : List Nat :=
  (s.labels.owned.filter fun e =>
    match e.2.state with
    | .showing => false
    | .updateDue _ => false
    | .sent _ => true
    | .moving m => m.inAir
    | .lost => false).map (·.1)

/-- The end of a slot: every label still SENT, and every MOVE attempt, has gone unanswered (R93, R116). -/
def State.endTurns (s : State) : State := s.inTurn.foldl (fun s label => s.endTurn label) s

/-- One label's turn is cut short by a restarted cycle (R97). -/
def State.cutTurn (s : State) (label : Nat) : State :=
  match s.owned label with
  | none => s
  | some o =>
    match o.state with
    | .showing => s
    | .updateDue _ => s
    | .sent due => (s.putOwned label { o with state := .updateDue due }).bump .attemptsCutShort
    | .moving m => s.putOwned label { o with state := .moving { m with inAir := false } }
    | .lost => s

/-- The slot in progress is cut short (R97). -/
def State.cutTurns (s : State) : State := s.inTurn.foldl (fun s label => s.cutTurn label) s

/-! ### The turns of a slot (R88 to R90, R107, R116) -/

/-- The slot of a label (R77). -/
def slotOf (label : Nat) : Nat := label % 128

/-- The display terms a SHOW packet of version `v` carries, as the article's entry stands (R89). -/
def Entry.displayTerms (e : Entry) (v : Nat) : Option (ArticleKind × Terms) :=
  match e.current with
  | none => none
  | some t =>
    if e.version = v then some (e.kind, t)
    else match e.phase with
      | .steady => none
      | .waiting _ => none
      | .changing c => match c.pending.action with
        | .withdraw => none
        | .set k p => if c.pending.version = v then some (k, p) else none

/-- The display terms of an article at a version (R89). -/
def State.displayTerms (s : State) (a v : Nat) : Option (ArticleKind × Terms) :=
  match s.entry a with
  | none => none
  | some e => e.displayTerms v

/-- A label bound to an article with no entry is unbound (R89, R99). -/
def State.unbindStray (s : State) (label a : Nat) : State :=
  match s.owned label with
  | none => s
  | some o => (((s.putOwned label { o with bound := none }).retarget label .unbound).uncountOpt o.bound).floorReport a

/-- The redirection of a PRICE target whose version the entry no longer holds (R89). -/
def State.redirect (s : State) (label : Nat) : State :=
  match s.owned label with
  | none => s
  | some o =>
    match o.target with
    | .blank _ _ => s
    | .unbound => s
    | .price a v =>
      match s.displayTerms a v with
      | some _ => s
      | none =>
        match s.entry a with
        | none => s.unbindStray label a
        | some e => s.retarget label (e.display a)

/-- A label taken into a turn is SENT, its packet's form, article and version its last sent (R88). -/
def State.markSent (s : State) (label due : Nat) (o : Owned) (d : Display) : State :=
  s.putOwned label { o with state := .sent due, lastSent := some d }

/-- The packet of a listed label's turn (R89, R90). -/
def State.sendPacket (s : State) (label due : Nat) (o : Owned) : State :=
  let channel := s.settings.labelChannel
  match o.target with
  | .price a v =>
    match s.displayTerms a v with
    | none => s
    | some (k, t) =>
      ((s.markSent label due o ⟨.price, some a, v⟩).emit (.radio (.show channel label a v k t o.power))).bump .showsSent
  | .blank a v =>
    ((s.markSent label due o ⟨.blank, some a, v⟩).emit (.radio (.blank channel label (some a) v o.power))).bump
      .blanksSent
  | .unbound =>
    ((s.markSent label due o ⟨.blank, none, 0⟩).emit (.radio (.blank channel label none 0 o.power))).bump .blanksSent

/-- A listed label takes its turn: its target is redirected if it must be, and its packet is sent (R88 to R90). -/
def State.takeTurn (s : State) (label : Nat) : State :=
  let s1 := s.redirect label
  match s1.owned label with
  | none => s1
  | some o =>
    match o.state with
    | .updateDue due => s1.sendPacket label due o
    | .showing => s1
    | .sent _ => s1
    | .moving _ => s1
    | .lost => s1

/-- A MOVING label is sent a MOVE attempt (R88, R116). -/
def State.sendMove (s : State) (label : Nat) : State :=
  match s.owned label with
  | none => s
  | some o =>
    match o.state with
    | .moving m =>
      (s.putOwned label { o with state := .moving { m with inAir := true } }).emit
        (.radio (.move (some s.settings.labelChannel) label m.claimant m.channel o.power))
    | .showing => s
    | .updateDue _ => s
    | .sent _ => s
    | .lost => s

/-- The MOVING labels of slot `n`, in address order (R88). -/
def State.movers (s : State) (n : Nat) : List Nat :=
  (s.labels.owned.filter fun e =>
    decide (slotOf e.1 = n) &&
      (match e.2.state with
       | .moving _ => true
       | .showing => false
       | .updateDue _ => false
       | .sent _ => false
       | .lost => false)).map (·.1)

/-- A slot begins: where turns may be filled, the slot header is sent and up to four turns are filled, MOVING labels
first (R88, R107). -/
def State.beginSlot (s : State) : State :=
  if s.mayFill then
    let l := s.labels
    let s1 := s.emit (.radio (.header s.settings.labelChannel s.self l.cycle l.slot l.length))
    let moves := (s1.movers l.slot).take 4
    let s2 := moves.foldl (fun s label => s.sendMove label) s1
    let listed := ((s2.updates.map (·.2)).filter fun label => decide (slotOf label = l.slot)).take (4 - moves.length)
    listed.foldl (fun s label => s.takeTurn label) s2
  else s

/-! ### Room in the table (R109) -/

/-- The HEARD entry least recently heard among those given; of several not heard since they were made or since a reset, the
one with the lowest address (DESIGN CHOICE, log 6). -/
def leastHeard : List (Nat × Heard) → Option (Nat × Heard)
  | [] => none
  | e :: m =>
    match leastHeard m with
    | none => some e
    | some f => if e.2.hearing.stamp ≤ f.2.hearing.stamp then some e else some f

/-- The HEARD entry that gives way: the least recently heard whose claim is not outstanding, or else the least recently
heard (R109). -/
def victim (m : List (Nat × Heard)) : Option (Nat × Heard) :=
  match leastHeard (m.filter fun e => !e.2.outstanding) with
  | some e => some e
  | none => leastHeard m

/-- The number of entries of the label table (R77). -/
def Labels.size (l : Labels) : Nat := l.owned.length + l.heard.length

/-- The table has room for one more entry, a HEARD entry giving way if need be (R109). -/
def State.hasRoom (s : State) : Bool := decide (s.labels.size < Config.labelCapacity) || !s.labels.heard.isEmpty

/-- Make room for one more entry (R109): whether there is room, and the state after. -/
def State.makeRoom (s : State) : Bool × State :=
  if s.labels.size < Config.labelCapacity then (true, s)
  else match victim s.labels.heard with
    | none => (false, s)
    | some e => (true, (s.withLabels fun l => { l with heard := AMap.del l.heard e.1 }).bump .heardRemoved)

/-! ### Taking in and dropping to HEARD (R110, R111) -/

/-- The target a bind check gives a label for an article, and the article it is then bound to (R82, R110). -/
def State.bindingFor (s : State) : Option Nat → Option Nat × Target
  | none => (none, .unbound)
  | some a =>
    match s.bindCheck a with
    | .unknownItem => (none, .unbound)
    | .notForSale => (none, .unbound)
    | .visible e => (some a, e.display a)

/-- The price book unit is told that a label counts for the article it is bound to (R23). -/
def State.countOpt (s : State) : Option Nat → State
  | none => s
  | some a => s.countBound a

/-- A label becomes OWNED with the hearing fields given, which name this station as its owner (R110). -/
def State.makeOwned (s : State) (label : Nat) (d : Display) (b : Battery) (article : Option Nat) (h : Hearing) : State :=
  let (bound, target) := s.bindingFor article
  let o : Owned :=
    { bound := bound, display := d, state := .showing, target := target, lastSent := none, attempts := 0, power := 0,
      battery := b, lastReceived := none, hearing := { h with owner := s.self, ownerLevel := none } }
  ((s.withLabels fun l => { l with heard := AMap.del l.heard label }).putOwned label (o.settled s.now)).countOpt bound

/-- The hearing fields of a label of which no presence has been taken: the last heard cycle is free (log 6). -/
def State.unheard (s : State) : Hearing × State :=
  let (cycle, s1) := s.drawCycle
  ({ smoothed := none, lastCycle := cycle, owner := s.self, ownerLevel := none, stamp := 0 }, s1)

/-- A label is taken in as OWNED (R110): whether there was room, and the state after. It keeps the hearing fields of its
HEARD entry, or takes those `presence` gives; a label with neither has a free last heard cycle. `how` is the count of
labels so taken in. -/
def State.takeIn (s : State) (label : Nat) (d : Display) (b : Battery) (article : Option Nat) (presence : Option Hearing)
    (how : Count) : Bool × State :=
  match s.heard label with
  | some h => (true, (s.makeOwned label d b article h.hearing).bump how)
  | none =>
    let (ok, s1) := s.makeRoom
    if ok then
      let (h, s2) := match presence with
        | some h => (h, s1)
        | none => s1.unheard
      (true, (s2.makeOwned label d b article h).bump how)
    else (false, s1.bump .turnedAway)

/-- The article a presence or an adoption binds a label to: the displayed article of a PRICE (R110). -/
def shownArticle (d : Display) : Option Nat :=
  match d.form with
  | .price => d.article
  | .blank => none

/-- An OWNED label drops to HEARD with the owner and owner's level given (R111). -/
def State.dropToHeard (s : State) (label : Nat) (o : Owned) (owner : Station) (level : Option Int) : State :=
  let h : Heard := { hearing := { o.hearing with owner := owner, ownerLevel := level }, claimAge := none, claimed := false }
  let s1 := (s.withLabels fun l => { l with owned := AMap.del l.owned label }).putHeard label h
  ((s1.bump .dropsToHeard).uncountOpt o.bound).floorReportOpt o.bound

/-- An OWNED label drops to HEARD outside the end of a move: a move of its is given up, and the claimant sent LABEL-REFUSE
with no level (R111). -/
def State.dropOwned (s : State) (label : Nat) (owner : Station) : State :=
  match s.owned label with
  | none => s
  | some o =>
    let s1 := match o.state with
      | .moving m => s.refuseClaim label m.claimant none
      | .showing => s
      | .updateDue _ => s
      | .sent _ => s
      | .lost => s
    s1.dropToHeard label o owner none

/-- The move of a MOVING label has succeeded: a label that is current is handed to the claimant, and the entry drops to
HEARD (R116). -/
def State.moveDone (s : State) (label : Nat) (o : Owned) (m : Move) : State :=
  let s1 :=
    if o.current then
      let (ans, s1) := s.offer (Frame.new (some m.claimant)
        (.labelHandover { label := label, bound := o.bound, display := o.display, battery := o.battery }) .label)
      if ans = .notTaken then s1 else s1.bump .handoversSent
    else s
  s1.dropToHeard label o m.claimant (some m.level)

/-! ### Acknowledgements (R91, R92, R116) -/

/-- The display after an ACK: the last sent when it shows that version, and otherwise the version alone, with the form
BLANK and no article for version 0 (R91, R92). -/
def Owned.displayAfter (o : Owned) (v : Nat) : Bool × Display :=
  let other : Display := if v = 0 then ⟨.blank, none, 0⟩ else { o.display with version := v }
  match o.lastSent with
  | none => (false, other)
  | some d => if d.version = v then (true, d) else (false, other)

/-- An ACK from a SENT label (R91). Its level is kept as it was reported (DESIGN CHOICE, log 71). -/
def State.ackSent (s : State) (a : AckPacket) (o : Owned) : State :=
  let (answered, d) := o.displayAfter a.version
  let s1 :=
    if answered then
      s.putOwned a.label
        (({ o with display := d, attempts := 0, power := o.power - 1, lastReceived := some a.level } : Owned).settled s.now)
    else s.unanswered a.label { o with display := d }
  (s1.takeBattery a.label a.battery).floorReportOpt o.bound

/-- An ACK from an OWNED label that is neither SENT nor MOVING (R92). Its level is kept as it was reported (DESIGN CHOICE,
log 71). -/
def State.ackReport (s : State) (a : AckPacket) (o : Owned) : State :=
  let o1 : Owned := { o with display := (o.displayAfter a.version).2, lastReceived := some a.level }
  let o2 : Owned := match o.state with
    | .updateDue _ => if o1.current then { o1 with state := .showing, attempts := 0, power := o.power - 1 } else o1
    | .showing => o1.settled s.now
    | .sent _ => o1
    | .moving _ => o1
    | .lost => o1
  ((s.putOwned a.label o2).takeBattery a.label a.battery).floorReportOpt o.bound

/-- An ACK from a MOVING label (R116). -/
def State.ackMoving (s : State) (a : AckPacket) (o : Owned) (m : Move) : State :=
  if a.owner = m.claimant then (s.takeBattery a.label a.battery).moveDone a.label { o with battery := a.battery } m
  else if m.inAir then (s.moveUnanswered a.label o m).takeBattery a.label a.battery
  else s.takeBattery a.label a.battery

/-- An ACK is recorded with the adoption MOVE it answers, the first one heard deciding (R118, R119). -/
def recordAdoptionAck (label : Nat) (owner : Station) (l : List Adoption) : List Adoption :=
  l.map fun x => if x.presence.label = label ∧ x.ack.isNone then { x with ack := some owner } else x

/-- An ACK heard on the common channel is recorded with the adoption MOVE it answers (R118, R119). -/
def State.hearAdoptionAck (s : State) (a : AckPacket) : State :=
  if a.common then s.withLabels fun l => { l with adoptions := recordAdoptionAck a.label a.owner l.adoptions } else s

/-- An ACK is taken by the state of its label's OWNED entry, and without one is a stray (R91, R92, R116). One that answers
an adoption MOVE is recorded with it first (R119), and then taken as any other. -/
def State.takeAck (s : State) (a : AckPacket) : State :=
  let s0 := s.hearAdoptionAck a
  match s0.owned a.label with
  | none => s0.bump .strayAcks
  | some o =>
    let s1 := s0.bump .acksTaken
    match o.state with
    | .sent _ => s1.ackSent a o
    | .moving m => s1.ackMoving a o m
    | .showing => s1.ackReport a o
    | .updateDue _ => s1.ackReport a o
    | .lost => s1.ackReport a o

/-- ACK_RECEIVED (R91, R92, R116, R119). -/
def execAckReceived (a : AckPacket) (s : State) : Host.Outcome State Fault Refusal :=
  .next (if s.live && s.serving && s.settings.labelService then s.takeAck a else s)

/-! ### Office commands on labels (R81 to R83, R101) -/

/-- What BIND and UNBIND answer: the label's target and state (R209). -/
def State.labelAnswer (s : State) (label : Nat) : OfficeOutcome :=
  match s.owned label with
  | none => .done .nothing
  | some o => .done (.label o.target o.state)

/-- A label becomes UPDATE-DUE by BIND or UNBIND: one already in the update list keeps its place (R82, R83). -/
def LabelState.due (st : LabelState) (now : Nat) : LabelState :=
  match st with
  | .updateDue d => .updateDue d
  | .showing => .updateDue now
  | .sent _ => .updateDue now
  | .moving _ => .updateDue now
  | .lost => .updateDue now

/-- The OWNED entry a BIND creates (R77). -/
def Owned.created (self : Station) (cycle now : Nat) : Owned :=
  { bound := none, display := ⟨.blank, none, 0⟩, state := .updateDue now, target := .unbound, lastSent := none
    attempts := 0, power := 0, battery := .good, lastReceived := none
    hearing := { smoothed := none, lastCycle := cycle, owner := self, ownerLevel := none, stamp := 0 } }

/-- A BIND that has passed its tests acts on an OWNED entry (R82). -/
def State.bindLabel (s : State) (label a : Nat) (e : Entry) (o : Owned) : State :=
  let s1 := s.putOwned label
    { o with bound := some a, target := e.display a, attempts := 0, state := o.state.due s.now }
  if o.bound = some a then s1 else ((s1.uncountOpt o.bound).floorReportOpt o.bound).countBound a

/-- BIND (R81, R82). -/
def State.actBind (label a : Nat) (s : State) : OfficeOutcome × State :=
  if !s.settings.labelService then (.refused .noLabelService, s)
  else match s.bindCheck a with
    | .unknownItem => (.refused .unknownItem, s)
    | .notForSale => (.refused .notForSale, s)
    | .visible e =>
      match s.heard label with
      | some h => (.refused (.ownedElsewhere h.hearing.owner), s)
      | none =>
        match s.owned label with
        | some o =>
          match o.state with
          | .moving _ => (.refused .labelMoving, s)
          | .showing => let s1 := s.bindLabel label a e o; (s1.labelAnswer label, s1)
          | .updateDue _ => let s1 := s.bindLabel label a e o; (s1.labelAnswer label, s1)
          | .sent _ => let s1 := s.bindLabel label a e o; (s1.labelAnswer label, s1)
          | .lost => let s1 := s.bindLabel label a e o; (s1.labelAnswer label, s1)
        | none =>
          let (ok, s1) := s.makeRoom
          if ok then
            let (cycle, s2) := s1.drawCycle
            let s3 := s2.bindLabel label a e (Owned.created s2.self cycle s2.now)
            (s3.labelAnswer label, s3)
          else (.refused .tableFull, s)

/-- An UNBIND that has passed its tests (R83). -/
def State.unbindLabel (s : State) (label : Nat) (o : Owned) : State :=
  let s1 := s.putOwned label { o with bound := none, target := .unbound, attempts := 0, state := o.state.due s.now }
  (s1.uncountOpt o.bound).floorReportOpt o.bound

/-- UNBIND (R83). -/
def State.actUnbind (label : Nat) (s : State) : OfficeOutcome × State :=
  if !s.settings.labelService then (.refused .noLabelService, s)
  else match s.owned label with
    | none => (.refused .notOwned, s)
    | some o =>
      match o.state with
      | .moving _ => (.refused .labelMoving, s)
      | .showing => let s1 := s.unbindLabel label o; (s1.labelAnswer label, s1)
      | .updateDue _ => let s1 := s.unbindLabel label o; (s1.labelAnswer label, s1)
      | .sent _ => let s1 := s.unbindLabel label o; (s1.labelAnswer label, s1)
      | .lost => let s1 := s.unbindLabel label o; (s1.labelAnswer label, s1)

/-- A HEARD entry as READ-LABEL shows it: a claim whose age has reached 16 is no longer outstanding (R101, R109). -/
def Heard.shown (h : Heard) : Heard := { h with claimed := h.outstanding }

/-- READ-LABEL (R101, R120). -/
def State.actReadLabel (label : Nat) (s : State) : OfficeOutcome × State :=
  match s.owned label with
  | some o =>
    (.done (.ownedLabel label (slotOf label) ((s.updates.map (·.2)).findIdx? (· == label) |>.map (· + 1)) o), s)
  | none =>
    match s.heard label with
    | some h => (.done (.heardLabel label (slotOf label) h.shown), s)
    | none => (.refused .noSuchLabel, s)

end Sys2Proof.Machine
end

