-- ==== Sys2Proof/Machine/SharedLabels.lean ====
section
/-! DEFINITION. Shared labels and cycle alignment (06): the reference and the cycle, presences, claims, moves and
adoption. -/

namespace Sys2Proof.Machine

open Sys2Proof

/-! ### The reference and the cycle (R87, R103 to R106) -/

/-- The reference station is judged again; the aligned flag is set when this station becomes its own reference, cleared
when there is none, and else kept (R103, R104). It is kept where the reference passes from this station to a peer in any part
state, so that turns are filled before that peer's first mark (DESIGN CHOICE, log 78). -/
def State.judgeReference (s : State) : State :=
  let r := s.judgedReference
  s.withLabels fun l =>
    { l with reference := r
             aligned := match r with
               | none => false
               | some n => l.aligned || (n == s.self && l.reference != some n) }

/-- The claim age of a HEARD entry at a cycle start (R109). -/
def Heard.grow (h : Heard) : Heard := { h with claimAge := h.claimAge.map fun n => min (n + 1) 16 }

/-- The claim ages of the HEARD entries rise at a cycle start (R109). -/
def State.ageClaims (s : State) : State :=
  s.withLabels fun l => { l with heard := l.heard.map fun e => (e.1, e.2.grow) }

/-- The CYCLE-MARK of a reference at a cycle start (R105). -/
def State.sendMark (s : State) : State :=
  if s.labels.reference = some s.self ∧ s.settings.labelService ∧ s.part = .running then
    let (ans, s1) := s.offer (Frame.new none (.cycleMark s.labels.cycle s.labels.length s.unit.clock) .mark)
    s1.bump (if ans = .queued then .marksSent else .marksNotSent)
  else s

/-- The next slot begins at part time `start`: after slot 127 the counter rises and a new cycle begins (R87, R105). -/
def State.nextSlot (s : State) (start : Nat) : State :=
  if s.labels.slot < 127 then
    (s.withLabels fun l => { l with slot := l.slot + 1, slotEnd := some (start + slotLength l.length) }).beginSlot
  else
    let n := s.nextLength
    let s1 := s.withLabels fun l =>
      { l with cycle := (l.cycle + 1) % 4294967296, slot := 0, length := n, slotEnd := some (start + slotLength n) }
    s1.ageClaims.sendMark.beginSlot

/-- SLOT_END (R87, R93). -/
def execSlotEnd (s : State) : Host.Outcome State Fault Refusal :=
  .next <|
    match s.labels.slotEnd with
    | none => s
    | some due => if s.live && s.serving then ((s.reach due).endTurns).nextSlot due else s

/-- CLAIM_EXPIRY (R109): the claim age has reached 16, and the claim is no longer outstanding. -/
def execClaimExpiry (label : Nat) (s : State) : Host.Outcome State Fault Refusal :=
  .next <|
    match s.heard label with
    | none => s
    | some h =>
      if s.live && s.serving && h.claimed && h.claimAge == some 16 then s.putHeard label { h with claimed := false } else s

/-- The station is in step with a CYCLE-MARK (R106). -/
def Labels.inStep (l : Labels) (number length : Nat) : Bool :=
  l.cycle == number && l.slot == 0 && l.length == length

/-- A CYCLE-MARK of the reference is taken (R106): the cycle is re-timed or restarted, the aligned flag set, and a store
time handed on. A restart is a cycle start for the claim ages (log 18), and leaves the adoptions of its cut
slot to the next end of a presence window (DESIGN CHOICE, log 69). -/
def State.takeMark (s : State) (number length : Nat) (time : Option StoreTime) : State :=
  let s1 := s.bump .marksTaken
  let due := some (s.now + slotLength length)
  let s2 :=
    if s.labels.inStep number length then
      s1.withLabels fun l => { l with slotEnd := due, aligned := true, markLength := some length }
    else
      let cut := s1.cutTurns.withLabels fun l =>
        { l with cycle := number, slot := 0, length := length, slotEnd := due, aligned := true, markLength := some length }
      cut.ageClaims.beginSlot
  match time with
  | none => s2
  | some t => s2.timeFromMark t

/-- A CYCLE-MARK is judged (R106). -/
def State.judgeMark (s : State) (src : Station) (number length : Nat) (time : Option StoreTime) : State :=
  if s.labels.reference = some src ∧ (length = 16 ∨ length = 64 ∨ length = 256) then s.takeMark number length time
  else s.bump .marksIgnored

/-! ### Presences (R112, R113, R95) -/

/-- A sample and the cycle are taken into the hearing fields (R112). -/
def Hearing.sample (h : Hearing) (x : Int) (cycle stamp : Nat) : Hearing :=
  { h with smoothed := some (smooth h.smoothed x), lastCycle := cycle, stamp := stamp }

/-- The owner a HEARD entry names; a change makes the owner's reported level absent (R109). -/
def Hearing.named (h : Hearing) (n : Station) : Hearing :=
  if h.owner = n then h else { h with owner := n, ownerLevel := none }

/-- A presence's display for a SHOWING or UPDATE-DUE label (R113). A label adopted when LOST keeps the display it has
(DEDUCED, log 26). -/
def Owned.takeDisplay (o : Owned) (d : Display) (now : Nat) : Owned :=
  match o.state with
  | .showing => if d = o.display then o else ({ o with display := d } : Owned).settled now
  | .updateDue _ => { o with display := d }
  | .sent _ => o
  | .moving _ => o
  | .lost => o

/-- A presence that names this station, for its OWNED label, after its battery state: revival (R95) or comparison
(R113). -/
def State.presenceOwn (s : State) (p : PresencePacket) (o : Owned) : State :=
  match o.state with
  | .lost =>
    (s.putOwned p.label { o with display := p.display, attempts := 0, state := .updateDue s.now }).floorReportOpt o.bound
  | .showing => s.putOwned p.label (o.takeDisplay p.display s.now)
  | .updateDue _ => s.putOwned p.label (o.takeDisplay p.display s.now)
  | .sent _ => s
  | .moving _ => s

/-- The claim test (R114). -/
def State.mayClaim (s : State) (h : Heard) : Bool :=
  let n := h.hearing.owner
  s.part == .running && s.labels.aligned && n != s.self
    && (s.peer n).kind == some .controller && (s.peer n).state == .alive
    && (match h.hearing.smoothed with
        | none => false
        | some x => decide (-300 ≤ x) && h.claimAge.all (fun a => decide (8 ≤ a))
            && h.hearing.ownerLevel.all fun y => decide (y + 4 * (s.settings.claimMargin : Int) ≤ x))

/-- Claim a HEARD label from its owner when the test allows (R114). -/
def State.claim (s : State) (label : Nat) (h : Heard) : State :=
  if s.mayClaim h then
    let s1 := s.putHeard label { h with claimAge := some 0, claimed := true }
    let (ans, s2) := s1.offer (Frame.new (some h.hearing.owner)
      (.labelClaim label s.self s.settings.labelChannel (h.hearing.smoothed.getD 0)) .label)
    s2.bump (if ans = .queued then .claimsSent else .claimsDropped)
  else s

/-- A presence for an OWNED entry, after its sample: its battery state is taken first, whatever station it names (R96,
R112). -/
def State.presenceOwned (s : State) (p : PresencePacket) (o : Owned) : State :=
  let s1 := s.takeBattery p.label p.battery
  let o1 := { o with battery := p.battery }
  if p.owner = s.self then s1.presenceOwn p o1
  else match o.state with
    | .moving m => if p.owner = m.claimant then s1.moveDone p.label o1 m else s1.dropOwned p.label p.owner
    | .showing => s1.dropOwned p.label p.owner
    | .updateDue _ => s1.dropOwned p.label p.owner
    | .sent _ => s1.dropOwned p.label p.owner
    | .lost => s1.dropOwned p.label p.owner

/-- A presence for a HEARD entry, after its sample and owner (R112). -/
def State.presenceHeard (s : State) (p : PresencePacket) (h : Heard) : State :=
  if p.owner = s.self then
    if p.orphan then s else (s.takeIn p.label p.display p.battery (shownArticle p.display) none .takenByPresence).2
  else if p.orphan then s
  else s.claim p.label h

/-- The smoothed level of a label's entry. -/
def State.levelOf (s : State) (label : Nat) : Option Int :=
  match s.owned label with
  | some o => o.hearing.smoothed
  | none =>
    match s.heard label with
    | some h => h.hearing.smoothed
    | none => none

/-- R110 would find room for a label (R118). -/
def State.roomFor (s : State) (label : Nat) : Bool :=
  (s.owned label).isSome || (s.heard label).isSome || s.hasRoom

/-- An orphan's presence is answered with an adoption MOVE (R118). -/
def State.answerOrphan (s : State) (p : PresencePacket) : State :=
  if s.part == .running && s.labels.aligned && s.roomFor p.label
      && (s.levelOf p.label).any (fun x => decide (-340 ≤ x)) then
    (s.emit (.radio (.move none p.label s.self s.settings.labelChannel 0))).withLabels fun l =>
      { l with adoptions := l.adoptions ++ [{ presence := p, cycle := l.cycle, stamp := l.stamp, ack := none }] }
  else s

/-- A presence of a label with no entry: a HEARD entry is created where there is room (R112). -/
def State.newHeard (s : State) (p : PresencePacket) : Bool × State :=
  let (ok, s1) := s.makeRoom
  if ok then
    (true, s1.putHeard p.label
      { hearing := { smoothed := none, lastCycle := s.labels.cycle, owner := p.owner, ownerLevel := none, stamp := 0 }
        claimAge := none, claimed := false })
  else (false, s1.bump (if p.owner = s.self then .turnedAway else .presencesIgnored))

/-- A presence is taken for the entry it has (R112), and the orphan rule is then applied (R118). -/
def State.takePresence (s : State) (p : PresencePacket) : State :=
  let stamp := s.labels.stamp + 1
  let s1 := (s.withLabels fun l => { l with stamp := stamp }).bump .presencesTaken
  let s2 :=
    match s1.owned p.label with
    | some o =>
      let o1 := { o with hearing := o.hearing.sample p.level s1.labels.cycle stamp }
      (s1.putOwned p.label o1).presenceOwned p o1
    | none =>
      match s1.heard p.label with
      | some h =>
        let h1 := { h with hearing := (h.hearing.sample p.level s1.labels.cycle stamp).named p.owner }
        (s1.putHeard p.label h1).presenceHeard p h1
      | none => s1
  if p.orphan then s2.answerOrphan p else s2

/-- PRESENCE_RECEIVED (R112). -/
def execPresenceReceived (p : PresencePacket) (s : State) : Host.Outcome State Fault Refusal :=
  .next <|
    if s.live && s.serving && s.settings.labelService then
      if (s.owned p.label).isSome || (s.heard p.label).isSome then s.takePresence p
      else
        let (ok, s1) := s.newHeard p
        if ok then s1.takePresence p else s1
    else s

/-! ### Adoption (R119) -/

/-- The LABEL-ADOPTED frame of an adopted label (R119). -/
def State.announceAdopted (s : State) (label : Nat) : State :=
  match s.owned label with
  | none => s
  | some o => s.send (Frame.new none (.labelAdopted label s.self o.display) .label)

/-- A HEARD entry takes a station as its owner (R119). -/
def State.setOwner (s : State) (label : Nat) (n : Station) : State :=
  match s.heard label with
  | none => s
  | some h => s.putHeard label { h with hearing := h.hearing.named n }

/-- Another station has adopted a label (R119). -/
def State.adoptedElsewhere (s : State) (label : Nat) (n : Station) : State :=
  match s.owned label with
  | some _ => s.dropOwned label n
  | none => s.setOwner label n

/-- The hearing fields that the presence of an adoption gives a label whose HEARD entry has given way since (R110,
R112). -/
def Adoption.hearing (a : Adoption) : Hearing :=
  { smoothed := some (clampLevel a.presence.level), lastCycle := a.cycle, owner := a.presence.owner, ownerLevel := none
    stamp := a.stamp }

/-- The outcome of one adoption MOVE at the end of its presence window (R119). -/
def State.endAdoption (s : State) (a : Adoption) : State :=
  match a.ack with
  | none => s
  | some n =>
    if n = s.self then
      match s.owned a.presence.label with
      | some o =>
        (s.putOwned a.presence.label { o.takeDisplay a.presence.display s.now with attempts := 0 }).announceAdopted
          a.presence.label
      | none =>
        let (ok, s1) := s.takeIn a.presence.label a.presence.display a.presence.battery
          (shownArticle a.presence.display) a.hearing .takenByAdoption
        if ok then s1.announceAdopted a.presence.label else s1
    else s.adoptedElsewhere a.presence.label n

/-- PRESENCE_WINDOW_END (R119): the adoptions are settled in the order in which their MOVEs were sent (DESIGN CHOICE,
log 69). -/
def execPresenceWindowEnd (s : State) : Host.Outcome State Fault Refusal :=
  .next <|
    if s.live && s.serving then
      s.labels.adoptions.foldl (fun s a => s.endAdoption a) (s.withLabels fun l => { l with adoptions := [] })
    else s

/-! ### Claims, refusals, handovers (R115, R117) -/

/-- What a LABEL-CLAIM is answered: refused with a level or none, or accepted (R115). -/
inductive ClaimAnswer where
  | refuse (level : Option Int)
  | accept (o : Owned)
deriving DecidableEq, Repr

/-- The tests of a LABEL-CLAIM (R115). -/
def State.judgeClaim (s : State) (label : Nat) (level : Int) : ClaimAnswer :=
  if !s.settings.labelService || s.part != .running then .refuse none
  else match s.owned label with
    | none => .refuse none
    | some o =>
      match o.hearing.smoothed with
      | none => .refuse none
      | some x =>
        if o.state = .showing ∧ x + 4 * (s.settings.claimMargin : Int) ≤ level then .accept o else .refuse (some x)

/-- A received LABEL-CLAIM from station `c` (R115). -/
def State.takeClaim (s : State) (c : Station) (label channel : Nat) (level : Int) : State :=
  let s1 := s.bump .claimsReceived
  if s.part = .listenOnly then s1
  else match s.judgeClaim label level with
    | .refuse y => (s1.bump .claimsRefused).refuseClaim label c y
    | .accept o =>
      s1.putOwned label
        { o with state := .moving { claimant := c, channel := channel, level := level, inAir := false }, attempts := 0 }

/-- A received LABEL-REFUSE from station `t` (R117). -/
def State.takeRefusal (s : State) (t : Station) (label : Nat) (level : Option Int) : State :=
  match s.heard label with
  | none => s
  | some h =>
    if h.hearing.owner = t then
      s.putHeard label
        { h with claimed := false
                 hearing := match level with
                   | none => h.hearing
                   | some y => { h.hearing with ownerLevel := some y } }
    else s

/-- A received LABEL-HANDOVER (R117). -/
def State.takeHandover (s : State) (r : Handover) : State :=
  match s.owned r.label with
  | some _ => s.bump .handoversIgnored
  | none => (s.takeIn r.label r.display r.battery r.bound none .takenByHandover).2

end Sys2Proof.Machine
end

