-- ==== Sys2Proof/Machine/Trunk.lean ====
section
/-! DEFINITION. The trunk controller (07): arbitration, attempts and outcomes, the hold line, reception, the peer table,
beacons, the station clash and LISTEN-ONLY. -/

namespace Sys2Proof.Machine

open Sys2Proof

/-! ### Outcomes (R123, R129, R138, R154, R211) -/

/-- A block is told that its frame was SENT, or was DROPPED or, for a frame it had kept, NOT-TAKEN (R123, R138). The outcome of a RESTART reply, which resets the part,
is taken by `State.outcome`. -/
def State.tell (s : State) (sent : Bool) (f : Frame) : State :=
  match f.purpose with
  | .beacon => s
  | .mark => s
  | .spot => s
  | .reports => (s.withBook fun b => { b with outstanding := false }).formReports
  | .shelfAnswer => s
  | .shelfQuestion => s
  | .label => s
  | .share => if sent then s else s.bump .shareFramesLost
  | .reply _ => if sent then s else s.bump .repliesLost
  | .relayOut =>
    match f.body with
    | .relay p => if sent then s.relaySent true else s.relayLost true p
    | _ => s
  | .relayBack =>
    match f.body with
    | .relay p => if sent then s.relaySent false else s.relayLost false p
    | _ => s

/-- The frame is the reply to a RESTART (R211). -/
def Frame.restarts (f : Frame) : Bool := f.purpose == .reply true

/-- A block is told that its held frame has been QUEUED (R124, R154, R172, R188). -/
def State.notifyQueued (s : State) (f : Frame) : State :=
  match f.purpose with
  | .beacon => s
  | .mark => s
  | .spot => s
  | .reports => s
  | .shelfAnswer => s
  | .shelfQuestion => s
  | .label => s
  | .share => s.shareNext
  | .reply _ => s
  | .relayOut =>
    match f.body with
    | .relay p => if p = sessionParcel s.self s.link.attemptTag p.payload then s.toldQueued else s
    | _ => s
  | .relayBack => s

/-- A block hands over the frames it kept behind its held frame, in the order it formed them, until one is held again
(R124): the frames that have been QUEUED, and the state after. `fuel` bounds their number. -/
def serveKept (b : Sender) (c : TrunkClass) : Nat → State → List Frame × State
  | 0, s => ([], s)
  | fuel + 1, s =>
    if (s.trunk.hold c).any fun g => g.sender == b then ([], s)
    else match s.trunk.keptBy b c with
      | [] => ([], s)
      | g :: _ =>
        let (ans, s1) := (s.withTrunk fun t => { t with kept := t.kept.erase g }).offer g
        if ans = .queued then
          let (gs, s2) := serveKept b c fuel s1
          (g :: gs, s2)
        else ([], s1)

/-- What follows when the frame `g` of queue `c` has been given a freed place: its block hands over the frames it kept
before any frame that it forms on being told QUEUED, so that none formed later goes in front of them, and the forwarding
unit then goes on with its relay-back list (R124, R154; log 31). -/
def State.afterQueued (s : State) (c : TrunkClass) (g : Frame) : State :=
  let (gs, s1) := serveKept g.sender c s.trunk.kept.length s
  let s2 := (g :: gs).foldl State.notifyQueued s1
  if g.sender = .forwarding ∧ c = .bulk then drainRelayBack s2.fwd.relayBack s2 else s2

/-- The front frame of queue `c` leaves, and the oldest held frame, if any, takes the freed place (R123, R124). -/
def Trunk.popAdmit (t : Trunk) (c : TrunkClass) : Option Frame × Trunk :=
  let t1 := { t.setQueue c ((t.queue c).drop 1) with inAir := none }
  match t1.hold c with
  | [] => (none, t1)
  | g :: h => (some g, (t1.setQueue c (t1.queue c ++ [g])).setHold c h)

/-- A frame leaves its queue with an outcome (R129): its place is given to the hold line, its block is told the outcome,
and then the admitted frame's block is told QUEUED. The outcome of a RESTART reply resets the part (R211). -/
def State.outcome (s : State) (c : TrunkClass) (f : Frame) (sent : Bool) : State :=
  if f.restarts then s.enterStarting .restart
  else
    let (admitted, t) := s.trunk.popAdmit c
    let s1 := (s.withTrunk fun _ => t).tell sent f
    match admitted with
    | none => s1
    | some g => s1.afterQueued c g

/-! ### Beginning and ending a frame (R125 to R129) -/

/-- The class bits and source bits as one number: the lower wins (R125). -/
def headerValue (h : Header) : Nat := classCode h.cls * 16 + h.src.val

/-- The queue whose front frame is offered (R126). -/
def Trunk.offered (t : Trunk) : Option (TrunkClass × Frame) :=
  match t.urgent, t.notice, t.bulk with
  | f :: _, _, _ => some (.urgent, f)
  | [], f :: _, _ => some (.notice, f)
  | [], [], f :: _ => some (.bulk, f)
  | [], [], [] => none

/-- TRUNK_FRAME_BEGIN (R125, R126): the station begins its front frame; `others` are the headers with which other stations
begin at the same moment. -/
def execTrunkFrameBegin (others : List Header) (s : State) : Host.Outcome State Fault Refusal :=
  .next <|
    if s.live && s.canSend && s.trunk.inAir.isNone then
      match s.trunk.offered with
      | none => s
      | some (c, f) =>
        if others.any fun h => decide (headerValue h < headerValue ⟨c, s.self⟩) then s.bump .arbitrationLosses
        else (s.withTrunk fun t => { t with inAir := some c }).emit (.trunkFrame s.self f)
    else s

/-- The count of frames sent of a class (R141). -/
def sentCount : TrunkClass → Count
  | .urgent => .sentUrgent
  | .notice => .sentNotice
  | .bulk => .sentBulk

/-- The attempt succeeded (R128). -/
def Frame.succeeds (f : Frame) (taken spoiled : Bool) : Bool := !spoiled && (f.dest.isNone || taken)

/-- An attempt of the front frame of queue `c` has ended (R128, R129). -/
def State.attemptEnd (s : State) (c : TrunkClass) (f : Frame) (rest : List Frame) (taken spoiled : Bool) : State :=
  if f.succeeds taken spoiled then (s.bump (sentCount c)).outcome c f true
  else
    let s1 := s.bump .failedAttempts
    if f.attempts + 1 < 4 then
      s1.withTrunk fun t => { t.setQueue c ({ f with attempts := f.attempts + 1 } :: rest) with inAir := none }
    else (s1.bump .framesDropped).outcome c f false

/-- TRUNK_ATTEMPT_END (R128, R129): `taken` and `spoiled` tell which slots any station asserted. -/
def execTrunkAttemptEnd (taken spoiled : Bool) (s : State) : Host.Outcome State Fault Refusal :=
  .next <|
    if s.live && s.canSend then
      match s.trunk.inAir with
      | none => s
      | some c =>
        match s.trunk.queue c with
        | [] => s
        | f :: rest => s.attemptEnd c f rest taken spoiled
    else s

/-! ### The end of the listening period (R207) and LISTEN-ONLY (R137, R138) -/

/-- Each block takes the end of the listening period (R25, R103, R150, R171, R207). -/
def State.endListening (s : State) : State :=
  s.listeningShelfCheck.judgeReference.judgeHolder.takeEarlyNotice

/-- The kept frames are handed over one after another and told NOT-TAKEN, at which each block does what it does for a
frame DROPPED: an office reply, a share frame or a relayed parcel is counted as lost (R124, R138, R154, R188, R209). -/
def State.loseKept (s : State) (fs : List Frame) : State :=
  fs.foldl (fun s f => ((s.offer f).2).tell false f) s

/-- All frames of the trunk controller, queues first, then hold lines (R138). -/
def Trunk.frames (t : Trunk) : List Frame := t.urgent ++ t.notice ++ t.bulk ++ t.holdNotice ++ t.holdBulk

/-- Every frame is discarded on entry to LISTEN-ONLY and each block told DROPPED (R138); a share or a relay-back list in
progress goes on with frames that are not taken. -/
def State.dropAll (s : State) : State :=
  let fs := s.trunk.frames
  let kept := s.trunk.kept
  let s1 := s.withTrunk fun t =>
    { t with urgent := [], notice := [], bulk := [], holdNotice := [], holdBulk := [], kept := [], inAir := none
             beaconTimer := none }
  if (fs ++ kept).any Frame.restarts then s1.enterStarting .restart
  else
    let s2 := (fs.foldl (fun s f => s.tell false f) s1).loseKept kept
    let s3 := s2.shareNext
    drainRelayBack s3.fwd.relayBack s3

/-- The part goes to LISTEN-ONLY for a station clash (R137, R138). -/
def State.clash (s : State) : State :=
  let s1 := (s.recordAlert .stationClash .warn .self .nothing).withTrunk fun t => { t with clash := true }
  let s2 := { s1 with part := .listenOnly }.dropAll
  if s2.part = .starting then s2
  else if s.part = .listening then s2.endListening
  else s2.judgeReference.judgeHolder

/-! ### The peer table (R135, R136) -/

/-- A BEACON's update of its sender's slot (R135). -/
def Peer.takeBeacon (b : Beacon) (p : Peer) : Peer :=
  { p with kind := some b.kind, beacon := some b, labelService := b.labelService }

/-- A CYCLE-MARK's update of its sender's slot (R135). -/
def Peer.takeMark (p : Peer) : Peer := { p with kind := some (p.kind.getD .controller), labelService := true }

/-- The change of a slot of which the label radio controller and the forwarding unit are told (R103, R136). -/
def Peer.differs (p q : Peer) : Bool :=
  p.state != q.state || p.kind != q.kind || p.labelService != q.labelService || p.offer != q.offer

/-- A good frame from station `n` updates its slot, and the notices of R136 follow (R135). -/
def State.hear (s : State) (n : Station) (upd : Peer → Peer) : State :=
  let old := s.peer n
  let new := upd { old with state := .alive, timer := some (s.now + Config.seconds 4) }
  let s1 := s.withPeer n fun _ => new
  if old.differs new then s1.judgeReference.judgeHolder else s1

/-- PEER_SILENT (R136, R209): the slot becomes SILENT and the station's command memory place is emptied. -/
def execPeerSilent (n : Station) (s : State) : Host.Outcome State Fault Refusal :=
  .next <|
    let p := s.peer n
    match p.timer with
    | none => s
    | some due =>
      if s.live && s.serving && p.state == .alive then
        let s1 := (s.reach due).withPeer n fun p => { p with state := .silent, timer := none }
        let s2 := s1.withCommands fun c => { c with places := c.places.set n.val none n.isLt }
        let sev : Severity := if p.kind = some .controller then .warn else .info
        ((s2.recordAlert .peerSilent sev (.station n) .nothing).judgeReference).judgeHolder
      else s

/-! ### Reception (R127, R131, R132) -/

/-- The taken slot is asserted where the part state allows (R127). -/
def State.assertTaken (s : State) : State := if s.canSend then s.emit .takenSlot else s

/-- A frame with a good check is received (R131 steps 1, 3 to 6, R132): `toAll` tells that its kind is for ALL, `ok` that
its payload agrees with its kind, `upd` what its kind does to its sender's slot, `deliver` what its block does. -/
def State.receive (s : State) (f : FrameHead) (toAll ok : Bool) (upd : Peer → Peer) (deliver : State → State) : State :=
  if !(s.live && s.serving) then s
  else if f.src = s.self then s.bump .ownNumberFrames
  else
    let s1 := s.hear f.src upd
    match f.dest with
    | .nobody _ => s1.bump .malformedFrames
    | .station n =>
      if n = s1.self then
        if !toAll && ok then deliver s1.assertTaken else s1.assertTaken.bump .malformedFrames
      else s1
    | .all => if toAll && ok then deliver s1.assertTaken else s1.assertTaken.bump .malformedFrames

/-- A frame of a kind that updates no more of its sender's slot than its state and timer is received. -/
def State.receivePlain (s : State) (f : FrameHead) (toAll ok : Bool) (deliver : State → State) : State :=
  s.receive f toAll ok id deliver

/-- TRUNK_FRAME_BAD_CHECK (R131 step 2): the frame is counted and the spoiled slot asserted where the part state allows. -/
def execTrunkFrameBadCheck (s : State) : Host.Outcome State Fault Refusal :=
  .next <|
    if s.live && s.serving then
      let s1 := s.bump .checkErrors
      if s1.canSend then s1.emit .spoiledSlot else s1
    else s

/-- A BEACON bearing this station's own number (R131 step 3, R137). -/
def State.ownBeacon (s : State) : State := if s.canSend then s.clash else s.bump .ownNumberFrames

/-- BEACON_RECEIVED (R131, R135, R137). Every label channel and offer that its bytes can hold is taken (DESIGN CHOICE,
log 63). -/
def execBeaconReceived (f : FrameHead) (b : Beacon) (s : State) : Host.Outcome State Fault Refusal :=
  .next <|
    if s.live && s.serving && f.src == s.self then s.ownBeacon
    else s.receive f true true (Peer.takeBeacon b) id

/-- What a frame addressed elsewhere does to its sender's slot (R135). -/
def slotUpdate : Overheard → Peer → Peer
  | .beacon b, p => p.takeBeacon b
  | .cycleMark, p => p.takeMark
  | .other, p => p

/-- The frame is a BEACON. -/
def isBeaconBody : Overheard → Bool
  | .beacon _ => true
  | .cycleMark => false
  | .other => false

/-- TRUNK_FRAME_OTHER_DEST (R131 steps 3 to 5): the peer table is updated and nothing delivered; a destination that names no
station is counted. -/
def execTrunkFrameOtherDest (f : FrameHead) (body : Overheard) (s : State) : Host.Outcome State Fault Refusal :=
  .next <|
    if !(s.live && s.serving) then s
    else if f.src = s.self then (if isBeaconBody body then s.ownBeacon else s.bump .ownNumberFrames)
    else
      let s1 := s.hear f.src (slotUpdate body)
      match f.dest with
      | .nobody _ => s1.bump .malformedFrames
      | .station _ => s1
      | .all => s1

/-- What a malformed frame does to its sender's slot beside its state and timer (R131 step 4, R135): a CYCLE-MARK is one
whatever its fields; the fields of a malformed BEACON are not read (log 57). -/
def malformedUpdate : MalformedKind → Peer → Peer
  | .beacon, p => p
  | .cycleMark, p => p.takeMark
  | .other, p => p

/-- MALFORMED_FRAME_RECEIVED (R131): a frame with a good check whose payload does not agree with its kind, or whose kind
code is none of the fifteen. A BEACON that bears this station's own number is taken by R137 before its payload is
tested. -/
def execMalformedFrameReceived (f : MalformedFrame) (s : State) : Host.Outcome State Fault Refusal :=
  .next <|
    if s.live && s.serving && f.src == s.self && f.kind == .beacon then s.ownBeacon
    else s.receive ⟨f.src, f.dest⟩ true false (malformedUpdate f.kind) id

/-- OFFICE_REPLY_RECEIVED (R132): counted as not for this part and discarded. -/
def execOfficeReplyReceived (f : FrameHead) (s : State) : Host.Outcome State Fault Refusal :=
  .next (s.receivePlain f false true fun s => s.bump .notForPart)

/-! ### Beacons (R134) -/

/-- This station's BEACON as its fields stand (R134). -/
def State.ownBeaconFields (s : State) : Beacon :=
  { kind := .controller, part := some s.part, mode := some s.unit.mode, labelService := s.settings.labelService
    labelChannel := s.settings.labelChannel, offer := s.uplinkOffer, heldSerial := s.link.held }

/-- Replace the first queued beacon that has had no attempt and is not being sent; nothing where there is none. -/
def replaceBeacon (new : Frame) : List Frame → Option (List Frame)
  | [] => none
  | f :: q =>
    if f.purpose = .beacon ∧ f.attempts = 0 then some (new :: q) else (replaceBeacon new q).map fun r => f :: r

/-- The URGENT queue after a new beacon replaces a queued one (R134). A frame being sent is not replaced (log 19). -/
def Trunk.replacedBeacon (t : Trunk) (new : Frame) : Option (List Frame) :=
  if t.inAir = some .urgent then (replaceBeacon new (t.urgent.drop 1)).map fun q => t.urgent.take 1 ++ q
  else replaceBeacon new t.urgent

/-- A new beacon is placed in the URGENT queue (R134). -/
def State.queueBeacon (s : State) : State :=
  let f := Frame.new none (.beacon s.ownBeaconFields) .beacon
  match s.trunk.replacedBeacon f with
  | some q => (s.withTrunk fun t => { t with urgent := q }).bump .beaconsReplaced
  | none =>
    let (ans, s1) := s.offer f
    if ans = .queued then s1 else s1.bump .beaconsMissed

/-- BEACON_TIMER_EXPIRY (R134). -/
def execBeaconTimerExpiry (s : State) : Host.Outcome State Fault Refusal :=
  .next <|
    match s.trunk.beaconTimer with
    | none => s
    | some due =>
      if s.live && s.canSend then
        ((s.reach due).withTrunk fun t => { t with beaconTimer := some (due + Config.seconds 1) }).queueBeacon
      else s

end Sys2Proof.Machine
end

