-- ==== Sys2Proof/Machine/Office.lean ====
section
/-! DEFINITION. Office commands (11 §11.3): the command memory, the replies, and the commands that read or change the
blocks. -/

namespace Sys2Proof.Machine

open Sys2Proof

/-! ### The command memory and the replies (R209, R211) -/

/-- A reply is handed to the trunk controller (R209). One told NOT-TAKEN is counted lost; that of a RESTART resets the part
at once (R211). -/
def State.giveReply (s : State) (dest : Station) (r : OfficeReply) (restart : Bool) : State :=
  let (ans, s1) := s.offer (Frame.new (some dest) (.officeReply r) (.reply restart))
  if ans = .notTaken then (if restart then s1.enterStarting .restart else s1.bump .repliesLost) else s1

/-- The command memory place of a station takes a reply with its tag (R209). -/
def State.remember (s : State) (n : Station) (r : OfficeReply) : State :=
  s.withCommands fun c => { c with places := c.places.set n.val (some r) n.isLt }

/-- The saved reply, when a command is a repeat (R209). -/
def CommandMemory.savedFor (c : CommandMemory) (n : Station) (tag : Nat) : Option OfficeReply :=
  match c.places.get n with
  | none => none
  | some r => if r.tag = tag then some r else none

/-- A command that is not a repeat is acted on and answered (R209). -/
def State.actOn (s : State) (h : OfficeHead) (kind : Nat) (restart : Bool) (act : State → OfficeOutcome × State) : State :=
  let (o, s1) := act s
  let r : OfficeReply := { tag := h.tag, kind := kind, outcome := o }
  (s1.remember h.src r).giveReply h.src r restart

/-- An OFFICE frame is handled (R209, R211). `kind` is the command kind of 12.7. -/
def State.command (s : State) (h : OfficeHead) (kind : Nat) (restart : Bool) (act : State → OfficeOutcome × State) : State :=
  if s.commands.restarting then s.bump .commandsDiscarded
  else match s.commands.savedFor h.src h.tag with
    | some r => (s.bump .commandsRepeated).giveReply h.src r false
    | none => s.actOn h kind restart act

/-- An OFFICE frame is received (R132, R209). -/
def State.office (s : State) (h : OfficeHead) (kind : Nat) (act : State → OfficeOutcome × State) : State :=
  s.receivePlain ⟨h.src, h.dest⟩ false true fun s => s.command h kind false act

/-! ### What the commands do -/

/-- SPOT-PRICE (R3): a record that carries a file serial is refused BAD-RECORD (R209). The PRICE-CHANGE of an applied record
is handed over before the reply (DESIGN CHOICE, log 67). -/
def State.actSpot (r : ChangeRecord) (s : State) : OfficeOutcome × State :=
  if r.fileSerial ≠ 0 then (.refused .badRecord, s.bump .badRecords)
  else
    let (a, s1) := s.applyRecord r
    match a with
    | .applied =>
      let st := match s1.entry r.article with
        | some e => OfficeData.entryState e.state
        | none => .nothing
      (.done st, s1.send (Frame.new none (.priceChange 0 0 [r]) .spot))
    | .stale => (.refused .stale, s1)
    | .bookFull => (.refused .bookFull, s1)
    | .badRecord => (.refused .badRecord, s1)
    | .kindMismatch => (.refused .kindMismatch, s1)

/-- READ-ENTRY (R210). -/
def State.actReadEntry (article : Nat) (s : State) : OfficeOutcome × State :=
  match (if articleOk article then s.entry article else none) with
  | none => (.refused .unknownItem, s)
  | some e => (.done (.entry article e), s)

/-- RUN-SESSION (R170). -/
def State.actRunSession (s : State) : OfficeOutcome × State :=
  match s.keyRefusal with
  | some r => (.refused r, s)
  | none => (.done .nothing, s.startAttempt .key)

/-- RESTART (R211): from now on the part takes no further command. -/
def State.actRestart (s : State) : OfficeOutcome × State :=
  (.done .nothing, s.withCommands fun c => { c with restarting := true })

/-! ### The figures of READ-COUNTS (R210) -/

/-- The counts of a list. -/
def State.countsOf (s : State) (l : List Count) : List Nat := l.map s.count

/-- The counts of R141, in its order. -/
def trunkCounts : List Count :=
  [.sentUrgent, .sentNotice, .sentBulk, .failedAttempts, .framesDropped, .notTakenUrgent, .notTakenNotice, .notTakenBulk,
   .framesWaited, .arbitrationLosses, .checkErrors, .malformedFrames, .ownNumberFrames, .notForPart, .beaconsReplaced,
   .beaconsMissed]

/-- The counts of R24, in its order. -/
def bookCounts : List Count :=
  [.recordsApplied, .recordsStale, .fullBookRefused, .badRecords, .reportsDropped, .forcedChangeovers]

/-- The counts of R75, in its order. -/
def journalCounts : List Count := [.appendsTaken, .appendsRefused, .recordsRemoved, .mismatches, .clearings]

/-- The counts of R101, in its order. -/
def labelCounts : List Count :=
  [.showsSent, .blanksSent, .acksTaken, .unansweredAttempts, .attemptsCutShort, .labelsLost, .strayAcks]

/-- The counts of R120, in its order. -/
def sharedCounts : List Count :=
  [.marksSent, .marksNotSent, .marksTaken, .marksIgnored, .presencesTaken, .presencesIgnored, .heardRemoved, .claimsSent,
   .claimsDropped, .claimsReceived, .claimsRefused, .handoversSent, .takenByHandover, .takenByAdoption, .takenByPresence,
   .turnedAway, .dropsToHeard, .failedMoves]

/-- The counts of R165, in its order. -/
def forwardingCounts : List Count :=
  [.uplinkTill, .uplinkOffice, .uplinkGuest, .tillBusy, .tillNoRoute, .relayedOut, .relayedInTill, .relayedInOffice,
   .relayedInGuest, .relayedBack, .undeliverable, .malformedParcels, .repliesNoEntry, .lostAtUplinkLoss, .droppedByMode,
   .guestQueueFull, .guestNoRoute, .guestRelayRefused, .isolationDrops, .budgetDrops, .rejections, .evictions,
   .unknownGuestReplies, .guestsRemovedByMode, .holderChanges]

/-- The counts of R189, in its order. -/
def sessionCounts : List Count :=
  [.startedWindow, .startedKey, .startedEarly, .attemptsCompleted, .attemptsFailed, .startsIgnored, .staleMessages,
   .unexpectedMessages, .batchesAcknowledged, .foreignRecords, .filesTaken, .filesFailed, .filesRefused, .filesSkipped,
   .trunkFramesIgnored, .trunkFilesTaken, .trunkFilesFailed, .filesReleased, .shareFramesLost]

/-- The counts of R204, in its order. -/
def modeCounts : List Count :=
  [.setByMark, .setByOffice, .setByAccept, .settingsIgnored, .modeChanges, .overridesGiven, .overridesEnded,
   .mainsNotQualified, .alertsRecorded, .ackedAlertsRemoved, .alertOverflow]

/-- What READ-COUNTS shows of a lane (R49). -/
def Lane.figures (x : Lane) : LaneFigures :=
  { state := x.state, awaiting := x.flight.isSome, basketOpen := x.basket.isSome
    basketTotalled := x.basket.any fun b => b.result.isSome
    checkErrors := x.checkErrors, oversize := x.oversize, lateReplies := x.lateReplies }

/-- The age of the oldest label of the update list, in whole seconds, and 0 while the list is empty (R101; both are DESIGN
CHOICE, log 54). -/
def State.oldestAge (s : State) : Nat :=
  match s.updates with
  | [] => 0
  | x :: _ => (s.now - x.1) / 1000000

/-- The figures of a group, numbered as 12.7 numbers them (R210). -/
def State.figures (s : State) : Nat → Option Figures
  | 1 => some (.start s.part s.settings s.clamped s.cause
      (s.countsOf [.commandsRepeated, .repliesLost, .commandsDiscarded]))
  | 2 =>
    let t := s.trunk
    some (.trunk (s.countsOf trunkCounts)
      [t.urgent.length, t.notice.length, t.bulk.length, t.holdNotice.length, t.holdBulk.length] t.peers.toList s.part
      t.clash)
  | 3 => some (.priceBook (s.countsOf bookCounts))
  | 4 => some (.lanes (s.lanes.toList.map Lane.figures) (s.countsOf [.basketsCancelled, .basketsAbandoned]))
  | 5 =>
    let j := s.journal
    some (.journal (s.countsOf journalCounts) j.records.length j.unsent ((j.records.head?.map (·.serial)).getD 0)
      j.lastIssued j.high)
  | 6 =>
    let l := s.labels
    some (.labels (s.countsOf labelCounts) l.owned.length (l.owned.filter fun e => e.2.state == .lost).length
      s.updates.length s.oldestAge l.cycle l.length (s.countsOf sharedCounts) l.heard.length l.reference l.aligned)
  | 7 =>
    let w := s.fwd
    some (.forwarding (s.countsOf forwardingCounts) w.up s.uplinkOffer (bytesOf w.till) (bytesOf w.office)
      (bytesOf w.guest) (bytesOf w.relayBack) w.heldParcel.isSome w.holder w.pendingTable.length w.guests.length
      (w.guests.filter (·.capped)).length)
  | 8 =>
    let l := s.link
    let g := s.staging
    some (.session (s.countsOf sessionCounts) l.state l.attemptCount l.windowDay l.cut l.window l.held g.owner g.phase
      g.serial g.count g.records.length)
  | 9 =>
    let u := s.unit
    some (.mode (s.countsOf modeCounts) u.lines.toList u.mains (u.asserted .closeKey) u.override u.schedule u.mode u.clock)
  | _ => none

/-- READ-COUNTS (R210). -/
def State.actReadCounts (group : Nat) (s : State) : OfficeOutcome × State :=
  match s.figures group with
  | none => (.refused .badValue, s)
  | some f => (.done (.figures f), s)

/-! ### The commands -/

/-- READ_ENTRY (R210). -/
def execReadEntry (h : OfficeHead) (article : Nat) (s : State) : Host.Outcome State Fault Refusal :=
  .next (s.office h 1 (State.actReadEntry article))

/-- SPOT_PRICE (R3). -/
def execSpotPrice (h : OfficeHead) (r : ChangeRecord) (s : State) : Host.Outcome State Fault Refusal :=
  .next (s.office h 2 (State.actSpot r))

/-- BIND (R81, R82). -/
def execBind (h : OfficeHead) (label article : Nat) (s : State) : Host.Outcome State Fault Refusal :=
  .next (s.office h 3 (State.actBind label article))

/-- UNBIND (R83). -/
def execUnbind (h : OfficeHead) (label : Nat) (s : State) : Host.Outcome State Fault Refusal :=
  .next (s.office h 4 (State.actUnbind label))

/-- READ_LABEL (R101). -/
def execReadLabel (h : OfficeHead) (label : Nat) (s : State) : Host.Outcome State Fault Refusal :=
  .next (s.office h 5 (State.actReadLabel label))

/-- SET_MODE (R195). -/
def execSetMode (h : OfficeHead) (code : Nat) (s : State) : Host.Outcome State Fault Refusal :=
  .next (s.office h 6 (State.actSetMode code))

/-- SET_TIME (R191). -/
def execSetTime (h : OfficeHead) (time : StoreTime) (s : State) : Host.Outcome State Fault Refusal :=
  .next (s.office h 7 (State.actSetTime time))

/-- RUN_SESSION (R170). -/
def execRunSession (h : OfficeHead) (s : State) : Host.Outcome State Fault Refusal :=
  .next (s.office h 8 State.actRunSession)

/-- READ_ALERTS (R202). -/
def execReadAlerts (h : OfficeHead) (first : Nat) (s : State) : Host.Outcome State Fault Refusal :=
  .next (s.office h 9 (State.actReadAlerts first))

/-- ACK_ALERT (R202). -/
def execAckAlert (h : OfficeHead) (serial : Nat) (s : State) : Host.Outcome State Fault Refusal :=
  .next (s.office h 10 (State.actAckAlert serial))

/-- READ_COUNTS (R210). -/
def execReadCounts (h : OfficeHead) (group : Nat) (s : State) : Host.Outcome State Fault Refusal :=
  .next (s.office h 11 (State.actReadCounts group))

/-- RESTART (R211). -/
def execRestart (h : OfficeHead) (s : State) : Host.Outcome State Fault Refusal :=
  .next (s.receivePlain ⟨h.src, h.dest⟩ false true fun s => s.command h 12 true State.actRestart)

/-- OFFICE_BAD_COMMAND (R209): an unknown kind, or arguments of a wrong length. -/
def execOfficeBadCommand (h : OfficeHead) (kind : Nat) (s : State) : Host.Outcome State Fault Refusal :=
  .next (s.office h kind fun s => (.badCommand, s))

end Sys2Proof.Machine
end

