-- ==== Sys2Proof/Machine/Received.lean ====
section
/-! DEFINITION. The trunk frames delivered to the price book unit, the label radio controller and the office link
controller (R132), each by the rule of its block. -/

namespace Sys2Proof.Machine

open Sys2Proof

/-! ### Label radio controller -/

/-- CYCLE_MARK_RECEIVED (R106, R135). -/
def execCycleMarkReceived (f : FrameHead) (number length : Nat) (time : Option StoreTime) (s : State) :
    Host.Outcome State Fault Refusal :=
  .next (s.receive f true true Peer.takeMark fun s => s.judgeMark f.src number length time)

/-- LABEL_CLAIM_RECEIVED (R115): the claimant is the frame's source (log 20). Every channel and level that its bytes can
hold is taken (DESIGN CHOICE, log 63). -/
def execLabelClaimReceived (f : FrameHead) (label : Nat) (_claimant : Station) (channel : Nat) (level : Int) (s : State) :
    Host.Outcome State Fault Refusal :=
  .next (s.receivePlain f false true fun s => s.takeClaim f.src label channel level)

/-- LABEL_REFUSE_RECEIVED (R117). -/
def execLabelRefuseReceived (f : FrameHead) (label : Nat) (level : Option Int) (s : State) :
    Host.Outcome State Fault Refusal :=
  .next (s.receivePlain f false true fun s => s.takeRefusal f.src label level)

/-- LABEL_HANDOVER_RECEIVED (R117); the table stands while label service is off (R79). -/
def execLabelHandoverReceived (f : FrameHead) (r : Handover) (s : State) : Host.Outcome State Fault Refusal :=
  .next (s.receivePlain f false true fun s => if s.settings.labelService then s.takeHandover r else s)

/-- LABEL_ADOPTED_RECEIVED (R119); the table stands while label service is off (R79). -/
def execLabelAdoptedReceived (f : FrameHead) (label : Nat) (adopter : Station) (_display : Display) (s : State) :
    Host.Outcome State Fault Refusal :=
  .next (s.receivePlain f true true fun s => if s.settings.labelService then s.adoptedElsewhere label adopter else s)

/-! ### Price book unit -/

/-- PRICE_CHANGE_RECEIVED (R3): the records of a frame with file serial 0 are applied in order. -/
def execPriceChangeReceived (f : FrameHead) (records : List ChangeRecord) (s : State) :
    Host.Outcome State Fault Refusal :=
  .next (s.receivePlain f true (frameRecordsOk records) fun s => s.applyRecords records)

/-- SHELF_DONE_RECEIVED (R14). -/
def execShelfDoneReceived (f : FrameHead) (reports : List Report) (s : State) : Host.Outcome State Fault Refusal :=
  .next (s.receivePlain f true (reportsOk reports) fun s => reports.foldl (fun s r => s.takeDone f.src r) s)

/-- SHELF_QUERY_RECEIVED (R16). -/
def execShelfQueryReceived (f : FrameHead) (reports : List Report) (s : State) : Host.Outcome State Fault Refusal :=
  .next (s.receivePlain f false (reportsOk reports) fun s => s.answerQuery f.src reports)

/-- SHELF_PENDING_RECEIVED (R17). -/
def execShelfPendingReceived (f : FrameHead) (reports : List Report) (s : State) : Host.Outcome State Fault Refusal :=
  .next (s.receivePlain f false (reportsOk reports) fun s => reports.foldl (fun s r => s.takePending f.src r) s)

/-! ### Office link controller (R185, R186) -/

/-- The staging list is a collection of file `serial` from trunk station `n` (R185, R186). -/
def Staging.collects (g : Staging) (n : Station) (serial : Nat) : Bool :=
  g.owner == .trunk && g.phase == .collecting && g.source == some n && g.serial == serial

/-- A FILE-ANNOUNCE (R185). One from the list's source with the list's serial is of the same file whatever its count and
check (DESIGN CHOICE, log 81), and is not counted (log 32). -/
def State.takeAnnounce (s : State) (n : Station) (serial count check : Nat) : State :=
  let s1 := s.withLink fun l => { l with announce := some (serial, s.now) }
  if s.staging.owner = .none ∧ s.link.held < serial ∧ count ≤ Config.stagingCapacity then
    s1.withStaging fun _ =>
      { Staging.empty with
        owner := .trunk, serial := serial, source := some n, count := some count, check := some check, lastFrame := s.now }
  else if s.staging.collects n serial then s1.withStaging fun g => { g with lastFrame := s.now }
  else s1.bump .trunkFramesIgnored

/-- A PRICE-CHANGE frame of a file (R186). -/
def State.takeFileFrame (s : State) (n : Station) (serial first : Nat) (rs : List ChangeRecord) : State :=
  if s.staging.collects n serial then (storeRecords first rs s).withStaging fun g => { g with lastFrame := s.now }
  else s.bump .trunkFramesIgnored

/-- A trunk file is discarded, and the announce memory cleared when it holds that file's serial (R186). -/
def State.dropTrunkFile (s : State) : State :=
  let serial := s.staging.serial
  ((s.withStaging fun _ => Staging.empty).bump .trunkFilesFailed).withLink fun l =>
    { l with announce := match l.announce with
        | none => none
        | some (n, t) => if n = serial then none else some (n, t) }

/-- A FILE-CLOSE (R186). -/
def State.takeFileClose (s : State) (n : Station) (serial count check : Nat) : State :=
  if s.staging.collects n serial && s.staging.count == some count && s.staging.check == some check then
    if s.staging.passes then (s.bump .trunkFilesTaken).beginRelease else s.dropTrunkFile
  else s.bump .trunkFramesIgnored

/-- FILE_PRICE_CHANGE_RECEIVED (R186); a frame whose serial is 0 belongs to no file and goes to the price book unit (R3). -/
def execFilePriceChangeReceived (f : FrameHead) (serial firstIndex : Nat) (records : List ChangeRecord) (s : State) :
    Host.Outcome State Fault Refusal :=
  .next (s.receivePlain f true (frameRecordsOk records) fun s =>
    if serial = 0 then s.applyRecords records else s.takeFileFrame f.src serial firstIndex records)

/-- FILE_ANNOUNCE_RECEIVED (R185). -/
def execFileAnnounceReceived (f : FrameHead) (serial count check : Nat) (s : State) : Host.Outcome State Fault Refusal :=
  .next (s.receivePlain f true true fun s => s.takeAnnounce f.src serial count check)

/-- FILE_CLOSE_RECEIVED (R186). -/
def execFileCloseReceived (f : FrameHead) (serial count check : Nat) (s : State) : Host.Outcome State Fault Refusal :=
  .next (s.receivePlain f true true fun s => s.takeFileClose f.src serial count check)

/-- TRUNK_COLLECTION_TIMEOUT (R186). -/
def execTrunkCollectionTimeout (s : State) : Host.Outcome State Fault Refusal :=
  .next <|
    if s.live && s.serving && s.staging.owner == .trunk && s.staging.phase == .collecting then
      (s.reach (s.staging.lastFrame + Config.seconds 60)).dropTrunkFile
    else s

end Sys2Proof.Machine
end

