-- ==== Sys2Proof/Machine/Relay.lean ====
section
/-! DEFINITION. The forwarding unit's commands on its uplink and its relays (08). -/

namespace Sys2Proof.Machine

open Sys2Proof

/-- A parcel travelling back to this station is delivered by port (R153): to the lanes by way of the pending table, to the
office link controller as a message, or to the guest port. The status NO-ROUTE or BUSY of a parcel that is no lane's is
not read (DESIGN CHOICE, log 58). -/
def State.deliverBack (s : State) (p : Parcel) : State :=
  match p.port with
  | .lane l => s.pendingOutcome l p.tag (laneReplyOf p)
  | .session => s.message p.tag (messageOf p.payload)
  | .guest => s.guestReply p

/-- A RELAY frame's parcel reaches the forwarding unit (R143, R144, R152, R153). -/
def State.takeRelay (s : State) (p : Parcel) : State :=
  if !parcelOk p then s.bump .malformedParcels
  else if s.part = .listenOnly then s.bump .undeliverable
  else if p.origin = s.self then s.deliverBack p
  else s.carryOut p

/-- RELAY_RECEIVED (R140, R152, R153); a payload above 1,500 bytes fails the trunk's length test. -/
def execRelayReceived (f : FrameHead) (p : Parcel) (s : State) : Host.Outcome State Fault Refusal :=
  .next (s.receivePlain f false (decide (p.payload.length ≤ 1500)) fun s => s.takeRelay p)

/-- The carrier has come, and the uplink state becomes UP (R145). -/
def State.uplinkUp (s : State) : State := ((s.withFwd fun w => { w with up := true }).judgeHolder).transmit

/-- The carrier has gone, and the uplink state becomes DOWN (R145, R148). -/
def State.uplinkDown (s : State) : State := ((s.uplinkLost).sessionEvent .pathLost).judgeHolder

/-- UPLINK_CARRIER_CHANGE (R145): the carrier is an input and is held whatever the part does. -/
def execUplinkCarrierChange (present : Bool) (s : State) : Host.Outcome State Fault Refusal :=
  .next <|
    let s1 := { s with carrier := present }
    if s.live && s.serving && s.settings.uplinkPresent && present != s.fwd.up then
      if present then s1.uplinkUp else s1.uplinkDown
    else s1

/-- The count of parcels sent on the uplink, by class (R165). -/
def uplinkCount : ParcelClass → Count
  | .till => .uplinkTill
  | .office => .uplinkOffice
  | .guest => .uplinkGuest

/-- A TILL parcel of this station's lanes has been sent: its pending table entry records it (R147). -/
def State.recordSent (s : State) (p : Parcel) : State :=
  if p.cls = .till ∧ p.origin = s.self then
    match p.port with
    | .lane l =>
      match AMap.get s.fwd.pendingTable l.val with
      | none => s
      | some e => if e.count = p.tag then s.addPending l e.count (.local true) else s
    | .session => s
    | .guest => s
  else s

/-- UPLINK_SEND_END (R147, R146): the parcel has left the part, the transmitter chooses the next, and a held session
parcel joins its queue when it now fits. -/
def execUplinkSendEnd (s : State) : Host.Outcome State Fault Refusal :=
  .next <|
    match s.fwd.sending with
    | none => s
    | some (p, due) =>
      if s.live && s.serving then
        let s1 := ((s.reach due).withFwd fun w => { w with sending := none }).emit (.uplink p)
        (((s1.bump (uplinkCount p.cls)).recordSent p).transmit).serveHeld
      else s

/-- UPLINK_PARCEL_RECEIVED (R143, R144, R153): head office's replies have the status DATA. -/
def execUplinkParcelReceived (p : Parcel) (s : State) : Host.Outcome State Fault Refusal :=
  .next <|
    if s.live && s.serving then
      if !parcelOk p || p.status != .data then s.bump .malformedParcels
      else if p.origin = s.self then s.deliverBack p
      else s.sendBack p
    else s

end Sys2Proof.Machine
end

