-- ==== Sys2Proof/Machine/Pricing.lean ====
section
/-! DEFINITION. The pricing unit (03): line amounts, markdowns, the lesser-of rule, limits, multibuy deals and cash
rounding. It holds nothing between requests (R51). -/

namespace Sys2Proof.Machine

open Sys2Proof

/-- The base amount under a terms set: R52 for EACH and MULTI, R53 for WEIGHED. -/
def baseAmount (kind : ArticleKind) (t : Terms) (quantity : Nat) : Nat :=
  match kind with
  | .each => t.price * quantity
  | .multi => t.price * quantity
  | .weighed => (t.price * quantity + 500) / 1000

/-- A base amount reduced by a markdown of `m` percent, the deduction rounded half up (R54). -/
def markedDown (a m : Nat) : Nat := a - (a * m + 50) / 100

/-- The line amount: the lesser of the reduced amounts under the current and, when present, the pending terms (R55). -/
def lineAmount (r : TermsRecord) (quantity markdown : Nat) : Nat :=
  let now := markedDown (baseAmount r.kind r.current quantity) markdown
  match r.pending with
  | none => now
  | some (t, _) => min now (markedDown (baseAmount r.kind t quantity) markdown)

/-- The greatest line amount (R56). -/
def lineMax : Nat := 9999999
/-- The greatest running total (R57). -/
def runningMax : Nat := 99999999

/-- The line request: the line amount and the new running total, or nothing for OVERLIMIT (R51, R56, R57). -/
def priceLine (r : TermsRecord) (quantity markdown running : Nat) : Option (Nat × Nat) :=
  let a := lineAmount r quantity markdown
  if a ≤ lineMax ∧ running + a ≤ runningMax then some (a, running + a) else none

/-- The lines that take part in an article's deal: live, of that article, without a markdown (R58). -/
def qualifying (article : Nat) (lines : List Line) : List Line :=
  lines.filter fun l => !l.void && l.article == article && l.markdown == 0

/-- The effective group price under a terms set (R59). -/
def groupPrice (t : Terms) : Nat := min t.groupPrice (t.groupSize * t.price)

/-- The cost of `q` articles under the group offer of a terms set (R59). -/
def dealCost (t : Terms) (q : Nat) : Nat := q / t.groupSize * groupPrice t + q % t.groupSize * t.price

/-- The charge for an article's qualifying lines of total count `q` and amount `p` (R60). -/
def dealCharge (r : TermsRecord) (q p : Nat) : Nat :=
  let now := min p (dealCost r.current q)
  match r.pending with
  | none => now
  | some (t, _) => min now (dealCost t q)

/-- The sum of the counts of lines. -/
def sumQuantity (lines : List Line) : Nat := (lines.map (·.quantity)).sum

/-- The sum of the amounts of lines. -/
def sumAmount (lines : List Line) : Nat := (lines.map (·.amount)).sum

/-- The deal reduction of one article's terms record: 0 unless it is MULTI (R58, R60). -/
def dealReduction (lines : List Line) (r : TermsRecord) : Nat :=
  match r.kind with
  | .each => 0
  | .weighed => 0
  | .multi =>
    let ls := qualifying r.article lines
    sumAmount ls - dealCharge r (sumQuantity ls) (sumAmount ls)

/-- The total request: TOTAL and the deal reduction (R61). -/
def priceTotal (b : Basket) : Nat × Nat :=
  let red := (b.terms.map (dealReduction b.lines)).sum
  (b.running - red, red)

/-- The amount due for a tender (R62). -/
def amountDue (cashStep total : Nat) (t : Tender) : Nat :=
  match t with
  | .cash => cashStep * ((total + cashStep / 2) / cashStep)
  | .card => total
  | .other => total

end Sys2Proof.Machine
end

