-- ==== Sys2Proof/Machine/Lanes.lean ====
section
/-! DEFINITION. The lane controller (02): the lane protocol, the baskets, and the commands of the tills. -/

namespace Sys2Proof.Machine

open Sys2Proof

/-! ### Lane frames and replies (R27 to R33) -/

/-- A good frame on a lane: the lane goes to UP and its 10 s timer restarts (R27). -/
def State.goodFrame (s : State) (l : LaneNo) : State :=
  s.withLane l fun x => { x with state := .up, timer := some (s.now + Config.seconds 10) }

/-- A reply is sent and saved, and the request's bit and kind become the last ones (R30, R33). -/
def State.answer (s : State) (l : LaneNo) (bit : Bool) (k : RequestKind) (r : LaneReply) : State :=
  (s.withLane l fun x => { x with last := some (bit, k, r), restart := false }).emit (.laneReply l bit r)

/-- The saved reply, when a request is a repeat (R31). -/
def Lane.savedFor (x : Lane) (bit : Bool) (k : RequestKind) : Option LaneReply :=
  match x.last with
  | none => none
  | some (b, k', r) => if b = bit ∧ k' = k then some r else none

/-- The last-activity time of an OPEN or TOTALLED basket is set by a new request (R33). -/
def State.touch (s : State) (l : LaneNo) : State :=
  s.withLane l fun x => { x with basket := x.basket.map fun b => { b with lastActivity := s.now } }

/-- What an acted-on request gives: a reply, or none yet for an AUTH handed on (R33, R46), and the state after. -/
abbrev Acted := Option LaneReply × State

/-- A new request is acted on (R33). -/
def State.newRequest (s : State) (l : LaneNo) (bit : Bool) (k : RequestKind) (act : State → Acted) : State :=
  let (r, s1) := act (s.touch l)
  match r with
  | none => s1
  | some r => s1.answer l bit k r

/-- A good frame carrying a request (R28 to R33). -/
def State.request (s : State) (l : LaneNo) (bit : Bool) (k : RequestKind) (act : State → Acted) : State :=
  if !s.live || s.part == .starting then s
  else if s.part = .halted then (s.goodFrame l).emit (.laneReply l bit .halt)
  else if (s.lane l).state = .disabled then s
  else
    let s1 := s.goodFrame l
    let x := s1.lane l
    if x.restart then s1.answer l bit k (.restarted x.lastClosed)
    else match x.savedFor bit k with
      | some r => s1.emit (.laneReply l bit r)
      | none => if x.flight.isSome then s1.emit (.laneReply l bit .wait) else s1.newRequest l bit k act

/-- A frame is discarded on a lane and counted where R28 says so; in HALTED the lane count is not applied (R28, R29). -/
def State.discardFrame (s : State) (l : LaneNo) (why : LaneFault) : State :=
  if !s.live || s.part == .starting then s
  else if s.part ≠ .halted ∧ (s.lane l).state = .disabled then s
  else
    s.withLane l fun x =>
      match why with
      | .oversize => { x with oversize := raise x.oversize 1 }
      | .authLength => { x with oversize := raise x.oversize 1 }
      | .check => { x with checkErrors := raise x.checkErrors 1 }
      | .tender => { x with checkErrors := raise x.checkErrors 1 }

/-- LANE_FRAME_BAD (R28). -/
def execLaneFrameBad (l : LaneNo) (why : LaneFault) (s : State) : Host.Outcome State Fault Refusal :=
  .next (s.discardFrame l why)

/-- LANE_TIMEOUT (R27). -/
def execLaneTimeout (l : LaneNo) (s : State) : Host.Outcome State Fault Refusal :=
  .next <|
    match (s.lane l).timer with
    | none => s
    | some due =>
      if s.live then (s.reach due).withLane l fun x => { x with state := .down, timer := none } else s

/-! ### The basket (R34 to R44) -/

/-- The state with lane `l`'s basket replaced. -/
def State.setBasket (s : State) (l : LaneNo) (b : Option Basket) : State := s.withLane l fun x => { x with basket := b }

/-- A counter of ids or AUTHs after the next, passing from 65,535 to 1 (R36, R46). -/
def nextId (n : Nat) : Nat := if n < 65535 then n + 1 else 1

/-- OPEN-BASKET (R36). -/
def State.actOpen (l : LaneNo) (s : State) : Acted :=
  match (s.lane l).basket with
  | some b => (some (.basketOpen b.id), s)
  | none =>
    let id := nextId (s.lane l).basketId
    let b : Basket := { id := id, lines := [], terms := [], running := 0, lastActivity := s.now, result := none }
    (some (.ok (some id)), s.withLane l fun x => { x with basketId := id, basket := some b })

/-- The terms an ITEM is priced from, and whether the record is new, or the refusal of test 3 (R37). -/
def State.itemTerms (s : State) (b : Basket) (article : Nat) : LaneReply ⊕ (TermsRecord × Bool) :=
  match b.terms.find? fun t => t.article == article with
  | some t => .inr (t, false)
  | none =>
    if !articleOk article then .inl .unknownItem
    else match s.entry article with
      | none => .inl .unknownItem
      | some e =>
        match termsOf article e with
        | none => .inl .notForSale
        | some t => if Config.termsCapacity ≤ b.terms.length then .inl .basketFull else .inr (t, true)

/-- The line an accepted ITEM appends (R38). -/
def newLine (t : TermsRecord) (quantity markdown amount : Nat) : Line :=
  { article := t.article, kind := t.kind, quantity := quantity, markdown := markdown, amount := amount, void := false
    version := t.version, pendingVersion := t.pending.map (·.2) }

/-- The basket after an accepted ITEM (R38). -/
def Basket.add (b : Basket) (t : TermsRecord) (new : Bool) (line : Line) (running : Nat) : Basket :=
  { b with lines := b.lines ++ [line], terms := if new then b.terms ++ [t] else b.terms, running := running, result := none }

/-- ITEM (R37, R38). -/
def State.actItem (l : LaneNo) (article quantity : Nat) (markdown : Option Nat) (s : State) : Acted :=
  match (s.lane l).basket with
  | none => (some .noBasket, s)
  | some b =>
    if Config.lineCapacity ≤ b.lines.length then (some .basketFull, s)
    else match s.itemTerms b article with
      | .inl r => (some r, s)
      | .inr (t, new) =>
        let m := markdown.getD 0
        if !quantityOk t.kind quantity m then (some .badQuantity, s)
        else match priceLine t quantity m b.running with
          | none => (some .overlimit, s)
          | some (amount, running) =>
            (some (.itemOk (b.lines.length + 1) amount running),
              s.setBasket l (some (b.add t new (newLine t quantity m amount) running)))

/-- The live line of a line number, counted from 1 (R34, R39). -/
def Basket.live (b : Basket) (n : Nat) : Option Line :=
  if n = 0 then none
  else match b.lines[n - 1]? with
    | none => none
    | some x => if x.void then none else some x

/-- The basket after a VOID of line `n` of the given amount (R39). -/
def Basket.voidLine (b : Basket) (n amount : Nat) : Basket :=
  { b with lines := b.lines.modify (n - 1) fun x => { x with void := true }, running := b.running - amount, result := none }

/-- VOID (R39). -/
def State.actVoid (l : LaneNo) (n : Nat) (s : State) : Acted :=
  match (s.lane l).basket with
  | none => (some .noBasket, s)
  | some b =>
    match b.live n with
    | none => (some .noSuchLine, s)
    | some x => (some (.voidOk (b.running - x.amount)), s.setBasket l (some (b.voidLine n x.amount)))

/-- A live line was priced under both terms sets (R40). -/
def Basket.changeover (b : Basket) : Bool := b.lines.any fun x => !x.void && x.pendingVersion.isSome

/-- The total result of a basket (R40). -/
def Basket.totals (b : Basket) : TotalResult :=
  let p := priceTotal b
  { total := p.1, reduction := p.2, changeover := b.changeover }

/-- TOTAL (R40). -/
def State.actTotal (l : LaneNo) (s : State) : Acted :=
  match (s.lane l).basket with
  | none => (some .noBasket, s)
  | some b =>
    let r := b.totals
    (some (.totalOk r.total r.reduction r.changeover), s.setBasket l (some { b with result := some r }))

/-- The closed-basket record of a CLOSE; the journal unit gives its serial (R42, R66). -/
def closedRecord (l : LaneNo) (time : Option StoreTime) (tender : Tender) (due : Nat) (r : TotalResult) (b : Basket) :
    JournalRecord :=
  { serial := 0, lane := l, time := time, tender := tender, due := due, total := r.total, reduction := r.reduction
    changeover := r.changeover, lines := b.lines, sent := false }

/-- CLOSE (R41, R42, R69). -/
def State.actClose (l : LaneNo) (tender : Tender) (s : State) : Acted :=
  match (s.lane l).basket with
  | none => (some .noBasket, s)
  | some b =>
    match b.result with
    | none => (some .notTotalled, s)
    | some r =>
      if b.lines.all (·.void) then (some .empty, s)
      else
        let due := amountDue s.settings.cashStep r.total tender
        let (given, s1) := s.append (closedRecord l s.unit.clock tender due r b)
        match given with
        | none => (some .journalFull, s1)
        | some (serial, crossed) =>
          let s2 := s1.withLane l fun x => { x with lastClosed := serial, basket := none }
          (some (.closed serial due), if crossed then s2.watermarkCrossed else s2)

/-- CANCEL (R43). -/
def State.actCancel (l : LaneNo) (s : State) : Acted :=
  match (s.lane l).basket with
  | none => (some .noBasket, s)
  | some _ => (some (.ok none), (s.setBasket l none).bump .basketsCancelled)

/-- LOOKUP (R22, R44). -/
def State.actLookup (article : Nat) (s : State) : Acted :=
  match (if articleOk article then s.entry article else none) with
  | none => (some .unknownItem, s)
  | some e => (some (.price (priceReply e)), s)

/-- AUTH (R46). -/
def State.actAuth (l : LaneNo) (bit : Bool) (payload : List Byte) (s : State) : Acted :=
  let n := nextId (s.lane l).authCount
  let (ans, s1) := (s.withLane l fun x => { x with authCount := n }).routeAuth l n payload
  match ans with
  | .accepted =>
    (none, s1.withLane l fun x => { x with flight := some { count := n, bit := bit, due := s.now + Config.seconds 20 } })
  | .busy => (some .busy, s1)
  | .noRoute => (some .noRoute, s1)

/-! ### The commands -/

/-- OPEN_BASKET (R36). -/
def execOpenBasket (l : LaneNo) (bit : Bool) (s : State) : Host.Outcome State Fault Refusal :=
  .next (s.request l bit .openBasket (State.actOpen l))

/-- ITEM (R37, R38). -/
def execItem (l : LaneNo) (bit : Bool) (article quantity : Nat) (markdown : Option Nat) (s : State) :
    Host.Outcome State Fault Refusal :=
  .next (s.request l bit .item (State.actItem l article quantity markdown))

/-- VOID (R39). -/
def execVoid (l : LaneNo) (bit : Bool) (line : Nat) (s : State) : Host.Outcome State Fault Refusal :=
  .next (s.request l bit .void (State.actVoid l line))

/-- TOTAL (R40). -/
def execTotal (l : LaneNo) (bit : Bool) (s : State) : Host.Outcome State Fault Refusal :=
  .next (s.request l bit .total (State.actTotal l))

/-- CLOSE (R41, R42). -/
def execClose (l : LaneNo) (bit : Bool) (tender : Tender) (s : State) : Host.Outcome State Fault Refusal :=
  .next (s.request l bit .close (State.actClose l tender))

/-- CANCEL (R43). -/
def execCancel (l : LaneNo) (bit : Bool) (s : State) : Host.Outcome State Fault Refusal :=
  .next (s.request l bit .cancel (State.actCancel l))

/-- LOOKUP (R44). -/
def execLookup (l : LaneNo) (bit : Bool) (article : Nat) (s : State) : Host.Outcome State Fault Refusal :=
  .next (s.request l bit .lookup (State.actLookup article))

/-- AUTH (R46); one whose payload is empty or longer than 512 bytes is discarded (R28). -/
def execAuth (l : LaneNo) (bit : Bool) (payload : List Byte) (s : State) : Host.Outcome State Fault Refusal :=
  .next (if authPayloadOk payload then s.request l bit .auth (State.actAuth l bit payload) else s.discardFrame l .authLength)

/-- AUTH_TIMEOUT (R47): TIMEOUT is answered and the tag withdrawn. -/
def execAuthTimeout (l : LaneNo) (s : State) : Host.Outcome State Fault Refusal :=
  .next <|
    match (s.lane l).flight with
    | none => s
    | some f => if s.live then ((s.reach f.due).endAuth l f .timeout).withdrawAuth l f.count else s

/-- BASKET_ABANDON (R45). -/
def execBasketAbandon (l : LaneNo) (s : State) : Host.Outcome State Fault Refusal :=
  .next <|
    match (s.lane l).basket with
    | none => s
    | some b =>
      if s.live then
        ((s.reach (b.lastActivity + Config.minutes 30)).setBasket l none).bump .basketsAbandoned
      else s

end Sys2Proof.Machine
end

