-- ==== Sys2Proof/Machine/StartUp.lean ====
section
/-! DEFINITION. Profile and start-up (11): power, the reset line, the profile loader and the listening period. -/

namespace Sys2Proof.Machine

open Sys2Proof

/-! ### Power and the reset line (R74, R208) -/

/-- POWER_ON (R208). While the reset line is asserted the blocks stay held in their reset state. -/
def execPowerOn (s : State) : Host.Outcome State Fault Refusal :=
  .next (if s.resetHeld then { s.cleared with powered := true } else { s with powered := true }.enterStarting .powerOn)

/-- RESET_LINE_ASSERTED (R208): every block is held in its reset state. -/
def execResetLineAsserted (s : State) : Host.Outcome State Fault Refusal :=
  .next (if s.powered then { s.cleared with resetHeld := true } else { s with resetHeld := true })

/-- RESET_LINE_RELEASED (R208). -/
def execResetLineReleased (s : State) : Host.Outcome State Fault Refusal :=
  .next <|
    if s.resetHeld then
      if s.powered then { s with resetHeld := false }.enterStarting .resetLine else { s with resetHeld := false }
    else s

/-- POWER_LOSS (R74): everything but what the attached memory keeps is lost. Steps are indivisible (95), so the loss falls
between two of them (log 21). -/
def execPowerLoss (s : State) : Host.Outcome State Fault Refusal := .next { s.cleared with powered := false }

/-! ### The profile image (R205, R206, R213) -/

/-- A value clamped into a range, and whether it was clamped (R205). -/
def clampField (lo hi v : Nat) : Nat × Nat := if v < lo then (lo, 1) else if hi < v then (hi, 1) else (v, 0)

/-- Bit `n` of the given mask (R213). -/
def given (image : List Byte) (n : Nat) : Bool := (numAt image 4 2).testBit n

/-- A field that has a default: the default when bit `n` of the given mask is clear, else the field read by `f` (R205,
R213). -/
def orDefault {α : Type} (image : List Byte) (n : Nat) (dflt : α) (f : α × Nat) : α × Nat :=
  if given image n then f else (dflt, 0)

/-- The cash step (R205). -/
def cashField (v : Nat) : Nat × Nat := if v = 1 ∨ v = 2 ∨ v = 5 ∨ v = 10 then (v, 0) else (1, 1)

/-- An event line's use (R213). -/
def useField (v : Nat) : LineUse × Nat :=
  match v with
  | 0 => (.none, 0)
  | 1 => (.mainsFail, 0)
  | 2 => (.closeKey, 0)
  | 3 => (.sessionKey, 0)
  | _ => (.none, 1)

/-- A flag byte: 0 is OFF and any other value ON (R213). -/
def flagField (v : Nat) : Bool := v != 0

/-- The settings and the clamped-field count an image gives (R205, R213). A polarity byte above 1 reads as HIGH and is not
counted (DEDUCED, log 38). -/
def readProfile (image : List Byte) : Settings × Nat :=
  let b1 (k : Nat) := numAt image k 1
  let b2 (k : Nat) := numAt image k 2
  let b4 (k : Nat) := numAt image k 4
  let station := clampField 0 15 (b1 6)
  let lanes := clampField 0 16 (b1 7)
  let channel := clampField 0 15 (b1 9)
  let rate := clampField 256 100000 (b4 11)
  let guestRate := orDefault image 8 2000 (clampField 128 100000 (b4 17))
  let allowance := orDefault image 7 209715200 (b4 21, 0)
  let share := orDefault image 6 true (flagField (b1 25), 0)
  let windowStart := orDefault image 5 60 (clampField 0 1439 (b2 26))
  let windowLength := orDefault image 4 4 (clampField 1 8 (b1 28))
  let openTime := clampField 0 1439 (b2 29)
  let lateTime := clampField 0 1439 (b2 31)
  let closeTime := clampField 0 1439 (b2 33)
  let limit := orDefault image 3 6 (clampField 1 24 (b1 35))
  let margin := orDefault image 2 6 (clampField 3 12 (b1 36))
  let cash := orDefault image 1 1 (cashField (b1 37))
  let water := orDefault image 0 12288 (clampField 1 16384 (b2 38))
  let use (i : Nat) := useField (b1 (40 + 2 * i))
  ({ station := Fin.ofNat 16 station.1, laneCount := lanes.1, labelService := flagField (b1 8), labelChannel := channel.1
     uplinkPresent := flagField (b1 10), uplinkRate := rate.1, guestService := flagField (b1 15)
     guestRelay := flagField (b1 16), guestRate := guestRate.1, allowance := allowance.1, share := share.1
     windowStart := windowStart.1, windowLength := windowLength.1, openTime := openTime.1, lateTime := lateTime.1
     closeTime := closeTime.1, changeoverLimit := limit.1, claimMargin := margin.1, cashStep := cash.1
     highWatermark := water.1
     lines := Vector.ofFn fun i : Fin 4 => ((use i.val).1, flagField (b1 (41 + 2 * i.val))) },
   station.2 + lanes.2 + channel.2 + rate.2 + guestRate.2 + windowStart.2 + windowLength.2 + openTime.2 + lateTime.2
     + closeTime.2 + limit.2 + margin.2 + cash.2 + water.2 + (use 0).2 + (use 1).2 + (use 2).2 + (use 3).2)

/-- The image carries the profile mark, its 52 bytes and a good check (R206, R213). -/
def imageOk (image : List Byte) : Bool :=
  image.length == 52 && numAt image 0 4 == 0x4F4E5046 && crc32 (image.take 48) == numAt image 48 4

/-- The lane records take their DOWN or DISABLED states (R50). -/
def State.settleLanes (s : State) : State :=
  { s with lanes := Vector.ofFn fun l : LaneNo =>
      { s.lanes.get l with state := if l.val < s.settings.laneCount then .down else .disabled } }

/-- The OWNED entries' owner is this station (R120). -/
def State.ownLabels (s : State) : State :=
  s.withLabels fun l =>
    { l with owned := l.owned.map fun e => (e.1, { e.2 with hearing := { e.2.hearing with owner := s.self } }) }

/-- The journal takes its high flag, and a flag set is a crossing (R76). -/
def State.settleJournal (s : State) : State :=
  let (high, s1) := s.journalLoaded
  if high then s1.watermarkCrossed else s1

/-- The preparations each block makes when the profile has been loaded (R206). -/
def State.prepare (s : State) : State :=
  let s1 := s.settleLanes.ownLabels.settleJournal
  ((s1.withFwd fun w => { w with up := s1.carrier && s1.settings.uplinkPresent }).readLines).decideMode

/-- Entry to LISTENING: the listening timer and the beacon timer start and cycle 0 begins (R87, R134, R207). -/
def State.enterListening (s : State) : State :=
  let s1 := { s with part := .listening, listenTimer := some (s.now + Config.seconds 3) }
  let s2 := (s1.withTrunk fun t => { t with beaconTimer := some s.now }).judgeReference.judgeHolder
  s2.withLabels fun l =>
    { l with cycle := 0, slot := 0, length := s2.nextLength, slotEnd := some (s.now + slotLength s2.nextLength) }

/-- PROFILE_LOAD (R206, R207, R208): `image` is what the attached memory answers, absent when it does not answer. -/
def execProfileLoad (image : Option (List Byte)) (s : State) : Host.Outcome State Fault Refusal :=
  .next <|
    if s.live && s.part == .starting then
      match image with
      | none => { s with part := .halted }
      | some bytes =>
        let s1 := { s with image := some bytes }
        if imageOk bytes then
          let (c, n) := readProfile bytes
          { s1 with settings := c, clamped := n }.prepare.enterListening
        else { s1 with part := .halted }
    else s

/-- LISTENING_TIMER_EXPIRY (R207): in LISTENING the part goes to RUNNING, and every block takes the end of the listening
period. -/
def execListeningTimerExpiry (s : State) : Host.Outcome State Fault Refusal :=
  .next <|
    match s.listenTimer with
    | none => s
    | some due =>
      if s.live then
        let s1 := { s.reach due with listenTimer := none }
        if s1.part = .listening then { s1 with part := .running }.endListening else s1
      else s

end Sys2Proof.Machine
end

