-- ==== Sys2Proof/Machine/Dispatch.lean ====
section
/-! DEFINITION. The meaning of every command: one arm for each constructor of `Instr`. -/

namespace Sys2Proof.Machine

open Sys2Proof

def exec (i : Instr) (s : State) : Host.Outcome State Fault Refusal :=
  match i with
  | .powerOn => Sys2Proof.Machine.execPowerOn s
  | .resetLineAsserted => Sys2Proof.Machine.execResetLineAsserted s
  | .resetLineReleased => Sys2Proof.Machine.execResetLineReleased s
  | .profileLoad image => Sys2Proof.Machine.execProfileLoad image s
  | .listeningTimerExpiry => Sys2Proof.Machine.execListeningTimerExpiry s
  | .secondTimerExpiry => Sys2Proof.Machine.execSecondTimerExpiry s
  | .changeoverDeadline article => Sys2Proof.Machine.execChangeoverDeadline article s
  | .releaseRecord => Sys2Proof.Machine.execReleaseRecord s
  | .spotPrice h r => Sys2Proof.Machine.execSpotPrice h r s
  | .readEntry h article => Sys2Proof.Machine.execReadEntry h article s
  | .bind h label article => Sys2Proof.Machine.execBind h label article s
  | .unbind h label => Sys2Proof.Machine.execUnbind h label s
  | .readLabel h label => Sys2Proof.Machine.execReadLabel h label s
  | .setMode h code => Sys2Proof.Machine.execSetMode h code s
  | .setTime h time => Sys2Proof.Machine.execSetTime h time s
  | .runSession h => Sys2Proof.Machine.execRunSession h s
  | .readAlerts h first => Sys2Proof.Machine.execReadAlerts h first s
  | .ackAlert h serial => Sys2Proof.Machine.execAckAlert h serial s
  | .readCounts h group => Sys2Proof.Machine.execReadCounts h group s
  | .restart h => Sys2Proof.Machine.execRestart h s
  | .officeBadCommand h kind => Sys2Proof.Machine.execOfficeBadCommand h kind s
  | .laneFrameBad lane why => Sys2Proof.Machine.execLaneFrameBad lane why s
  | .laneTimeout lane => Sys2Proof.Machine.execLaneTimeout lane s
  | .openBasket lane bit => Sys2Proof.Machine.execOpenBasket lane bit s
  | .item lane bit article quantity markdown => Sys2Proof.Machine.execItem lane bit article quantity markdown s
  | .void lane bit line => Sys2Proof.Machine.execVoid lane bit line s
  | .total lane bit => Sys2Proof.Machine.execTotal lane bit s
  | .close lane bit tender => Sys2Proof.Machine.execClose lane bit tender s
  | .cancel lane bit => Sys2Proof.Machine.execCancel lane bit s
  | .lookup lane bit article => Sys2Proof.Machine.execLookup lane bit article s
  | .auth lane bit payload => Sys2Proof.Machine.execAuth lane bit payload s
  | .authTimeout lane => Sys2Proof.Machine.execAuthTimeout lane s
  | .basketAbandon lane => Sys2Proof.Machine.execBasketAbandon lane s
  | .slotEnd => Sys2Proof.Machine.execSlotEnd s
  | .claimExpiry label => Sys2Proof.Machine.execClaimExpiry label s
  | .ackReceived ack => Sys2Proof.Machine.execAckReceived ack s
  | .presenceReceived p => Sys2Proof.Machine.execPresenceReceived p s
  | .presenceWindowEnd => Sys2Proof.Machine.execPresenceWindowEnd s
  | .cycleMarkReceived f number length time => Sys2Proof.Machine.execCycleMarkReceived f number length time s
  | .labelClaimReceived f label claimant channel level => Sys2Proof.Machine.execLabelClaimReceived f label claimant channel level s
  | .labelRefuseReceived f label level => Sys2Proof.Machine.execLabelRefuseReceived f label level s
  | .labelHandoverReceived f r => Sys2Proof.Machine.execLabelHandoverReceived f r s
  | .labelAdoptedReceived f label adopter display => Sys2Proof.Machine.execLabelAdoptedReceived f label adopter display s
  | .beaconTimerExpiry => Sys2Proof.Machine.execBeaconTimerExpiry s
  | .beaconReceived f b => Sys2Proof.Machine.execBeaconReceived f b s
  | .peerSilent station => Sys2Proof.Machine.execPeerSilent station s
  | .trunkFrameBegin others => Sys2Proof.Machine.execTrunkFrameBegin others s
  | .trunkAttemptEnd taken spoiled => Sys2Proof.Machine.execTrunkAttemptEnd taken spoiled s
  | .trunkFrameBadCheck => Sys2Proof.Machine.execTrunkFrameBadCheck s
  | .trunkFrameOtherDest f body => Sys2Proof.Machine.execTrunkFrameOtherDest f body s
  | .officeReplyReceived f => Sys2Proof.Machine.execOfficeReplyReceived f s
  | .priceChangeReceived f records => Sys2Proof.Machine.execPriceChangeReceived f records s
  | .filePriceChangeReceived f serial firstIndex records => Sys2Proof.Machine.execFilePriceChangeReceived f serial firstIndex records s
  | .fileAnnounceReceived f serial count check => Sys2Proof.Machine.execFileAnnounceReceived f serial count check s
  | .fileCloseReceived f serial count check => Sys2Proof.Machine.execFileCloseReceived f serial count check s
  | .trunkCollectionTimeout => Sys2Proof.Machine.execTrunkCollectionTimeout s
  | .shelfDoneReceived f reports => Sys2Proof.Machine.execShelfDoneReceived f reports s
  | .shelfQueryReceived f reports => Sys2Proof.Machine.execShelfQueryReceived f reports s
  | .shelfPendingReceived f reports => Sys2Proof.Machine.execShelfPendingReceived f reports s
  | .relayReceived f p => Sys2Proof.Machine.execRelayReceived f p s
  | .uplinkCarrierChange present => Sys2Proof.Machine.execUplinkCarrierChange present s
  | .uplinkSendEnd => Sys2Proof.Machine.execUplinkSendEnd s
  | .uplinkParcelReceived p => Sys2Proof.Machine.execUplinkParcelReceived p s
  | .guestFrameReceived guest dest payload => Sys2Proof.Machine.execGuestFrameReceived guest dest payload s
  | .guestRefillTimer => Sys2Proof.Machine.execGuestRefillTimer s
  | .sessionSecondTimer => Sys2Proof.Machine.execSessionSecondTimer s
  | .restTimerExpiry => Sys2Proof.Machine.execRestTimerExpiry s
  | .sessionReplyTimeout => Sys2Proof.Machine.execSessionReplyTimeout s
  | .accept tag time newest => Sys2Proof.Machine.execAccept tag time newest s
  | .defer tag => Sys2Proof.Machine.execDefer tag s
  | .refuse tag reason => Sys2Proof.Machine.execRefuse tag reason s
  | .batchTaken tag serial => Sys2Proof.Machine.execBatchTaken tag serial s
  | .fileStart tag serial count check => Sys2Proof.Machine.execFileStart tag serial count check s
  | .filePart tag serial firstIndex records => Sys2Proof.Machine.execFilePart tag serial firstIndex records s
  | .fileEnd tag serial => Sys2Proof.Machine.execFileEnd tag serial s
  | .noResend tag serial => Sys2Proof.Machine.execNoResend tag serial s
  | .clockTimerExpiry => Sys2Proof.Machine.execClockTimerExpiry s
  | .eventLineChange line high => Sys2Proof.Machine.execEventLineChange line high s
  | .mainsRiseTimeout => Sys2Proof.Machine.execMainsRiseTimeout s
  | .mainsFallTimeout => Sys2Proof.Machine.execMainsFallTimeout s
  | .powerLoss => Sys2Proof.Machine.execPowerLoss s
  | .malformedFrameReceived f => Sys2Proof.Machine.execMalformedFrameReceived f s

end Sys2Proof.Machine
end

