-- ==== Sys2Proof/Safety.lean ====
section
/-! DEFINITION. What claims about runs are stated in: the invariants of the stored collections, the moments at which the
part takes commands, and the commands that are resets. -/

namespace Sys2Proof.Machine

open Sys2Proof

/-- The last serial the counter has issued bounds a serial held (R67). -/
def SerialCounter.issued (c : SerialCounter) (n : Nat) : Prop :=
  match c with
  | .next k => n < k
  | .exhausted => n ≤ Config.countMax

/-- The basket serial counter lies in its range (R67). -/
def SerialCounter.inRange (c : SerialCounter) : Prop :=
  match c with
  | .next k => 1 ≤ k ∧ k ≤ Config.countMax
  | .exhausted => True

/-- The journal as R65, R67 and R71 keep it: at most 16,384 records in strictly rising serial order, every serial issued
by the counter, and at most two outstanding batches. -/
structure Journal.Ok (j : Journal) : Prop where
  size : j.records.length ≤ Config.journalCapacity
  rising : (j.records.map (·.serial)).Pairwise (· < ·)
  issued : ∀ r ∈ j.records, j.counter.issued r.serial
  counter : j.counter.inRange
  batches : j.outstanding.length ≤ 2

/-- The alert list holds at most 64 alerts (R200). -/
def AlertList.Ok (a : AlertList) : Prop := a.list.length ≤ Config.alertCapacity

/-- The three transmit queues hold at most 8, 64 and 32 frames (R123). -/
def Trunk.Bounded (t : Trunk) : Prop := ∀ c, (t.queue c).length ≤ Config.queueCapacity c

/-- A frame carries what its block forms for the frame's purpose (R122). -/
def Frame.fits (f : Frame) : Bool :=
  match f.purpose, f.body with
  | .beacon, .beacon _ => true
  | .mark, .cycleMark _ _ _ => true
  | .spot, .priceChange _ _ _ => true
  | .reports, .shelfDone _ => true
  | .shelfAnswer, .shelfDone _ => true
  | .shelfQuestion, .shelfQuery _ => true
  | .shelfQuestion, .shelfPending _ => true
  | .label, .labelClaim _ _ _ _ => true
  | .label, .labelRefuse _ _ => true
  | .label, .labelHandover _ => true
  | .label, .labelAdopted _ _ _ => true
  | .share, .fileAnnounce _ _ _ => true
  | .share, .priceChange _ _ _ => true
  | .share, .fileClose _ _ _ => true
  | .reply _, .officeReply _ => true
  | .relayOut, .relay _ => true
  | .relayBack, .relay _ => true
  | _, _ => false

/-- Every frame stands in the queue or the hold line of its kind's class, and every frame, the kept ones too, carries what
its purpose asks (R122, R124). -/
structure Trunk.Filed (t : Trunk) : Prop where
  queued : ∀ c, ∀ f ∈ t.queue c, f.body.trunkClass = c ∧ f.fits = true
  held : ∀ c, ∀ f ∈ t.hold c, f.body.trunkClass = c ∧ f.fits = true
  kept : ∀ f ∈ t.kept, f.fits = true

/-! ### Frames -/

/-- The fields of the state, by name. -/
inductive Field where
  | powered | resetHeld | now | carrier | levels | part | listenTimer | cause | image | settings | clamped | counts | trunk | commands
  | book | lanes | journal | labels | fwd | link | staging | unit | alerts | out | fresh | pending
deriving DecidableEq, Repr

/-- Two states agree in a field. -/
def Field.same (s t : State) : Field → Prop
  | .powered => t.powered = s.powered
  | .resetHeld => t.resetHeld = s.resetHeld
  | .now => t.now = s.now
  | .carrier => t.carrier = s.carrier
  | .levels => t.levels = s.levels
  | .part => t.part = s.part
  | .listenTimer => t.listenTimer = s.listenTimer
  | .cause => t.cause = s.cause
  | .image => t.image = s.image
  | .settings => t.settings = s.settings
  | .clamped => t.clamped = s.clamped
  | .counts => t.counts = s.counts
  | .trunk => t.trunk = s.trunk
  | .commands => t.commands = s.commands
  | .book => t.book = s.book
  | .lanes => t.lanes = s.lanes
  | .journal => t.journal = s.journal
  | .labels => t.labels = s.labels
  | .fwd => t.fwd = s.fwd
  | .link => t.link = s.link
  | .staging => t.staging = s.staging
  | .unit => t.unit = s.unit
  | .alerts => t.alerts = s.alerts
  | .out => t.out = s.out
  | .fresh => t.fresh = s.fresh
  | .pending => t.pending = s.pending

/-- `t` differs from `s` in no field but those listed. -/
def keeps (fs : List Field) (s t : State) : Prop := ∀ f, f ∉ fs → f.same s t

/-- The fields that a reset sets; the inputs, the profile image and the model's own fields stay (each chapter's
state-after-reset rule). -/
def resetFields : List Field :=
  [.part, .listenTimer, .cause, .settings, .clamped, .counts, .trunk, .commands, .book, .lanes, .journal, .labels, .fwd,
   .link, .staging, .unit, .alerts]

/-- The fields that the label table's and the price book's work on each other may change (R12, R19, R23, R84 to R86,
R99). -/
def shelfFields : List Field := [.book, .labels, .trunk, .counts]

/-- The fields that an attempt's start, course and failure may change (R172 to R188). -/
def sessionFields : List Field := [.link, .journal, .counts, .fwd, .staging, .alerts, .trunk]

/-- The fields that the reception of a trunk frame may change before its block takes it: the peer table, the reference
and the holder judged from it, the session whose path is lost with the holder, and the slots (R127, R131, R136, R150). -/
def hearFields : List Field := [.labels, .trunk, .link, .journal, .counts, .fwd, .staging, .alerts, .out]

/-- The fields that a message from head office may change (R173 to R180, R191). -/
def messageFields : List Field := [.link, .journal, .counts, .fwd, .staging, .alerts, .trunk, .unit, .book]

/-- The fields that an OFFICE command not a RESTART may change beside those of its own act (R209). -/
def officeFields : List Field := .commands :: hearFields

/-- The fields that each command may change, by the rules of the blocks it reaches. -/
def touches : Instr → List Field
  | .powerOn => .powered :: resetFields
  | .resetLineAsserted => .resetHeld :: resetFields
  | .resetLineReleased => .resetHeld :: resetFields
  | .profileLoad _ =>
    [.image, .part, .listenTimer, .settings, .clamped, .lanes, .labels, .unit, .book] ++ sessionFields
  | .listeningTimerExpiry => [.now, .listenTimer, .part] ++ shelfFields ++ sessionFields
  | .secondTimerExpiry => .now :: shelfFields
  | .changeoverDeadline _ => .alerts :: shelfFields
  | .releaseRecord => [.book, .counts, .alerts, .link, .staging]
  | .spotPrice _ _ => .book :: officeFields
  | .readEntry _ _ => officeFields
  | .bind _ _ _ => [.book, .fresh] ++ officeFields
  | .unbind _ _ => .book :: officeFields
  | .readLabel _ _ => officeFields
  | .setMode _ _ => .unit :: officeFields
  | .setTime _ _ => .unit :: officeFields
  | .runSession _ => officeFields
  | .readAlerts _ _ => officeFields
  | .ackAlert _ _ => officeFields
  | .readCounts _ _ => officeFields
  | .restart _ => .out :: resetFields
  | .officeBadCommand _ _ => officeFields
  | .laneFrameBad _ _ => [.lanes]
  | .laneTimeout _ => [.now, .lanes]
  | .openBasket _ _ => [.lanes, .out]
  | .item _ _ _ _ _ => [.lanes, .out]
  | .void _ _ _ => [.lanes, .out]
  | .total _ _ => [.lanes, .out]
  | .close _ _ _ => [.lanes, .out] ++ sessionFields
  | .cancel _ _ => [.lanes, .out, .counts]
  | .lookup _ _ _ => [.lanes, .out]
  | .auth _ _ _ => [.lanes, .out, .fwd, .counts, .trunk]
  | .authTimeout _ => [.now, .lanes, .out, .fwd]
  | .basketAbandon _ => [.now, .lanes, .counts]
  | .slotEnd => [.now, .alerts, .out] ++ shelfFields
  | .claimExpiry _ => [.labels]
  | .ackReceived _ => .alerts :: shelfFields
  | .presenceReceived _ => [.alerts, .out, .fresh] ++ shelfFields
  | .presenceWindowEnd => .fresh :: shelfFields
  | .cycleMarkReceived _ _ _ _ => [.book, .unit] ++ hearFields
  | .labelClaimReceived _ _ _ _ _ => hearFields
  | .labelRefuseReceived _ _ _ => hearFields
  | .labelHandoverReceived _ _ => [.book, .fresh] ++ hearFields
  | .labelAdoptedReceived _ _ _ _ => .book :: hearFields
  | .beaconTimerExpiry => [.now, .trunk, .counts]
  | .beaconReceived _ _ => .out :: resetFields
  | .peerSilent _ => [.now, .commands] ++ hearFields
  | .trunkFrameBegin _ => [.trunk, .counts, .out]
  | .trunkAttemptEnd _ _ => .out :: resetFields
  | .trunkFrameBadCheck => [.counts, .out]
  | .trunkFrameOtherDest _ _ => .out :: resetFields
  | .officeReplyReceived _ => hearFields
  | .priceChangeReceived _ _ => .book :: hearFields
  | .filePriceChangeReceived _ _ _ _ => .book :: hearFields
  | .fileAnnounceReceived _ _ _ _ => hearFields
  | .fileCloseReceived _ _ _ _ => .book :: hearFields
  | .trunkCollectionTimeout => [.now, .staging, .counts, .link]
  | .shelfDoneReceived _ _ => .book :: hearFields
  | .shelfQueryReceived _ _ => hearFields
  | .shelfPendingReceived _ _ => .book :: hearFields
  | .relayReceived _ _ => [.lanes, .unit, .book] ++ hearFields
  | .uplinkCarrierChange _ => [.carrier, .lanes, .out] ++ sessionFields
  | .uplinkSendEnd => [.now, .out] ++ sessionFields
  | .uplinkParcelReceived _ => [.lanes, .out] ++ messageFields
  | .guestFrameReceived _ _ _ => [.fwd, .counts, .out, .trunk]
  | .guestRefillTimer => [.now, .fwd]
  | .sessionSecondTimer => .now :: sessionFields
  | .restTimerExpiry => .now :: sessionFields
  | .sessionReplyTimeout => .now :: sessionFields
  | .accept _ _ _ => messageFields
  | .defer _ => messageFields
  | .refuse _ _ => messageFields
  | .batchTaken _ _ => messageFields
  | .fileStart _ _ _ _ => messageFields
  | .filePart _ _ _ _ => messageFields
  | .fileEnd _ _ => messageFields
  | .noResend _ _ => messageFields
  | .clockTimerExpiry => [.now, .unit] ++ sessionFields
  | .eventLineChange _ _ => [.levels, .unit] ++ sessionFields
  | .mainsRiseTimeout => [.now, .unit] ++ sessionFields
  | .mainsFallTimeout => [.now, .unit] ++ sessionFields
  | .powerLoss => .powered :: resetFields
  | .malformedFrameReceived f =>
    match f.kind with
    | .beacon => .out :: resetFields
    | .cycleMark => hearFields
    | .other => hearFields

/-- The commands that reset the part or take its power: POWER_ON, RESET_LINE_ASSERTED, RESET_LINE_RELEASED, POWER_LOSS
(R208). -/
def resets : Instr → Bool
  | .powerOn => true
  | .resetLineAsserted => true
  | .resetLineReleased => true
  | .powerLoss => true
  | _ => false

/-! ### What statements about the lanes are said with -/

/-- The lane, sequence bit and kind of the lane request a command carries. An AUTH whose payload is empty or longer than
512 bytes is discarded and carries none (R28). -/
def laneRequest : Instr → Option (LaneNo × Bool × RequestKind)
  | .openBasket l b => some (l, b, .openBasket)
  | .item l b _ _ _ => some (l, b, .item)
  | .void l b _ => some (l, b, .void)
  | .total l b => some (l, b, .total)
  | .close l b _ => some (l, b, .close)
  | .cancel l b => some (l, b, .cancel)
  | .lookup l b _ => some (l, b, .lookup)
  | .auth l b p => if authPayloadOk p then some (l, b, .auth) else none
  | _ => none

/-- The lane a command of the lane controller is about. -/
def laneOf : Instr → Option LaneNo
  | .laneFrameBad l _ => some l
  | .laneTimeout l => some l
  | .openBasket l _ => some l
  | .item l _ _ _ _ => some l
  | .void l _ _ => some l
  | .total l _ => some l
  | .close l _ _ => some l
  | .cancel l _ => some l
  | .lookup l _ _ => some l
  | .auth l _ _ => some l
  | .authTimeout l => some l
  | .basketAbandon l => some l
  | _ => none

/-- The part is in LISTENING, RUNNING or LISTEN-ONLY and the lane is not DISABLED, so that its requests are served (R28,
R29). -/
structure State.Serves (s : State) (l : LaneNo) : Prop where
  live : s.live = true
  serving : s.serving = true
  enabled : (s.lane l).state ≠ .disabled

/-- A request on the lane would be a new one: neither answered RESTARTED, nor a repeat, nor answered WAIT (R30 to R33). -/
structure State.TakesNew (s : State) (l : LaneNo) (bit : Bool) (k : RequestKind) : Prop where
  serves : s.Serves l
  told : (s.lane l).restart = false
  notRepeat : ∀ r, (s.lane l).last ≠ some (bit, k, r)
  idle : (s.lane l).flight = none

/-- What a new request makes of a basket before anything else: its last-activity time is the present (R33). -/
def Basket.active (b : Basket) (now : Nat) : Basket := { b with lastActivity := now }

/-- What a new request that is answered `r` leaves: its lane is UP with its timer restarted, the basket's last-activity
time set, what the request itself does to the record done by `f`, and the reply sent and saved with the request's bit and
kind (R27, R33). -/
def State.served (s : State) (l : LaneNo) (bit : Bool) (k : RequestKind) (r : LaneReply) (f : Lane → Lane) : State :=
  (s.withLane l fun x =>
    { f { x with state := .up, timer := some (s.now + Config.seconds 10), basket := x.basket.map (·.active s.now) } with
      last := some (bit, k, r), restart := false }).emit (.laneReply l bit r)

/-- A basket as R34, R35 and the limits of R56 and R57 keep it: at most 250 lines and 100 terms records, at most one terms
record for an article, and a running total that is the sum of the amounts of the live lines and does not exceed
99,999,999. -/
structure Basket.Ok (b : Basket) : Prop where
  lines : b.lines.length ≤ Config.lineCapacity
  terms : b.terms.length ≤ Config.termsCapacity
  once : (b.terms.map (·.article)).Nodup
  running : b.running = sumAmount (b.lines.filter fun x => !x.void)
  limit : b.running ≤ runningMax

/-- Every lane's basket is as R34 keeps it. -/
def State.BasketsOk (s : State) : Prop := ∀ l b, (s.lane l).basket = some b → b.Ok

/-! ### What statements about the trunk and the office commands are said with -/

/-- A trunk frame of station `n` with a good check is received, and `n` is another station (R131 steps 1 to 3). -/
structure State.Hears (s : State) (n : Station) : Prop where
  live : s.live = true
  serving : s.serving = true
  other : n ≠ s.settings.station

/-- What a frame of station `n` for this part, or for ALL, leaves for the block it is delivered to: `n`'s slot is updated
and the notices of the update taken, and the taken slot is asserted (R127, R135, R136). -/
def State.heardFrom (s : State) (n : Station) (upd : Peer → Peer) : State := (s.hear n upd).assertTaken

/-- The OFFICE command with this heading will be acted on: it is received, no RESTART has been acted on, and it is no
repeat (R209, R211). -/
structure State.Obeys (s : State) (h : OfficeHead) : Prop where
  hears : s.Hears h.src
  dest : h.dest = .station s.settings.station
  starting : s.commands.restarting = false
  notRepeat : ∀ r, s.commands.places.get h.src = some r → r.tag ≠ h.tag

/-- The outcome of an OFFICE command is saved in its station's place and handed over as its reply (R209). -/
def State.replied (s : State) (h : OfficeHead) (kind : Nat) (o : OfficeOutcome) : State :=
  (s.remember h.src { tag := h.tag, kind := kind, outcome := o }).giveReply h.src { tag := h.tag, kind := kind, outcome := o }
    false

/-- The heading and the kind of the OFFICE command a command is (12.7). -/
def officeCommand : Instr → Option (OfficeHead × Nat)
  | .readEntry h _ => some (h, 1)
  | .spotPrice h _ => some (h, 2)
  | .bind h _ _ => some (h, 3)
  | .unbind h _ => some (h, 4)
  | .readLabel h _ => some (h, 5)
  | .setMode h _ => some (h, 6)
  | .setTime h _ => some (h, 7)
  | .runSession h => some (h, 8)
  | .readAlerts h _ => some (h, 9)
  | .ackAlert h _ => some (h, 10)
  | .readCounts h _ => some (h, 11)
  | .restart h => some (h, 12)
  | .officeBadCommand h k => some (h, k)
  | _ => none

/-- The source of the trunk frame a command brings, for the kinds that R132 delivers or counts, but for a BEACON. -/
def deliveredFrom (c : Instr) : Option Station :=
  match c with
  | .cycleMarkReceived f _ _ _ => some f.src
  | .labelClaimReceived f _ _ _ _ => some f.src
  | .labelRefuseReceived f _ _ => some f.src
  | .labelHandoverReceived f _ => some f.src
  | .labelAdoptedReceived f _ _ _ => some f.src
  | .priceChangeReceived f _ => some f.src
  | .filePriceChangeReceived f _ _ _ => some f.src
  | .fileAnnounceReceived f _ _ _ => some f.src
  | .fileCloseReceived f _ _ _ => some f.src
  | .shelfDoneReceived f _ => some f.src
  | .shelfQueryReceived f _ => some f.src
  | .shelfPendingReceived f _ => some f.src
  | .relayReceived f _ => some f.src
  | .officeReplyReceived f => some f.src
  | _ => (officeCommand c).map fun x => x.1.src

/-! ### What statements about the trunk's frames and the session are said with -/

/-- The frames whose block takes no step on their being QUEUED, SENT or DROPPED (R105, R120, R123, R134). -/
def Purpose.plain : Purpose → Bool
  | .beacon => true
  | .mark => true
  | .spot => true
  | .reports => false
  | .shelfAnswer => true
  | .shelfQuestion => true
  | .label => true
  | .share => false
  | .reply _ => false
  | .relayOut => false
  | .relayBack => false

/-- The attempt tag and the contents of the message from head office a command is (09 §9.1). -/
def officeMessage : Instr → Option (Nat × InMessage)
  | .accept tag time newest => some (tag, .accept time newest)
  | .defer tag => some (tag, .defer)
  | .refuse tag reason => some (tag, .refuse reason)
  | .batchTaken tag serial => some (tag, .batchTaken serial)
  | .fileStart tag serial count check => some (tag, .fileStart serial count check)
  | .filePart tag serial first rs => some (tag, .filePart serial first rs)
  | .fileEnd tag serial => some (tag, .fileEnd serial)
  | .noResend tag serial => some (tag, .noResend serial)
  | _ => none

/-- The journal unit, the session and the staging list as a failed attempt leaves them (R73, R182). -/
structure State.Stopped (s t : State) : Prop where
  records : t.journal.records = s.journal.records.map fun r => { r with sent := false }
  outstanding : t.journal.outstanding = []
  window : t.link.window = []
  toSend : t.link.toSend = []
  replyTimer : t.link.replyTimer = none
  office : t.fwd.office = s.fwd.office.filter fun p => !(p.origin == s.self && p.port == .session)
  heldParcel : t.fwd.heldParcel = none
  collecting : s.staging.owner = .session → s.staging.phase = .collecting → t.staging = Staging.empty
  kept : s.staging.owner ≠ .session ∨ s.staging.phase ≠ .collecting → t.staging = s.staging

/-- The parcel of this station's session that carries a message in the current attempt (R143, 09 §9.1). -/
def State.parcelOf (s : State) (m : OutMessage) : Parcel :=
  { cls := .office, origin := s.settings.station, port := .session, tag := s.link.attemptTag, guest := none, status := .data
    payload := messageBytes m }

/-- The byte count of the OFFICE queue (R146). -/
def State.officeBytes (s : State) : Nat := (s.fwd.office.map (·.payload.length)).sum

/-- The session's messages all find room in the OFFICE queue of this station's own uplink, and stay there while another
parcel is being sent (R146, R147, R156). -/
structure State.Carries (s : State) (ms : List OutMessage) : Prop where
  up : s.fwd.up = true
  sending : s.fwd.sending ≠ none
  room : s.officeBytes + (ms.map fun m => (messageBytes m).length).sum ≤ 65536

/-- The forwarding unit once these messages have joined its OFFICE queue (R156). -/
def State.carried (s : State) (ms : List OutMessage) : Forwarding :=
  { s.fwd with sessionPath := some .local, office := s.fwd.office ++ ms.map s.parcelOf }

/-- The unsent journal records up to the cut serial (R71). -/
def State.uncut (s : State) : List JournalRecord :=
  s.journal.records.filter fun r => !r.sent && decide (r.serial ≤ s.link.cut.getD 0)

/-- The BATCH-PARTs of a batch: a run of 1,495 of its bytes in each but the last, which carries the rest and the last-part
flag (R175). -/
def partsOf (serial : Nat) (batch : List JournalRecord) : List OutMessage :=
  let run := batch.flatMap journalBytes
  let count := (run.length + 1494) / 1495
  (List.range count).map fun i => .batchPart serial (i + 1) (i + 1 == count) ((run.drop (1495 * i)).take 1495)

/-- How a session in UPLOADING with no part in hand goes on: from `s`, in which it asks for a batch, to `t` (R71, R175). It
waits where no record is left but a batch is outstanding, and where two batches are. Otherwise the oldest unsent records, 32
at most, are marked sent and outstanding and join the window, and their parts are handed over: the first is held where the
OFFICE queue has no room for it, and where all of them and no further record stand to be sent, the last part is QUEUED and
restarts the reply timer. -/
structure State.Uploads (s t : State) : Prop where
  noneLeft : s.uncut = [] → s.link.window ≠ [] → t = s
  windowFull : s.uncut ≠ [] → 2 ≤ s.journal.outstanding.length → t = s
  waits : ∀ first last m ms, (s.uncut.take 32).head? = some first → (s.uncut.take 32).getLast? = some last →
    s.journal.outstanding.length < 2 → partsOf (s.link.batchSerial + 1) (s.uncut.take 32) = m :: ms → s.fwd.up = true →
    65536 < s.officeBytes + (messageBytes m).length → t = { s with
      journal := { s.journal with
        records := s.journal.records.map fun r => if r ∈ s.uncut.take 32 then { r with sent := true } else r
        outstanding := s.journal.outstanding ++ [⟨first.serial, last.serial, (s.uncut.take 32).length⟩] }
      fwd := { s.fwd with sessionPath := some .local, heldParcel := some ⟨s.parcelOf m, 0⟩ }
      link := { s.link with
        batchSerial := s.link.batchSerial + 1, toSend := m :: ms, waiting := true
        window := s.link.window ++ [⟨s.link.batchSerial + 1, first.serial, last.serial, false⟩] } }
  queued : ∀ first last, s.uncut.head? = some first → s.uncut.getLast? = some last → s.uncut.length ≤ 32 →
    s.journal.outstanding.length < 2 → (∀ b ∈ s.link.window, b.serial ≠ s.link.batchSerial + 1) →
    s.Carries (partsOf (s.link.batchSerial + 1) s.uncut) → t = { s with
      journal := { s.journal with
        records := s.journal.records.map fun r => if r ∈ s.uncut then { r with sent := true } else r
        outstanding := s.journal.outstanding ++ [⟨first.serial, last.serial, s.uncut.length⟩] }
      fwd := s.carried (partsOf (s.link.batchSerial + 1) s.uncut)
      link := { s.link with
        batchSerial := s.link.batchSerial + 1, replyTimer := some (s.now + Config.seconds 30)
        window := s.link.window ++ [⟨s.link.batchSerial + 1, first.serial, last.serial, true⟩] } }

/-- A copy of file `n` is on its way, so that the session does not ask for it (R177). -/
def State.CopyComes (s : State) (n : Nat) : Prop :=
  s.staging.owner = .trunk ∨ (s.staging.owner = .session ∧ s.staging.phase = .releasing) ∨
    ∃ heard, s.link.announce = some (n, heard) ∧ s.now ≤ heard + Config.minutes 10

/-- The session record once SESSION-END with this file outcome has been QUEUED (R167, R181). -/
def Link.ended (l : Link) (o : FileOutcome) : Link :=
  { l with
    state := .done, outcome := o, replyTimer := none, window := [], toSend := [], waiting := false, kind := none
    cut := none, newest := none }

/-- How a session whose upload is over goes on from `s` to `t`, where its messages find room (R175, R177, R181): with no
newer file it ends with the outcome NONE; with a copy of the newer file `n` on its way it hands over SKIP-FILE and ends with
SKIPPED; else it takes the staging list for file `n`, hands over FILE-WANTED and awaits the answer for 30 s. -/
structure State.Decides (s : State) (n : Nat) (t : State) : Prop where
  ends : n ≤ s.link.held → s.Carries [.sessionEnd s.link.acked .none] →
    t = { s with fwd := s.carried [.sessionEnd s.link.acked .none], link := s.link.ended .none }.bump .attemptsCompleted
  skips : s.link.held < n → s.CopyComes n → s.Carries [.skipFile n, .sessionEnd s.link.acked .skipped] →
    t = ({ s with
      fwd := s.carried [.skipFile n, .sessionEnd s.link.acked .skipped], link := s.link.ended .skipped }.bump
        .filesSkipped).bump .attemptsCompleted
  wants : s.link.held < n → ¬ s.CopyComes n → s.staging.owner = .none → s.Carries [.fileWanted n] →
    t = { s with
      fwd := s.carried [.fileWanted n]
      link := { s.link with state := .downloading, replyTimer := some (s.now + Config.seconds 30) }
      staging := { Staging.empty with owner := .session, serial := n } }

/-- How a session that becomes CLOSING goes on from `s` to `t`, the messages `ms` standing before its SESSION-END (R172,
R180, R181): behind one that waits with the forwarding unit all the messages formed before stay and these follow; where they
find room they are handed over in order, and the attempt ends. -/
structure State.Closes (s : State) (ms : List OutMessage) (o : FileOutcome) (t : State) : Prop where
  outcome : t.link.outcome = o
  state : t.link.state = .closing ∨ t.link.state = .done
  waits : s.link.waiting = true → t.fwd = s.fwd ∧ t.link = { s.link with
    state := .closing, outcome := o, replyTimer := none, toSend := s.link.toSend ++ ms ++ [.sessionEnd s.link.acked o] }
  handed : s.link.waiting = false → s.Carries (ms ++ [.sessionEnd s.link.acked o]) →
    t.fwd = s.carried (ms ++ [.sessionEnd s.link.acked o]) ∧ t.link = s.link.ended o

/-- What the completion of a withdrawal leaves of article `a`, whose entry was `e` with the changeover `c`: its labels
are unbound, and its entry is gone, or waits with the queued SET and without current terms (R19, R86; the version of such an
entry is log 47's). -/
structure State.Withdrawn (s : State) (a : Nat) (e : Entry) (c : Changeover) (t : State) : Prop where
  labels : ∀ n o, s.owned n = some o → o.bound = some a →
    ∃ p, t.owned n = some p ∧ p.bound = none ∧ p.target = .unbound ∧ p.display = o.display
  removed : (∀ q k x, c.queued = some q → q.action ≠ .set k x) → t.entry a = none
  waits : ∀ q k x, c.queued = some q → q.action = .set k x → t.entry a = some { e with
    kind := k, current := none, version := c.pending.version, phase := .waiting q
    bound := e.bound - (s.boundLabels a).length }

/-- Another window attempt can follow a failure: the store time lies in the window more than 10 min before its end, and
fewer than three window attempts have been made (R183). -/
def State.CanRest (s : State) : Prop := ∃ day left, s.window = some (day, left) ∧ s.link.attemptCount < 3 ∧ 600 < left

/-! ### The invariants of the price book and of the label table -/

/-- The versions of an entry strictly rise from current to pending to queued (R1). -/
def Entry.Rising (e : Entry) : Prop :=
  match e.phase with
  | .steady => True
  | .waiting p => e.version < p.version
  | .changing c => e.version < c.pending.version ∧ ∀ q, c.queued = some q → c.pending.version < q.version

/-- The price book as R1 keeps it: at most 65,536 entries, each article code at most once, each with rising versions. -/
structure Book.Ok (b : Book) : Prop where
  once : AMap.wf b.entries = true
  size : b.entries.length ≤ Config.bookCapacity
  rising : ∀ x ∈ b.entries, x.2.Rising

/-- The label table as R77 and R109 keep it: at most 2,048 entries, each label at most once, OWNED or HEARD. -/
structure Labels.Ok (l : Labels) : Prop where
  owned : AMap.wf l.owned = true
  heard : AMap.wf l.heard = true
  apart : ∀ n, (AMap.get l.owned n).isSome → AMap.get l.heard n = none
  size : l.owned.length + l.heard.length ≤ Config.labelCapacity

end Sys2Proof.Machine
end

