-- ==== Sys2Proof/Certificates/Slice0/Obligations.lean ====
section
/-! DEFINITION. The statements for the provers: what the commands and the whole part do, rule by rule of the manual.
A statement of one command says the whole next state where it can, and else names the fields it speaks of;
`CommandsChangeOnlyTheirFields` says which other fields stay. -/

open Sys2Proof Sys2Proof.Machine

/-! ### The queue of commands and the frames -/

/-- DESIGN CHOICE of the model (log 1), not a rule: the part takes the command at the front of its queue and runs it
on the state with the queue's rest. With no command waiting the part idles. -/
def Obligations.StepRunsFrontCommand : Prop :=
  (∀ (c : Instr) (rest : List Instr) (s : State), s.pending = c :: rest →
     step s = exec c { s with pending := rest }) ∧
  ∀ s : State, s.pending = [] → step s = .next s

/-- Every command answers a next state from every state, and changes no field of it but those `touches` lists for it;
the queue is in no list. -/
def Obligations.CommandsChangeOnlyTheirFields : Prop :=
  ∀ (c : Instr) (s : State), ∃ t, exec c s = .next t ∧ keeps (touches c) s t

/-- A command of one lane leaves every other lane's record and basket as they were (R26, R34). -/
def Obligations.LaneCommandsLeaveOtherLanes : Prop :=
  ∀ (c : Instr) (l m : LaneNo) (s t : State), laneOf c = some l → m ≠ l → exec c s = .next t → t.lane m = s.lane m

/-! ### Till lanes and baskets (02) -/

/-- A lane request on a lane that serves none: in STARTING and on a DISABLED lane it is discarded (R28), and in HALTED
it is answered HALT, which is not saved (R29). That a request in HALTED puts its lane UP and restarts its timer is log
34's: the model's choice. A bad frame raises the lane's oversize or check error count and changes nothing else; in
STARTING and on a DISABLED lane it is not counted (R28, R29). When a lane's 10 s have passed it goes to DOWN, and its
basket, its activity and its AUTH in flight stay (R26, R27). -/
def Obligations.LanesOutsideServiceAndSilence : Prop :=
  (∀ (c : Instr) (l : LaneNo) (bit : Bool) (k : RequestKind) (s : State),
     laneRequest c = some (l, bit, k) → s.live = true →
       (s.part = .starting → exec c s = .next s) ∧
       (s.part = .halted → exec c s = .next
         ((s.withLane l fun x => { x with state := .up, timer := some (s.now + Config.seconds 10) }).emit
           (.laneReply l bit .halt))) ∧
       (s.serving = true → (s.lane l).state = .disabled → exec c s = .next s)) ∧
  (∀ (l : LaneNo) (why : LaneFault) (s : State), s.live = true →
     (s.part ≠ .starting → (s.part = .halted ∨ (s.lane l).state ≠ .disabled) →
       exec (.laneFrameBad l why) s = .next (s.withLane l fun x =>
         { x with oversize := if why = .oversize ∨ why = .authLength then min (x.oversize + 1) 4294967295 else x.oversize
                  checkErrors :=
                    if why = .check ∨ why = .tender then min (x.checkErrors + 1) 4294967295 else x.checkErrors })) ∧
     (s.part = .starting → exec (.laneFrameBad l why) s = .next s) ∧
     (s.serving = true → (s.lane l).state = .disabled → exec (.laneFrameBad l why) s = .next s) ∧
     (∀ bit p, (p.length = 0 ∨ 512 < p.length) → exec (.auth l bit p) s = exec (.laneFrameBad l .authLength) s)) ∧
  ∀ (l : LaneNo) (due : Nat) (s : State), s.live = true → (s.lane l).timer = some due →
    exec (.laneTimeout l) s = .next
      { s.withLane l fun x => { x with state := .down, timer := none } with now := max s.now due }

/-- The first request after a reset is answered RESTARTED with the lane's last closed serial, and is not acted on
(R30). A request whose bit and kind are the lane's last ones is a repeat: the saved reply is sent again and nothing
else is changed but the lane's state and timer (R31). While an AUTH is in flight a request that is not a repeat is
answered WAIT, which is not saved (R32). -/
def Obligations.RequestsAnsweredWithoutEffect : Prop :=
  (∀ (c : Instr) (l : LaneNo) (bit : Bool) (k : RequestKind) (s : State),
     laneRequest c = some (l, bit, k) → s.Serves l → (s.lane l).restart = true →
       exec c s = .next
         ((s.withLane l fun x =>
           { x with state := .up, timer := some (s.now + Config.seconds 10), restart := false
                    last := some (bit, k, .restarted x.lastClosed) }).emit
           (.laneReply l bit (.restarted (s.lane l).lastClosed)))) ∧
  (∀ (c : Instr) (l : LaneNo) (bit : Bool) (k : RequestKind) (r : LaneReply) (s : State),
     laneRequest c = some (l, bit, k) → s.Serves l → (s.lane l).restart = false → (s.lane l).last = some (bit, k, r) →
       exec c s = .next
         ((s.withLane l fun x => { x with state := .up, timer := some (s.now + Config.seconds 10) }).emit
           (.laneReply l bit r))) ∧
  ∀ (c : Instr) (l : LaneNo) (bit : Bool) (k : RequestKind) (a : AuthFlight) (s : State),
    laneRequest c = some (l, bit, k) → s.Serves l → (s.lane l).restart = false → (s.lane l).flight = some a →
    (∀ r, (s.lane l).last ≠ some (bit, k, r)) →
      exec c s = .next
        ((s.withLane l fun x => { x with state := .up, timer := some (s.now + Config.seconds 10) }).emit
          (.laneReply l bit .wait))

/-- OPEN-BASKET opens a basket with the next id, or is refused BASKET-OPEN with the id of the basket already open
(R36). CANCEL discards the basket and counts it; with no basket it is refused NO-BASKET (R43). The command that a
basket is idle for 30 min abandons it and counts it, and sends nothing (R45). That the command brings part time to
that moment, and has no premise that it has passed, is log 1's: the model's choice. -/
def Obligations.BasketsOpenAndEnd : Prop :=
  (∀ (l : LaneNo) (bit : Bool) (s : State), s.TakesNew l bit .openBasket →
     ((s.lane l).basket = none →
       let id := if (s.lane l).basketId < 65535 then (s.lane l).basketId + 1 else 1
       exec (.openBasket l bit) s = .next (s.served l bit .openBasket (.ok (some id)) fun x =>
         { x with
           basketId := id
           basket := some { id := id, lines := [], terms := [], running := 0, lastActivity := s.now, result := none } })) ∧
     (∀ b, (s.lane l).basket = some b →
       exec (.openBasket l bit) s = .next (s.served l bit .openBasket (.basketOpen b.id) fun x => x))) ∧
  (∀ (l : LaneNo) (bit : Bool) (s : State), s.TakesNew l bit .cancel →
     ((s.lane l).basket = none → exec (.cancel l bit) s = .next (s.served l bit .cancel .noBasket fun x => x)) ∧
     ((s.lane l).basket ≠ none → exec (.cancel l bit) s = .next
       ((s.bump .basketsCancelled).served l bit .cancel (.ok none) fun x => { x with basket := none }))) ∧
  ∀ (l : LaneNo) (s : State) (b : Basket), s.live = true → (s.lane l).basket = some b →
    exec (.basketAbandon l) s = .next
      (({ s with now := max s.now (b.lastActivity + Config.minutes 30) }.withLane l fun x =>
        { x with basket := none }).bump .basketsAbandoned)

/-- An ITEM refused by the tests of R37, in their order, leaves its basket as it was but for the last-activity time. A
CLOSE refused by the tests of R41, in their order, leaves its basket as it was but for the last-activity time. -/
def Obligations.ItemAndCloseTestsInOrder : Prop :=
  (∀ (l : LaneNo) (bit : Bool) (a q : Nat) (m : Option Nat) (s : State), s.TakesNew l bit .item →
     let answers (r : LaneReply) : Prop := exec (.item l bit a q m) s = .next (s.served l bit .item r fun x => x)
     ((s.lane l).basket = none → answers .noBasket) ∧
     ∀ b, (s.lane l).basket = some b →
       (250 ≤ b.lines.length → answers .basketFull) ∧
       (b.lines.length < 250 →
         ((∀ t ∈ b.terms, t.article ≠ a) →
           ((a = 0 ∨ 9999999999999 < a ∨ s.entry a = none) → answers .unknownItem) ∧
           (1 ≤ a → a ≤ 9999999999999 → ∀ e, s.entry a = some e →
             (e.current = none → answers .notForSale) ∧
             (e.current ≠ none → 100 ≤ b.terms.length → answers .basketFull))) ∧
         (∀ t new, s.itemTerms b a = .inr (t, new) →
           ((quantityOk t.kind q (m.getD 0) = false) → answers .badQuantity) ∧
           (quantityOk t.kind q (m.getD 0) = true →
             (9999999 < lineAmount t q (m.getD 0) ∨ 99999999 < b.running + lineAmount t q (m.getD 0)) →
               answers .overlimit)))) ∧
  ∀ (l : LaneNo) (bit : Bool) (x : Tender) (s : State), s.TakesNew l bit .close →
    let answers (r : LaneReply) (t : State) : Prop :=
      exec (.close l bit x) s = .next (t.served l bit .close r fun x => x)
    ((s.lane l).basket = none → answers .noBasket s) ∧
    ∀ b, (s.lane l).basket = some b →
      (b.result = none → answers .notTotalled s) ∧
      (b.result ≠ none → (∀ y ∈ b.lines, y.void = true) → answers .empty s) ∧
      (b.result ≠ none → (∃ y ∈ b.lines, y.void = false) →
        (16384 ≤ s.journal.records.length ∨ s.journal.counter = .exhausted) →
          answers .journalFull (s.bump .appendsRefused))

/-- An ITEM that passes every test is accepted: the line is appended, priced from the basket's terms record or from
the entry's view, which then joins the terms list, and a TOTALLED basket returns to OPEN (R35, R38). -/
def Obligations.ItemAppendsOneLine : Prop :=
  ∀ (l : LaneNo) (bit : Bool) (a q : Nat) (m : Option Nat) (s : State) (b : Basket) (t : TermsRecord) (first : Bool),
    s.TakesNew l bit .item → (s.lane l).basket = some b → b.lines.length < 250 →
    (first = false → b.terms.find? (fun t => t.article == a) = some t) →
    (first = true → (∀ t ∈ b.terms, t.article ≠ a) ∧ b.terms.length < 100 ∧ 1 ≤ a ∧ a ≤ 9999999999999 ∧
      ∃ e c, s.entry a = some e ∧ e.current = some c ∧
        t = { article := a, kind := e.kind, current := c, version := e.version, pending := e.pendingTerms }) →
    quantityOk t.kind q (m.getD 0) = true →
    lineAmount t q (m.getD 0) ≤ 9999999 → b.running + lineAmount t q (m.getD 0) ≤ 99999999 →
      let amount := lineAmount t q (m.getD 0)
      exec (.item l bit a q m) s = .next
        (s.served l bit .item (.itemOk (b.lines.length + 1) amount (b.running + amount)) fun x =>
          { x with basket := some { b with
              lines := b.lines ++ [{ article := t.article, kind := t.kind, quantity := q, markdown := m.getD 0,
                                     amount := amount, void := false, version := t.version,
                                     pendingVersion := t.pending.map (·.2) }]
              terms := if first then b.terms ++ [t] else b.terms
              running := b.running + amount, lastActivity := s.now, result := none } })

/-- VOID of a live line sets its void flag and takes its amount from the running total; with no basket it is refused
NO-BASKET, and a number that names no live line NO-SUCH-LINE (R39). TOTAL makes TOTAL, the deal reduction and the
changeover flag the basket's total result, which is 0, 0 and clear for a basket with no live line; with no basket it
is refused NO-BASKET (R40). -/
def Obligations.VoidAndTotal : Prop :=
  (∀ (l : LaneNo) (bit : Bool) (n : Nat) (s : State), s.TakesNew l bit .void →
     ((s.lane l).basket = none → exec (.void l bit n) s = .next (s.served l bit .void .noBasket fun x => x)) ∧
     ∀ b, (s.lane l).basket = some b →
       ((n = 0 ∨ b.lines.length < n ∨ ∃ x, b.lines[n - 1]? = some x ∧ x.void = true) →
         exec (.void l bit n) s = .next (s.served l bit .void .noSuchLine fun x => x)) ∧
       (∀ x, 1 ≤ n → b.lines[n - 1]? = some x → x.void = false →
         exec (.void l bit n) s = .next (s.served l bit .void (.voidOk (b.running - x.amount)) fun y =>
           { y with basket := some { b with
               lines := b.lines.set (n - 1) { x with void := true }, running := b.running - x.amount
               lastActivity := s.now, result := none } }))) ∧
  ∀ (l : LaneNo) (bit : Bool) (s : State), s.TakesNew l bit .total →
    ((s.lane l).basket = none → exec (.total l bit) s = .next (s.served l bit .total .noBasket fun x => x)) ∧
    ∀ b, (s.lane l).basket = some b →
      let red := (b.terms.map (dealReduction b.lines)).sum
      let changeover := b.lines.any fun x => !x.void && x.pendingVersion.isSome
      exec (.total l bit) s = .next
        (s.served l bit .total (.totalOk (b.running - red) red changeover) fun x =>
          { x with basket := some { b with
              lastActivity := s.now
              result := some { total := b.running - red, reduction := red, changeover := changeover } } }) ∧
      (b.Ok → (∀ x ∈ b.lines, x.void = true) → b.running - red = 0 ∧ red = 0 ∧ changeover = false)

/-- A CLOSE that passes its tests, the watermark not being crossed, appends one record with the counter's serial, the
tender, the amount due and the whole line list, makes the serial the lane's last closed one and the basket NONE, and
is answered CLOSED (R42, R66, R68). A CLOSE that raises the record count to the high watermark appends its record as
any other, sets the high flag and records JOURNAL-HIGH with the record count; the CLOSE itself is answered as any
other (R68, R69). In LISTENING the crossing is remembered for the end of the listening period (R171); in RUNNING and
LISTEN-ONLY it may start an attempt, whose failure would clear the sent marks alone (R73). -/
def Obligations.CloseAppendsJournalRecord : Prop :=
  (∀ (l : LaneNo) (bit : Bool) (x : Tender) (n : Nat) (s : State) (b : Basket) (r : TotalResult),
     s.TakesNew l bit .close → (s.lane l).basket = some b → b.result = some r → (∃ y ∈ b.lines, y.void = false) →
     s.journal.counter = .next n → s.journal.records.length < 16384 →
     s.journal.records.length + 1 ≠ s.settings.highWatermark →
       let due := amountDue s.settings.cashStep r.total x
       let record : JournalRecord :=
         { serial := n, lane := l, time := s.unit.clock, tender := x, due := due, total := r.total
           reduction := r.reduction, changeover := r.changeover, lines := b.lines, sent := false }
       exec (.close l bit x) s = .next
         (({ s with journal := { s.journal with
               records := s.journal.records ++ [record]
               counter := if n < 4294967295 then .next (n + 1) else .exhausted } }.bump .appendsTaken).served l bit .close
           (.closed n due) fun y => { y with lastClosed := n, basket := none })) ∧
  ∀ (l : LaneNo) (bit : Bool) (x : Tender) (n : Nat) (s : State) (b : Basket) (r : TotalResult),
    s.TakesNew l bit .close → (s.lane l).basket = some b → b.result = some r → (∃ y ∈ b.lines, y.void = false) →
    s.journal.counter = .next n → s.journal.records.length < 16384 →
    s.journal.records.length + 1 = s.settings.highWatermark →
      let due := amountDue s.settings.cashStep r.total x
      let record : JournalRecord :=
        { serial := n, lane := l, time := s.unit.clock, tender := x, due := due, total := r.total
          reduction := r.reduction, changeover := r.changeover, lines := b.lines, sent := false }
      let counter : SerialCounter := if n < 4294967295 then .next (n + 1) else .exhausted
      let unmarked (q : List JournalRecord) : List JournalRecord := q.map fun y => { y with sent := false }
      ∃ t, exec (.close l bit x) s = .next t ∧ t.journal.high = true ∧ t.journal.counter = counter ∧
        unmarked t.journal.records = unmarked (s.journal.records ++ [record]) ∧
        t.count .appendsTaken = min (s.count .appendsTaken + 1) 4294967295 ∧
        (t.lane l).last = some (bit, .close, .closed n due) ∧
        (t.lane l).lastClosed = n ∧ (t.lane l).basket = none ∧
        (∃ a ∈ t.alerts.list, a.kind = .journalHigh ∧ a.subject = .self ∧ a.severity = .warn ∧
          a.detail = .count s.settings.highWatermark) ∧
        (s.part = .listening → t.link = { s.link with earlyPending := true } ∧
          t.journal = { s.journal with records := s.journal.records ++ [record], counter := counter, high := true })

/-- LOOKUP answers PRICE from the book as it stands, or UNKNOWN-ITEM, and changes neither the book nor the basket but
for the last-activity time (R22, R44). -/
def Obligations.LookupReadsTheBook : Prop :=
  ∀ (l : LaneNo) (bit : Bool) (a : Nat) (s : State), s.TakesNew l bit .lookup →
    ((a = 0 ∨ 9999999999999 < a ∨ s.entry a = none) →
      exec (.lookup l bit a) s = .next (s.served l bit .lookup .unknownItem fun x => x)) ∧
    (1 ≤ a → a ≤ 9999999999999 → ∀ e, s.entry a = some e →
      exec (.lookup l bit a) s = .next (s.served l bit .lookup
        (.price { kind := e.kind, state := e.state, changeover := e.pendingTerms.isSome, current := e.current,
                  pending := e.pendingTerms.map (·.1) }) fun x => x))

/-- A new AUTH is routed at once (R151). On a live uplink its parcel joins the TILL queue, or is sent at once by an
IDLE transmitter; without one it goes to the holder in a RELAY frame. The lane then awaits the outcome with no reply
yet. With the first queue full the answer is BUSY, and with neither uplink nor holder NO-ROUTE (R46). -/
def Obligations.AuthIsHandedOn : Prop :=
  ∀ (l : LaneNo) (bit : Bool) (p : List Byte) (s : State), s.TakesNew l bit .auth → 1 ≤ p.length → p.length ≤ 512 →
    let n := if (s.lane l).authCount < 65535 then (s.lane l).authCount + 1 else 1
    let parcel : Parcel :=
      { cls := .till, origin := s.settings.station, port := .lane l, tag := n, guest := none, status := .data, payload := p }
    let queued := (s.fwd.till.map (·.payload.length)).sum + p.length
    let entry (path : AuthPath) := AMap.put s.fwd.pendingTable l.val ⟨n, path⟩
    let awaits (t : State) : State := t.withLane l fun x =>
      { x with state := .up, timer := some (s.now + Config.seconds 10), basket := x.basket.map (·.active s.now)
               authCount := n, flight := some { count := n, bit := bit, due := s.now + Config.seconds 20 } }
    let answers (r : LaneReply) (t : State) : Prop :=
      exec (.auth l bit p) s = .next (t.served l bit .auth r fun x => { x with authCount := n })
    (s.fwd.up = true →
      (queued ≤ 16384 → s.fwd.sending ≠ none →
        exec (.auth l bit p) s = .next (awaits
          { s with fwd := { s.fwd with till := s.fwd.till ++ [parcel], pendingTable := entry (.local false) } })) ∧
      (s.fwd.till = [] → s.fwd.sending = none →
        exec (.auth l bit p) s = .next (awaits
          { s with fwd := { s.fwd with
              sending := some (parcel, s.now + p.length * 8000 / s.settings.uplinkRate)
              pendingTable := entry (.local false) } })) ∧
      (16384 < queued → answers .busy (s.bump .tillBusy))) ∧
    (s.fwd.up = false →
      (∀ h, s.fwd.holder = some h → s.canSend = true → s.trunk.urgent.length < 8 →
        exec (.auth l bit p) s = .next (awaits
          { s with
            trunk := { s.trunk with
              urgent := s.trunk.urgent ++ [{ dest := some h, body := .relay parcel, purpose := .relayOut, attempts := 0 }] }
            fwd := { s.fwd with pendingTable := entry (.relay h) } })) ∧
      (∀ h, s.fwd.holder = some h → (s.canSend = false ∨ 8 ≤ s.trunk.urgent.length) →
        answers .busy ((s.bump .notTakenUrgent).bump .tillBusy)) ∧
      (s.fwd.holder = none → answers .noRoute (s.bump .tillNoRoute)))

/-- An AUTH still in flight after 20 s is answered TIMEOUT, its entry leaves the pending table, and its parcel the
TILL queue if it is still there (R47, R155). A returning TILL parcel, from the uplink or in a RELAY frame, answers the
AUTH in flight whose tag it carries: AUTH-REPLY with its payload, or NO-ROUTE or BUSY for a failure report; one
without a pending table entry is counted and is late, and one whose AUTH has ended is late. A reply of no payload or
of more than 512 bytes is late too, and leaves the AUTH in flight (R47, R48, R153, R155). That its pending table entry
then stays is log 59's, and that an outcome without an entry raises both the count of those and the lane's late reply
count is log 60's: the model's choices. -/
def Obligations.AuthFlightsEnd : Prop :=
  (∀ (l : LaneNo) (f : AuthFlight) (path : AuthPath) (s : State), s.live = true → (s.lane l).flight = some f →
     AMap.get s.fwd.pendingTable l.val = some ⟨f.count, path⟩ →
       exec (.authTimeout l) s = .next
         { ((s.withLane l fun x => { x with flight := none, last := some (f.bit, .auth, .timeout) }).emit
             (.laneReply l f.bit .timeout)) with
           now := max s.now f.due
           fwd := { s.fwd with
             pendingTable := AMap.del s.fwd.pendingTable l.val
             till := match path with
               | .local _ => s.fwd.till.filter fun p =>
                 !(p.cls == .till && p.origin == s.settings.station && p.port == .lane l && p.tag == f.count)
               | .relay _ => s.fwd.till } }) ∧
  ∀ (s : State) (p : Parcel) (l : LaneNo), s.live = true → s.serving = true → p.cls = .till → p.port = .lane l →
    p.guest = none → p.origin = s.settings.station → p.payload.length ≤ 1500 →
    let reply : LaneReply := match p.status with
      | .data => .authReply p.payload
      | .noRoute => .noRoute
      | .busy => .busy
    let carried : Prop := p.status = .data → 1 ≤ p.payload.length ∧ p.payload.length ≤ 512
    let entry (t : State) : Option PendingAuth := AMap.get t.fwd.pendingTable l.val
    let taken (t : State) : State := t.withFwd fun w => { w with pendingTable := AMap.del w.pendingTable l.val }
    let late (t : State) : State := t.withLane l fun x => { x with lateReplies := min (x.lateReplies + 1) 4294967295 }
    let outcome (c : Instr) (h : State) : Prop :=
      ((∀ e, entry h = some e → e.count ≠ p.tag) → exec c s = .next (late (h.bump .repliesNoEntry))) ∧
      (∀ e, entry h = some e → e.count = p.tag →
        (carried →
          (∀ a, (h.lane l).flight = some a → a.count = p.tag → exec c s = .next
            (((taken h).withLane l fun x => { x with flight := none, last := some (a.bit, .auth, reply) }).emit
              (.laneReply l a.bit reply))) ∧
          ((∀ a, (h.lane l).flight = some a → a.count ≠ p.tag) → exec c s = .next (late (taken h)))) ∧
        (¬ carried → exec c s = .next (late h)))
    (p.status = .data → outcome (.uplinkParcelReceived p) s) ∧
    (∀ f : FrameHead, s.Hears f.src → f.dest = .station s.settings.station → s.part ≠ .listenOnly →
      outcome (.relayReceived f p) (s.heardFrom f.src id))

/-! ### Pricing (03) -/

/-- The line amount by its formula: under each terms set the price times the quantity, for WEIGHED divided by 1,000
and rounded half up, less the markdown's percentage of it rounded half up; with pending terms the lesser of the two
(R52 to R55). A quantity is 1 to 999, or 1 to 99,999 g for WEIGHED, and a markdown 90 at most (R37). A line amount
does not exceed the reduced amount under either terms set, and it is the reduced amount under the lower of the two
prices; a reduced amount never falls as the base amount rises (R54, R55). The cash amount due is TOTAL rounded half up
to a multiple of the cash step; for CARD and OTHER it is TOTAL; and it lies in 0..100,000,000 (R62, R63). -/
def Obligations.LineAndCashAmounts : Prop :=
  ((∀ (r : TermsRecord) (q m : Nat),
     let base (t : Terms) : Nat := if r.kind = .weighed then (t.price * q + 500) / 1000 else t.price * q
     let reduced (t : Terms) : Nat := base t - (base t * m + 50) / 100
     (r.pending = none → lineAmount r q m = reduced r.current) ∧
     ∀ t v, r.pending = some (t, v) → lineAmount r q m = min (reduced r.current) (reduced t)) ∧
   ∀ (k : ArticleKind) (q m : Nat), quantityOk k q m = true ↔
     1 ≤ q ∧ q ≤ (if k = .weighed then 99999 else 999) ∧ m ≤ 90) ∧
  ((∀ a b m, m ≤ 90 → a ≤ b → markedDown a m ≤ markedDown b m) ∧
   ∀ (r : TermsRecord) (q m : Nat), m ≤ 90 →
     lineAmount r q m ≤ markedDown (baseAmount r.kind r.current q) m ∧
     ∀ t v, r.pending = some (t, v) →
       lineAmount r q m ≤ markedDown (baseAmount r.kind t q) m ∧
       lineAmount r q m = markedDown (baseAmount r.kind { t with price := min t.price r.current.price } q) m) ∧
  ∀ (c t : Nat), (c = 1 ∨ c = 2 ∨ c = 5 ∨ c = 10) → t ≤ 99999999 →
    amountDue c t .cash % c = 0 ∧ amountDue c t .cash ≤ t + c / 2 ∧ t < amountDue c t .cash + (c + 1) / 2 ∧
      amountDue c t .card = t ∧ amountDue c t .other = t ∧ ∀ x, amountDue c t x ≤ 100000000

/-- TOTAL and the deal reduction of a basket add up to its running total, so TOTAL does not exceed it, and the
reduction is the sum of those of its articles (R61). An article that is not MULTI has none. A MULTI article's live
lines without a markdown, of count Q and amount P, are charged the least of P and the deal's cost under each of its
terms sets, whole groups at the lesser of the group price and the group's single prices and the remainder at the unit
price (R58, R59, R60). -/
def Obligations.DealsNeverExceedRunningTotal : Prop :=
  ∀ b : Basket, b.Ok →
    (priceTotal b).1 + (priceTotal b).2 = b.running ∧
    (priceTotal b).2 = (b.terms.map (dealReduction b.lines)).sum ∧
    ∀ r ∈ b.terms,
      (r.kind ≠ .multi → dealReduction b.lines r = 0) ∧
      (r.kind = .multi →
        let deal := b.lines.filter fun x => !x.void && x.article == r.article && x.markdown == 0
        let q := (deal.map (·.quantity)).sum
        let p := (deal.map (·.amount)).sum
        let cost (t : Terms) : Nat :=
          q / t.groupSize * min t.groupPrice (t.groupSize * t.price) + q % t.groupSize * t.price
        let charge := p - dealReduction b.lines r
        dealReduction b.lines r ≤ p ∧
          (r.pending = none → charge = min p (cost r.current)) ∧
          ∀ t v, r.pending = some (t, v) → charge = min p (min (cost r.current) (cost t)))

/-! ### The price book (01) -/

/-- A change record passes the checks of R2 exactly when its fields lie in their ranges. That a change code, or a SET
record's kind code, outside 12.1 fails the check is log 12's: the model's choice, on which R2 is silent. A record that
fails a check is a bad record: it is counted, and the book and all else stay as they were (R2). A record that passes
carries its version, its effective time, its file serial and the SET of its kind's terms or the WITHDRAW (R2). What a
change record that passes its checks does to the book, by the state of its article's entry; one whose kind clashes
with the entry's is refused and counted as a bad record too (R2, R4 to R7). -/
def Obligations.ChangeRecordsAreCheckedAndApplied : Prop :=
  (∀ r : ChangeRecord, (recordChange r).isSome = true ↔
     (1 ≤ r.article ∧ r.article ≤ 9999999999999) ∧ (1 ≤ r.version ∧ r.version ≤ 4294967295) ∧ r.effective.sec ≤ 86399 ∧
     (r.changeCode = 2 ∨ (r.changeCode = 1 ∧ (1 ≤ r.price ∧ r.price ≤ 9999999) ∧
       (r.kindCode = 1 ∨ r.kindCode = 2 ∨
         (r.kindCode = 3 ∧ (2 ≤ r.groupSize ∧ r.groupSize ≤ 9) ∧ (1 ≤ r.groupPrice ∧ r.groupPrice ≤ 99999999)))))) ∧
  (∀ (s : State) (r : ChangeRecord), recordChange r = none → s.applyRecord r = (.badRecord, s.bump .badRecords)) ∧
  (∀ (r : ChangeRecord) (c : Change), recordChange r = some c →
     c.version = r.version ∧ c.effective = r.effective ∧ c.fileSerial = r.fileSerial ∧
     (r.changeCode = 2 → c.action = .withdraw) ∧
     (r.changeCode = 1 →
       (r.kindCode = 1 → c.action = .set .each ⟨r.price, 0, 0⟩) ∧
       (r.kindCode = 2 → c.action = .set .weighed ⟨r.price, 0, 0⟩) ∧
       (r.kindCode = 3 → c.action = .set .multi ⟨r.price, r.groupSize, r.groupPrice⟩))) ∧
  ∀ (s : State) (r : ChangeRecord) (c : Change), recordChange r = some c →
    (s.entry r.article = none →
      (c.action = .withdraw → s.applyRecord r = (.stale, s.bump .recordsStale)) ∧
      (∀ k t, c.action = .set k t → s.book.entries.length < 65536 →
        s.applyRecord r = (.applied, (s.putEntry r.article
          { kind := k, current := none, version := 0, phase := .waiting c, bound := 0 }).bump .recordsApplied)) ∧
      (∀ k t, c.action = .set k t → 65536 ≤ s.book.entries.length → s.book.fullNoted = true →
        s.applyRecord r = (.bookFull, s.bump .fullBookRefused)) ∧
      (∀ k t, c.action = .set k t → 65536 ≤ s.book.entries.length → s.book.fullNoted = false →
        s.applyRecord r = (.bookFull,
          (((s.bump .fullBookRefused).recordAlert .bookFull .warn (.article r.article) .nothing).withBook fun b =>
            { b with fullNoted := true })))) ∧
    (∀ e, s.entry r.article = some e →
      let clash := (∃ k t, c.action = .set k t ∧ k ≠ e.kind) ∧ e.current ≠ none ∧
        ¬ ∃ g, e.phase = .changing g ∧ g.pending.action = .withdraw
      let known := max e.version (max (versionOf e.pending) (versionOf e.queued))
      (clash → s.applyRecord r = (.kindMismatch, s.bump .badRecords)) ∧
      (¬ clash → c.version ≤ known → s.applyRecord r = (.stale, s.bump .recordsStale)) ∧
      (¬ clash → known < c.version → ∃ f : Entry,
        s.applyRecord r = (.applied, (s.putEntry r.article f).bump .recordsApplied) ∧
        f.current = e.current ∧ f.version = e.version ∧ f.bound = e.bound ∧
        (e.phase = .steady → f.phase = .waiting c ∧ f.kind = e.kind) ∧
        (∀ p, e.phase = .waiting p → f.phase = .waiting c ∧
          f.kind = (match c.action with | .set k _ => if e.current = none then k else e.kind | .withdraw => e.kind)) ∧
        (∀ g, e.phase = .changing g → f.phase = .changing { g with queued := some c } ∧ f.kind = e.kind)))

/-- The records of a received PRICE-CHANGE frame of no file, 1 to 32 of them, are applied one after another (R3). That
a frame which comes as FILE_PRICE_CHANGE_RECEIVED with file serial 0 is such a frame too, and its records are applied
likewise, is log 43's reading: the model's choice. RELEASE_RECORD applies the record at the release cursor and
advances the cursor; after the last record the held file serial is raised to the file's and the cursor indicates no
file (R8, R187). -/
def Obligations.RecordsReachTheBook : Prop :=
  (∀ (s : State) (f : FrameHead) (i : Nat) (rs : List ChangeRecord), s.Hears f.src → f.dest = .all →
     1 ≤ rs.length → rs.length ≤ 32 →
     (∀ r ∈ rs, r.changeCode = 2 ∨ (r.changeCode = 1 ∧ 1 ≤ r.kindCode ∧ r.kindCode ≤ 3)) →
       exec (.priceChangeReceived f rs) s = .next (rs.foldl (fun s r => (s.applyRecord r).2) (s.heardFrom f.src id)) ∧
       exec (.filePriceChangeReceived f 0 i rs) s =
         .next (rs.foldl (fun s r => (s.applyRecord r).2) (s.heardFrom f.src id))) ∧
  ∀ (s : State) (i : Nat) (r : ChangeRecord), s.live = true → s.book.cursor = some i →
    AMap.get s.staging.records i = some r →
      (i + 1 < s.staging.count.getD 0 →
        exec .releaseRecord s = .next ((s.applyRecord r).2.withBook fun b => { b with cursor := some (i + 1) })) ∧
      (s.staging.count.getD 0 ≤ i + 1 → ∃ t, exec .releaseRecord s = .next t ∧
        t.book.entries = (s.applyRecord r).2.book.entries ∧ t.book.cursor = none ∧
        t.link = { s.link with held := max s.link.held s.staging.serial } ∧
        t.count .filesReleased = min (s.count .filesReleased + 1) 4294967295 ∧
        (s.staging.share = none → t.staging = Staging.empty) ∧
        (s.staging.share ≠ none → t.staging = { s.staging with released := true }))

/-- What a second-timer expiry makes of each entry of the book (R9 to R11): while the examination is held nothing but
the timer moves on; while it is not, entries in STEADY and entries whose time has not come stay, an article not yet on
sale goes straight to STEADY or out of the book, a change to terms on sale whose time has come starts its changeover
(or completes at once, where no station is left held out), and an entry in CHANGING ages. That an entry whose deadline
has come stays CHANGING here, and is completed by CHANGEOVER_DEADLINE, is log 13's, and the order of the examination
logs 23's and 62's: the model's choices. A station that is ALIVE, is a controller and has not been queried for 60 s is
sent a SHELF-QUERY of the changes that hold it out and are 60 s old or more, the oldest first and the lowest article
among equals, each once and up to 64 of them; in the entries reported, and in no other, its query status becomes
QUERIED, the time of the query is recorded, and the query waits where the NOTICE queue is full; and no other station
is queried (R15). A second-timer expiry queries the stations after the examination, in rising order of number (log 49:
the model's choice). The first expiry that finds the clock set turns a countdown into a store time, that time and the
seconds that remain (R11). That this expiry lowers the countdown first, and that a query's status and time are
recorded also where the frame waits, is kept or is not taken, is log 23's; that the pending change of a changeover
keeps the effective time it was announced with is log 74's: the model's choices. -/
def Obligations.SecondTimerExaminesTheBook : Prop :=
  (∀ s : State, s.live = true →
     (s.working = false → exec .secondTimerExpiry s = .next
       { s with now := max s.now s.book.timer, book := { s.book with timer := s.book.timer + Config.seconds 1 } }) ∧
     (s.working = true → AMap.wf s.book.entries = true → ∃ t, exec .secondTimerExpiry s = .next t ∧
       t.now = max s.now s.book.timer ∧ t.book.timer = s.book.timer + Config.seconds 1 ∧
       keeps (.now :: shelfFields) s t ∧
       ∀ a e, s.entry a = some e →
         (e.phase = .steady → t.entry a = some e) ∧
         (∀ p, e.phase = .waiting p →
           let due : Prop := p.effective = ⟨0, 0⟩ ∨ ∃ now, s.unit.clock = some now ∧
             (p.effective.day < now.day ∨ (p.effective.day = now.day ∧ p.effective.sec ≤ now.sec))
           (¬ due → t.entry a = some e) ∧
           (due → e.current = none →
             (∀ k x, p.action = .set k x →
               t.entry a = some { e with kind := k, current := some x, version := p.version, phase := .steady }) ∧
             (p.action = .withdraw → t.entry a = none)) ∧
           (due → e.current ≠ none → AMap.wf s.labels.owned = true →
             let held := if s.settings.labelService = true ∧ s.shelfDone a p.version = true then
               s.newHoldout.filter fun h => h.station != s.self else s.newHoldout
             (held ≠ [] → t.entry a = some { e with phase := .changing {
               pending := p, queued := none, holdout := held, age := 0
               deadline := match s.unit.clock with
                 | some now => .at (timePlus now (s.settings.changeoverLimit * 3600))
                 | none => .countdown (s.settings.changeoverLimit * 3600) } }) ∧
             (held = [] →
               (∀ k x, p.action = .set k x →
                 t.entry a = some { e with kind := k, current := some x, version := p.version, phase := .steady }) ∧
               (p.action = .withdraw → t.entry a = none)))) ∧
         (∀ c, e.phase = .changing c → ∃ g, t.entry a = some { e with phase := .changing g } ∧
           g.pending = c.pending ∧ g.queued = c.queued ∧ g.age = min (c.age + 1) 86400 ∧
           g.holdout.map (·.station) = c.holdout.map (·.station) ∧
           (∀ x, c.deadline = .at x → g.deadline = .at x) ∧
           (∀ n, c.deadline = .countdown n → s.unit.clock = none → g.deadline = .countdown (n - 1)) ∧
           (∀ n x, c.deadline = .countdown n → s.unit.clock = some x → g.deadline = .at (timePlus x (n - 1)))))) ∧
  (∀ (s : State) (n : Station),
    let late (a : Nat) (c : Changeover) : Prop :=
      (∃ e, s.entry a = some e ∧ e.phase = .changing c) ∧ 60 ≤ c.age ∧ ∃ h ∈ c.holdout, h.station = n
    let due : Prop := n ≠ s.self ∧ (s.peer n).state = .alive ∧ (s.peer n).kind = some .controller ∧
      ∀ t, AMap.get s.book.queryTimes n.val = some t → t + Config.seconds 60 ≤ s.now
    (¬ due → s.queryStation n = s) ∧
    (AMap.wf s.book.entries = true → (∀ a c, ¬ late a c) → s.queryStation n = s) ∧
    (due → s.canSend = true → s.trunk.notice.length < 64 → ∀ a c, s.book.entries.map (·.1) = [a] → late a c →
      s.queryStation n = ((s.modifyEntry a fun e => { e with phase := .changing { c with
          holdout := c.holdout.map fun h => if h.station = n then { h with status := .queried } else h } }).withBook fun b =>
            { b with queryTimes := AMap.put b.queryTimes n.val s.now }).withTrunk fun t => { t with notice := t.notice ++
              [{ dest := some n, body := .shelfQuery [⟨a, c.pending.version⟩], purpose := .shelfQuestion, attempts := 0 }] }) ∧
    (due → AMap.wf s.book.entries = true → (∃ a c, late a c) → ∃ rs : List Report,
      let frame : Frame := { dest := some n, body := .shelfQuery rs, purpose := .shelfQuestion, attempts := 0 }
      let asked : State := s.withBook fun b => { b with
        queryTimes := AMap.put b.queryTimes n.val s.now
        entries := b.entries.map fun x => (x.1, if rs.any (fun r => r.article == x.1) then { x.2 with
          phase := match x.2.phase with
            | .changing c => .changing { c with
                holdout := c.holdout.map fun h => if h.station = n then { h with status := .queried } else h }
            | p => p } else x.2) }
      1 ≤ rs.length ∧ rs.length ≤ 64 ∧
      (∀ r ∈ rs, ∃ c, late r.article c ∧ r.version = c.pending.version) ∧
      (rs.length < 64 → ∀ a c, late a c → ⟨a, c.pending.version⟩ ∈ rs) ∧
      (∀ r ∈ rs, ∀ a c d, late r.article c → late a d → ⟨a, d.pending.version⟩ ∉ rs →
        d.age < c.age ∨ (d.age = c.age ∧ r.article < a)) ∧
      rs.Pairwise (fun r q => ∀ c d, late r.article c → late q.article d →
        d.age < c.age ∨ (d.age = c.age ∧ r.article < q.article)) ∧
      (s.canSend = false → s.queryStation n = asked.bump .notTakenNotice) ∧
      (s.canSend = true → s.trunk.notice.length < 64 →
        s.queryStation n = asked.withTrunk fun t => { t with notice := t.notice ++ [frame] }) ∧
      (s.canSend = true → 64 ≤ s.trunk.notice.length → (∀ g ∈ s.trunk.holdNotice, g.sender ≠ .book) →
        s.queryStation n = (asked.withTrunk fun t => { t with holdNotice := t.holdNotice ++ [frame] }).bump .framesWaited) ∧
      (s.canSend = true → 64 ≤ s.trunk.notice.length → (∃ g ∈ s.trunk.holdNotice, g.sender = .book) →
        (s.trunk.keptBy .book .notice).length < 64 →
          s.queryStation n = asked.withTrunk fun t => { t with kept := t.kept ++ [frame] }))) ∧
  (∀ s : State, s.live = true → s.working = true → exec .secondTimerExpiry s = .next
    ((List.finRange 16).foldl (fun s n => s.queryStation n) ((s.book.entries.map (·.1)).foldl (fun s a => s.examine a)
      { s with now := max s.now s.book.timer, book := { s.book with timer := s.book.timer + Config.seconds 1 } }))) ∧
  ∀ (s : State) (n : Station) (a : Nat) (e : Entry) (c : Changeover), s.live = true → s.part = .running →
    s.book.entries = [(a, e)] → e.phase = .changing c → 59 ≤ c.age → c.holdout = [⟨n, .none⟩] → n ≠ s.self →
    (s.peer n).state = .alive → (s.peer n).kind = some .controller → s.book.queryTimes = [] →
    s.trunk.notice.length < 64 →
      ∃ t, exec .secondTimerExpiry s = .next t ∧
        t.trunk = { s.trunk with notice := s.trunk.notice ++
          [{ dest := some n, body := .shelfQuery [⟨a, c.pending.version⟩], purpose := .shelfQuestion, attempts := 0 }] } ∧
        ∃ g, t.entry a = some { e with phase := .changing g } ∧ g.holdout = [⟨n, .queried⟩]

/-- A change to terms on sale whose time has come starts a changeover (R10, R11): unless it completes at once, the
entry is CHANGING with the holdout set of this station, when it has label service, and of every controller seen with
it, with age 0 and the deadline one changeover limit ahead; and every label bound to the article takes the new target
(R85). That the pending change keeps the effective time it was announced with is log 74's, and that the stations of a
holdout set stand in rising order of number, in the entry and in the alert, log 77's: the model's choices. When a
changeover's deadline is reached every station still held out is dropped, the change completes, and a
CHANGEOVER-FORCED alert carries the pending version and the stations dropped (R11, R18, R20). A withdrawal completes
with its article's labels unbound and their target the unbound BLANK; a queued SET then waits in an entry without
current terms, at the withdrawal's version (log 47's choice between R1 and R19), and else the entry is removed (R19,
R86). -/
def Obligations.ChangeoversStartAndAreForced : Prop :=
  (∀ (s : State) (a : Nat) (e : Entry) (p : Change), s.entry a = some e → e.phase = .waiting p → e.current ≠ none →
     (p.effective = ⟨0, 0⟩ ∨ s.hasCome p.effective = true) → AMap.wf s.labels.owned = true →
     s.newHoldout ≠ [] → (s.settings.labelService = false ∨ s.shelfDone a p.version = false) →
       (s.examine a).entry a = some { e with phase := .changing {
         pending := p, queued := none, holdout := s.newHoldout, age := 0
         deadline := match s.unit.clock with
           | some t => .at (timePlus t (s.settings.changeoverLimit * 3600))
           | none => .countdown (s.settings.changeoverLimit * 3600) } } ∧
       (∀ n, (∃ h ∈ s.newHoldout, h.station = n) ↔
         (n = s.self ∧ s.settings.labelService = true) ∨
           (n ≠ s.self ∧ (s.peer n).state ≠ .absent ∧ (s.peer n).kind = some .controller ∧
             (s.peer n).labelService = true)) ∧
       ∀ n o, s.owned n = some o → o.bound = some a → ∃ o', (s.examine a).owned n = some o' ∧
         o'.display = o.display ∧ o'.bound = some a ∧
         o'.target = (match p.action with | .set _ _ => .price a p.version | .withdraw => .blank a p.version)) ∧
  ∀ (s : State) (a : Nat) (e : Entry) (c : Changeover), s.live = true → s.working = true →
    s.entry a = some e → e.phase = .changing c →
      (s.deadlineReached c = false → exec (.changeoverDeadline a) s = .next s) ∧
      (s.deadlineReached c = true → ∃ t, exec (.changeoverDeadline a) s = .next t ∧
        keeps (.alerts :: shelfFields) s t ∧
        (∃ alert ∈ t.alerts.list, alert.kind = .changeoverForced ∧ alert.severity = .warn ∧ alert.subject = .article a ∧
          alert.detail = .forced c.pending.version c.holdout) ∧
        (∀ k x, c.pending.action = .set k x → t.entry a = some { e with
          kind := k, current := some x, version := c.pending.version
          phase := match c.queued with | none => .steady | some q => .waiting q }) ∧
        (c.pending.action = .withdraw → AMap.wf s.labels.owned = true → s.Withdrawn a e c t))

/-- A report of another station's shelves takes it out of the holdout set of a change it covers, and the change
completes when no station is left; any other report is ignored, also one of an article with no entry or in STEADY or
WAITING (R14, R18, R19, R86). A frame is taken report by report (R14). That a queued SET waits at the version of a
completed withdrawal is log 47's choice between R1 and R19. A SHELF-PENDING report sets its sender's query status in
the changeover of that version, and nothing else, and one of an article with no entry or in STEADY or WAITING is
ignored; a frame is taken report by report (R17). A SHELF-QUERY is answered from the shelves as they stand: the
reports found done in a SHELF-DONE for ALL, the others in a SHELF-PENDING for the querying station (R16). That the
SHELF-DONE is handed over first, and that the reports of each stand in the order of the query, is log 50's: the model's
choice. -/
def Obligations.ShelfReportsAreTaken : Prop :=
  (∀ (s : State) (f : FrameHead), s.Hears f.src → f.dest = .all →
     (∀ rs, 1 ≤ rs.length → rs.length ≤ 64 →
       exec (.shelfDoneReceived f rs) s = .next (rs.foldl (fun s r => s.takeDone f.src r) (s.heardFrom f.src id))) ∧
     (∀ r : Report, (∀ e c, s.entry r.article = some e → e.phase ≠ .changing c) →
       exec (.shelfDoneReceived f [r]) s = .next (s.heardFrom f.src id)) ∧
     ∀ (r : Report) (e : Entry) (c : Changeover), s.entry r.article = some e → e.phase = .changing c →
       ((c.pending.version ≤ r.version ∧ ∃ h ∈ c.holdout, h.station = f.src) →
         (∃ h ∈ c.holdout, h.station ≠ f.src) →
           exec (.shelfDoneReceived f [r]) s = .next ((s.heardFrom f.src id).modifyEntry r.article fun x =>
             { x with phase := .changing { c with holdout := c.holdout.filter fun h => h.station != f.src } })) ∧
       ((c.pending.version ≤ r.version ∧ ∃ h ∈ c.holdout, h.station = f.src) →
         (∀ h ∈ c.holdout, h.station = f.src) →
           (∀ k x, c.pending.action = .set k x →
             exec (.shelfDoneReceived f [r]) s = .next ((s.heardFrom f.src id).modifyEntry r.article fun y =>
               { y with kind := k, current := some x, version := c.pending.version
                        phase := match c.queued with | none => .steady | some q => .waiting q })) ∧
           (c.pending.action = .withdraw → AMap.wf s.labels.owned = true →
             ∃ t, exec (.shelfDoneReceived f [r]) s = .next t ∧ s.Withdrawn r.article e c t)) ∧
       (¬ (c.pending.version ≤ r.version ∧ ∃ h ∈ c.holdout, h.station = f.src) →
         exec (.shelfDoneReceived f [r]) s = .next (s.heardFrom f.src id))) ∧
  (∀ (s : State) (f : FrameHead), s.Hears f.src → f.dest = .station s.settings.station →
     (∀ rs, 1 ≤ rs.length → rs.length ≤ 64 →
       exec (.shelfPendingReceived f rs) s = .next (rs.foldl (fun s r => s.takePending f.src r) (s.heardFrom f.src id))) ∧
     (∀ r : Report, (∀ e c, s.entry r.article = some e → e.phase ≠ .changing c) →
       exec (.shelfPendingReceived f [r]) s = .next (s.heardFrom f.src id)) ∧
     ∀ (r : Report) (e : Entry) (c : Changeover), AMap.wf s.book.entries = true → s.entry r.article = some e →
       e.phase = .changing c →
         (c.pending.version = r.version → exec (.shelfPendingReceived f [r]) s = .next
           ((s.heardFrom f.src id).modifyEntry r.article fun x =>
             { x with phase := .changing { c with
                 holdout := c.holdout.map fun h => if h.station = f.src then { h with status := .pending } else h } })) ∧
         (c.pending.version ≠ r.version → exec (.shelfPendingReceived f [r]) s = .next (s.heardFrom f.src id))) ∧
  ∀ (s : State) (f : FrameHead) (rs : List Report), s.Hears f.src → f.dest = .station s.settings.station →
    1 ≤ rs.length → rs.length ≤ 64 → s.canSend = true →
      let yes := rs.filter fun r => s.shelfDone r.article r.version
      let no := rs.filter fun r => !s.shelfDone r.article r.version
      let frames : List Frame :=
        (if yes = [] then [] else [{ dest := none, body := .shelfDone yes, purpose := .shelfAnswer, attempts := 0 }]) ++
          if no = [] then [] else [{ dest := some f.src, body := .shelfPending no, purpose := .shelfQuestion, attempts := 0 }]
      s.trunk.notice.length + frames.length ≤ 64 →
        exec (.shelfQueryReceived f rs) s = .next
          ((s.heardFrom f.src id).withTrunk fun t => { t with notice := t.notice ++ frames })

/-! ### Shelf labels (05, 06) -/

/-- When a slot ends, each label still SENT and each MOVE attempt in the air goes unanswered (R93, R116), in rising
order of address (log 68: the model's choice); then the next slot begins, and after slot 127 the next cycle does, with
the length taken at its start, the claim ages of the HEARD entries grown, and the CYCLE-MARK of a reference station
handed over (R87, R105, R109). That a CYCLE-MARK is counted as sent when it is QUEUED is log 35's: the model's choice.
The slot that begins is filled where it may be: its slot header, then the MOVE attempts of its MOVING labels in order
of address, then the turns of its labels in the update list, oldest first, four packets at most in all; one that may
not be filled sends nothing (R80, R88, R107, R116). Where none of the slot's labels is MOVING, and each of those
listed has a target that can be shown, the turns go to the first four of the slot's labels in the update list: each of
these is SENT, with its packet as its last sent, and every other label stays as it was (R80, R88, R89, R90). -/
def Obligations.SlotsAndTheirTurns : Prop :=
  (∀ (s : State) (due : Nat), s.live = true → s.serving = true → s.labels.slotEnd = some due →
     ∃ t, exec .slotEnd s = .next t ∧ t.now = max s.now due ∧ keeps ([.now, .alerts, .out] ++ shelfFields) s t ∧
       (s.labels.slot < 127 → t.labels.slot = s.labels.slot + 1 ∧ t.labels.cycle = s.labels.cycle ∧
         t.labels.length = s.labels.length ∧ t.labels.slotEnd = some (due + s.labels.length * 1000000 / 128)) ∧
       (127 ≤ s.labels.slot → t.labels.slot = 0 ∧ t.labels.cycle = (s.labels.cycle + 1) % 4294967296 ∧
         t.labels.length = s.nextLength ∧ t.labels.slotEnd = some (due + s.nextLength * 1000000 / 128) ∧
         let marks : Prop :=
           s.labels.reference = some s.settings.station ∧ s.settings.labelService = true ∧ s.part = .running
         (marks → s.trunk.urgent.length < 8 →
           t.trunk.urgent = s.trunk.urgent ++
             [{ dest := none, body := .cycleMark t.labels.cycle t.labels.length s.unit.clock, purpose := .mark, attempts := 0 }] ∧
           t.count .marksSent = min (s.count .marksSent + 1) 4294967295) ∧
         (marks → 8 ≤ s.trunk.urgent.length → t.trunk.urgent = s.trunk.urgent ∧
           t.count .marksNotSent = min (s.count .marksNotSent + 1) 4294967295) ∧
         (¬ marks → t.trunk.urgent = s.trunk.urgent)) ∧
       (s.mayFill = false → s.inTurn = [] → s.labels.slot < 127 →
         t = { s with
           now := max s.now due
           labels := { s.labels with
             slot := s.labels.slot + 1, slotEnd := some (due + s.labels.length * 1000000 / 128) } })) ∧
  (∀ (s : State) (due : Nat), s.live = true → s.serving = true → s.labels.slotEnd = some due →
     let ended : State := { s with now := max s.now due }.endTurns
     let cycle := (s.labels.cycle + 1) % 4294967296
     let begun : State := ended.withLabels fun l => { l with
       cycle := cycle, slot := 0, length := s.nextLength, slotEnd := some (due + s.nextLength * 1000000 / 128)
       heard := l.heard.map fun x => (x.1, { x.2 with claimAge := x.2.claimAge.map fun k => min (k + 1) 16 }) }
     let marks : Prop := s.labels.reference = some s.settings.station ∧ s.settings.labelService = true ∧ s.part = .running
     (s.labels.slot < 127 → exec .slotEnd s = .next (ended.withLabels fun l =>
       { l with slot := s.labels.slot + 1, slotEnd := some (due + s.labels.length * 1000000 / 128) }).beginSlot) ∧
     (127 ≤ s.labels.slot →
       (¬ marks → exec .slotEnd s = .next begun.beginSlot) ∧
       (marks → s.trunk.urgent.length < 8 → exec .slotEnd s = .next ((begun.withTrunk fun t => { t with urgent := t.urgent ++
         [{ dest := none, body := .cycleMark cycle s.nextLength s.unit.clock, purpose := .mark, attempts := 0 }] }).bump
           .marksSent).beginSlot) ∧
       (marks → 8 ≤ s.trunk.urgent.length →
         exec .slotEnd s = .next ((begun.bump .notTakenUrgent).bump .marksNotSent).beginSlot))) ∧
  (∀ s : State, AMap.wf s.labels.owned = true → ∃ ns : List Nat, ns.Pairwise (· < ·) ∧
     (∀ n, n ∈ ns ↔ ∃ o, s.owned n = some o ∧
       ((∃ due, o.state = .sent due) ∨ ∃ m, o.state = .moving m ∧ m.inAir = true)) ∧
     s.endTurns = ns.foldl (fun t n => t.endTurn n) s) ∧
  (∀ s : State, s.mayFill = true → AMap.wf s.labels.owned = true → ∃ ms us : List Nat,
     ms.Pairwise (· < ·) ∧
     (∀ n, n ∈ ms ↔ n % 128 = s.labels.slot ∧ ∃ o m, s.owned n = some o ∧ o.state = .moving m) ∧
     us.Pairwise (fun a b => ∀ o d p e, s.owned a = some o → o.state = .updateDue d → s.owned b = some p →
       p.state = .updateDue e → d < e ∨ (d = e ∧ a < b)) ∧
     (∀ n, n ∈ us ↔ n % 128 = s.labels.slot ∧ ∃ o d, s.owned n = some o ∧ o.state = .updateDue d) ∧
     s.beginSlot = (us.take (4 - ms.length)).foldl (fun t n => t.takeTurn n)
       ((ms.take 4).foldl (fun t n => t.sendMove n) (s.emit (.radio (.header s.settings.labelChannel s.settings.station
         s.labels.cycle s.labels.slot s.labels.length))))) ∧
  ∀ s : State,
    (s.mayFill = false → s.beginSlot = s) ∧
    (s.mayFill = true → ∃ ps : List RadioPacket, ps.length ≤ 4 ∧
      s.beginSlot.out = s.out ++ (.radio (.header s.settings.labelChannel s.settings.station s.labels.cycle s.labels.slot
        s.labels.length) :: ps.map Output.radio)) ∧
    (s.mayFill = true → AMap.wf s.labels.owned = true →
      (∀ n o, s.owned n = some o → n % 128 = s.labels.slot → (∀ m, o.state ≠ .moving m) ∧
        ∀ due a v, o.state = .updateDue due → o.target = .price a v → s.displayTerms a v ≠ none) →
      ∀ n o, s.owned n = some o →
        (∀ due, o.state = .updateDue due → n % 128 = s.labels.slot →
          let ahead := s.labels.owned.filter fun x => x.1 % 128 = s.labels.slot && match x.2.state with
            | .updateDue d => decide (d < due ∨ (d = due ∧ x.1 < n))
            | _ => false
          let sends (d : Display) (p : RadioPacket) : Prop :=
            s.beginSlot.owned n = some { o with state := .sent due, lastSent := some d } ∧ .radio p ∈ s.beginSlot.out
          let channel := s.settings.labelChannel
          (4 ≤ ahead.length → s.beginSlot.owned n = some o) ∧
          (ahead.length < 4 →
            (∀ a v k x, o.target = .price a v → s.displayTerms a v = some (k, x) →
              sends ⟨.price, some a, v⟩ (.show channel n a v k x o.power)) ∧
            (∀ a v, o.target = .blank a v → sends ⟨.blank, some a, v⟩ (.blank channel n (some a) v o.power)) ∧
            (o.target = .unbound → sends ⟨.blank, none, 0⟩ (.blank channel n none 0 o.power)))) ∧
        ((n % 128 ≠ s.labels.slot ∨ ∀ due, o.state ≠ .updateDue due) → s.beginSlot.owned n = some o))

/-- A listed label's turn sends a SHOW with its article's terms at the target version, or a BLANK, and makes the label
SENT with that packet as its last sent (R88, R89). A label whose PRICE target is of a version its article's entry no
longer holds keeps its turn and is sent the packet of the redirected target: the entry's visible display, the BLANK of
the article while a WITHDRAW is pending in CHANGING; and the unbound BLANK, no longer bound, where the article has no
entry (R84, R89). A label still SENT when its slot ends has gone unanswered: its attempts rise by 1 and its power step
by 2 dB to no more than 12, and it is listed again, or is LOST with a LABEL-LOST alert after the sixth and the floor
of its article reported (R93, R94, R99). A turn cut short by a restarted cycle lists the label again at its old due
time and is counted, and a MOVE attempt cut short leaves its move to be tried again (R97). Which of these the counts
take is log 24's: the model's choice. A floor report that reaches the pending version of a changeover in which this
station is held out takes it out of the holdout set, and the article's report joins the report list, in the place of
the one the article has there, the oldest giving way in a full list; where no frame of reports is outstanding a
SHELF-DONE with them is handed over; and the change completes when no station is left. Any other floor report changes
nothing (R12, R13, R18, R99). That a replaced report keeps its place, and that the new one is taken whichever version
is the higher, is log 48's: the model's choice. -/
def Obligations.TurnsClimbTheRetryLadder : Prop :=
  (∀ (s : State) (n due : Nat) (o : Owned), s.owned n = some o → o.state = .updateDue due →
     (∀ a v k x, o.target = .price a v → s.displayTerms a v = some (k, x) →
       s.takeTurn n = ((s.putOwned n { o with state := .sent due, lastSent := some ⟨.price, some a, v⟩ }).emit
         (.radio (.show s.settings.labelChannel n a v k x o.power))).bump .showsSent) ∧
     (∀ a v, o.target = .blank a v →
       s.takeTurn n = ((s.putOwned n { o with state := .sent due, lastSent := some ⟨.blank, some a, v⟩ }).emit
         (.radio (.blank s.settings.labelChannel n (some a) v o.power))).bump .blanksSent) ∧
     (o.target = .unbound →
       s.takeTurn n = ((s.putOwned n { o with state := .sent due, lastSent := some ⟨.blank, none, 0⟩ }).emit
         (.radio (.blank s.settings.labelChannel n none 0 o.power))).bump .blanksSent)) ∧
  (∀ (s : State) (n due a v : Nat) (o : Owned), s.owned n = some o → o.state = .updateDue due → o.target = .price a v →
     s.displayTerms a v = none →
     let sends (x : Owned) (d : Display) (p : RadioPacket) : Prop :=
       (s.takeTurn n).owned n = some { x with state := .sent due, lastSent := some d } ∧
         (s.takeTurn n).out = s.out ++ [.radio p] ∧ (s.takeTurn n).book = s.book
     (∀ e, s.entry a = some e →
       (e.withdrawing = true → sends { o with target := .blank a e.visible } ⟨.blank, some a, e.visible⟩
         (.blank s.settings.labelChannel n (some a) e.visible o.power)) ∧
       (∀ k t, e.withdrawing = false → s.displayTerms a e.visible = some (k, t) →
         sends { o with target := .price a e.visible } ⟨.price, some a, e.visible⟩
           (.show s.settings.labelChannel n a e.visible k t o.power))) ∧
     (s.entry a = none → o.bound = some a →
       sends { o with bound := none, target := .unbound } ⟨.blank, none, 0⟩
         (.blank s.settings.labelChannel n none 0 o.power))) ∧
  (∀ (s : State) (n : Nat) (o : Owned), s.owned n = some o →
     (∀ due, o.state = .sent due →
       let missed : Owned := { o with attempts := o.attempts + 1, power := min (o.power + 2) 12 }
       (o.attempts < 5 → s.endTurn n =
         (s.bump .unansweredAttempts).putOwned n { missed with state := .updateDue s.now }) ∧
       (5 ≤ o.attempts → s.endTurn n =
         ((((s.bump .unansweredAttempts).putOwned n { missed with state := .lost }).bump .labelsLost).recordAlert .labelLost
           .warn (.label n) (.lost o.bound o.target.version)).floorReportOpt o.bound) ∧
       s.cutTurn n = (s.putOwned n { o with state := .updateDue due }).bump .attemptsCutShort) ∧
     (∀ m, o.state = .moving m → s.cutTurn n = s.putOwned n { o with state := .moving { m with inAir := false } }) ∧
     ∀ due, s.live = true → s.serving = true → s.labels.slotEnd = some due → s.inTurn = [n] → s.mayFill = false →
       s.labels.slot < 127 → exec .slotEnd s = .next (({ s with now := max s.now due }.endTurn n).withLabels fun l =>
         { l with slot := s.labels.slot + 1, slotEnd := some (due + s.labels.length * 1000000 / 128) })) ∧
  ∀ (s : State) (a : Nat),
    let done (c : Changeover) : Prop :=
      s.settings.labelService = true ∧ c.pending.version ≤ s.floor a ∧ ∃ h ∈ c.holdout, h.station = s.self
    ((∀ e c, s.entry a = some e → e.phase = .changing c → ¬ done c) → s.floorReport a = s) ∧
    ∀ e c, s.entry a = some e → e.phase = .changing c → done c →
      let r : Report := ⟨a, c.pending.version⟩
      let left := c.holdout.filter fun h => h.station != s.self
      let freed : State := s.modifyEntry a fun x => { x with phase := .changing { c with holdout := left } }
      (left ≠ [] → s.book.outstanding = true →
        ((∀ x ∈ s.book.reports, x.article ≠ a) →
          (s.book.reports.length < 64 →
            s.floorReport a = freed.withBook fun b => { b with reports := b.reports ++ [r] }) ∧
          (64 ≤ s.book.reports.length →
            s.floorReport a = (freed.withBook fun b => { b with reports := b.reports.drop 1 ++ [r] }).bump
              .reportsDropped)) ∧
        (∀ before x after, s.book.reports = before ++ x :: after → x.article = a →
          (∀ y ∈ before ++ after, y.article ≠ a) →
            s.floorReport a = freed.withBook fun b => { b with reports := before ++ r :: after })) ∧
      (left ≠ [] → s.book.outstanding = false → s.book.reports = [] →
        (s.canSend = true → s.trunk.notice.length < 64 →
          s.floorReport a = (freed.withBook fun b => { b with outstanding := true }).withTrunk fun t => { t with notice :=
            t.notice ++ [{ dest := none, body := .shelfDone [r], purpose := .reports, attempts := 0 }] }) ∧
        ((s.canSend = false ∨ 64 ≤ s.trunk.notice.length) → s.floorReport a = freed.bump .notTakenNotice)) ∧
      (left = [] →
        (∀ k x, c.pending.action = .set k x → (s.floorReport a).entry a = some { e with
          kind := k, current := some x, version := c.pending.version
          phase := match c.queued with | none => .steady | some q => .waiting q }) ∧
        (c.pending.action = .withdraw → c.queued = none → (s.floorReport a).entry a = none))

/-- An acknowledgement is taken by the state of its label: a stray; an answered attempt of a SENT label, or one
answered with another version, which counts as unanswered and after the sixth makes the label LOST; the report of a
label that is SHOWING, UPDATE-DUE or LOST. Each takes the battery state, and the floor of the label's article is
reported (R91, R92, R94, R96, R99). One heard on the common channel is recorded first with the adoption MOVE it
answers, and is then taken as any other (R92, R118, R119). What the counts of acknowledgements and unanswered attempts
take is log 24's, that the first such ACK decides an adoption log 26's, and that an ACK's level is stored as it was
reported, in or out of the range of levels, log 71's: the model's choices. A reported battery state replaces the
entry's, and a worse one records LABEL-BATTERY, INFO for LOW and WARN for EMPTY (R96). -/
def Obligations.AckIsTaken : Prop :=
  (∀ (s : State) (a : AckPacket), s.live = true → s.serving = true → s.settings.labelService = true →
     let takes (t : State) (article : Option Nat) : Prop :=
       exec (.ackReceived a) s = .next ((t.takeBattery a.label a.battery).floorReportOpt article)
     let heard : State := if a.common = true then s.withLabels fun l => { l with adoptions := l.adoptions.map fun x =>
         if x.presence.label = a.label ∧ x.ack = none then { x with ack := some a.owner } else x } else s
     (s.owned a.label = none → exec (.ackReceived a) s = .next (heard.bump .strayAcks)) ∧
       ∀ o, s.owned a.label = some o →
         let other : Display := if a.version = 0 then ⟨.blank, none, 0⟩ else { o.display with version := a.version }
         let shown (d : Display) : Owned := { o with display := d, lastReceived := some a.level }
         (∀ due, o.state = .sent due →
           (∀ d, o.lastSent = some d → d.version = a.version →
             takes ((heard.bump .acksTaken).putOwned a.label
               { shown d with
                 attempts := 0, power := o.power - 1
                 state := if (shown d).current then .showing else .updateDue s.now }) o.bound) ∧
           ((∀ d, o.lastSent = some d → d.version ≠ a.version) →
             let missed : Owned := { o with display := other, attempts := o.attempts + 1, power := min (o.power + 2) 12 }
             let counted := (heard.bump .acksTaken).bump .unansweredAttempts
             (o.attempts < 5 → takes (counted.putOwned a.label { missed with state := .updateDue s.now }) o.bound) ∧
             (5 ≤ o.attempts → takes ((((counted.putOwned a.label { missed with state := .lost }).bump
               .labelsLost).recordAlert .labelLost .warn (.label a.label) (.lost o.bound o.target.version)).floorReportOpt
                 o.bound) o.bound))) ∧
         (∀ d, (o.lastSent = some d ∧ d.version = a.version) ∨ ((∀ x, o.lastSent = some x → x.version ≠ a.version) ∧ d = other) →
           (o.state = .showing → takes ((heard.bump .acksTaken).putOwned a.label
             { shown d with state := if (shown d).current then .showing else .updateDue s.now }) o.bound) ∧
           (∀ due, o.state = .updateDue due → takes ((heard.bump .acksTaken).putOwned a.label
             (if (shown d).current then { shown d with state := .showing, attempts := 0, power := o.power - 1 }
               else shown d)) o.bound) ∧
           (o.state = .lost → takes ((heard.bump .acksTaken).putOwned a.label (shown d)) o.bound))) ∧
  ∀ (s : State) (n : Nat) (b : Battery),
    (s.owned n = none → s.takeBattery n b = s) ∧
    ∀ o, s.owned n = some o →
      let put := s.putOwned n { o with battery := b }
      ((b = .good ∨ b = o.battery ∨ o.battery = .empty) → s.takeBattery n b = put) ∧
      (o.battery ≠ .empty → b = .empty →
        s.takeBattery n b = put.recordAlert .labelBattery .warn (.label n) (.battery .empty)) ∧
      (o.battery = .good → b = .low →
        s.takeBattery n b = put.recordAlert .labelBattery .info (.label n) (.battery .low))

/-- A BIND that passes its tests makes the label OWNED, bound to the article with its visible display as target,
UPDATE-DUE with attempts 0, and counted for the article; and it answers DONE with the target and state (R23, R81,
R82). A BIND of a label already bound moves its count from the old article to the new one, and re-derives the old
article's local shelf state, unless the article is the same (R23, R82, R99). One of a new label in a full table
removes the HEARD entry least recently heard whose claim is not outstanding, or, where every claim is outstanding, the
least recently heard of all (R82, R109). An UNBIND makes the label unbound with the unbound BLANK as target,
UPDATE-DUE with attempts 0, and no longer counted for its article, whose local shelf state is then re-derived (R23,
R83, R99); it answers DONE with the target and state. The floor report changes nothing but of an article that is
CHANGING (R12). The refusals of BIND and UNBIND, in the order of their tests, leave the label table as it was (R81,
R83). -/
def Obligations.LabelsAreBoundAndUnbound : Prop :=
  (∀ (s : State) (h : OfficeHead) (n a : Nat) (e : Entry), s.Obeys h → s.settings.labelService = true →
     s.entry a = some e → e.current ≠ none → s.heard n = none →
       let target : Target := if e.withdrawing then .blank a e.visible else .price a e.visible
       (∀ o, s.owned n = some o → o.bound = none → (∀ m, o.state ≠ .moving m) →
         let st : LabelState := match o.state with | .updateDue d => .updateDue d | _ => .updateDue s.now
         exec (.bind h n a) s = .next
           (((((s.heardFrom h.src id).putOwned n
             { o with bound := some a, target := target, attempts := 0, state := st }).countBound a)).replied h 3
               (.done (.label target st)))) ∧
       (s.owned n = none → s.labels.owned.length + s.labels.heard.length < 2048 →
         ∃ t, exec (.bind h n a) s = .next t ∧
           (∃ o, t.owned n = some o ∧ o.bound = some a ∧ o.target = target ∧ o.state = .updateDue s.now ∧
             o.attempts = 0 ∧ o.power = 0 ∧ o.display = ⟨.blank, none, 0⟩ ∧ o.battery = .good) ∧
           (∃ f, t.entry a = some f ∧ f = { e with bound := min (e.bound + 1) 2048 }) ∧
           t.commands.places.get h.src = some ⟨h.tag, 3, .done (.label target (.updateDue s.now))⟩)) ∧
  (∀ (s : State) (h : OfficeHead) (n a : Nat) (e : Entry), s.Obeys h → s.settings.labelService = true →
     s.entry a = some e → e.current ≠ none → s.heard n = none →
       let heard := s.heardFrom h.src id
       let target : Target := if e.withdrawing then .blank a e.visible else .price a e.visible
       (∀ o b, s.owned n = some o → o.bound = some b → (∀ m, o.state ≠ .moving m) →
         let st : LabelState := match o.state with | .updateDue d => .updateDue d | _ => .updateDue s.now
         let put : State := heard.putOwned n { o with bound := some a, target := target, attempts := 0, state := st }
         (b = a → exec (.bind h n a) s = .next (put.replied h 3 (.done (.label target st)))) ∧
         (b ≠ a →
           let told : State := ((put.uncountBound b).floorReport b).countBound a
           exec (.bind h n a) s = .next (told.replied h 3 (told.labelAnswer n)) ∧
           ((∀ f c, s.entry b = some f → f.phase ≠ .changing c) → exec (.bind h n a) s = .next
             (((put.uncountBound b).countBound a).replied h 3 (.done (.label target st)))))) ∧
       (∀ w x, s.owned n = none → s.labels.Ok → 2048 ≤ s.labels.owned.length + s.labels.heard.length →
         s.heard w = some x →
         let claimed (y : Heard) : Prop := y.claimed = true ∧ ∀ k, y.claimAge = some k → k < 16
         let oldest (among : Heard → Prop) : Prop :=
           ∀ m y, s.heard m = some y → m ≠ w → among y → x.hearing.stamp < y.hearing.stamp
         ((¬ claimed x ∧ oldest fun y => ¬ claimed y) ∨ ((∀ m y, s.heard m = some y → claimed y) ∧ oldest fun _ => True)) →
           ∃ t, exec (.bind h n a) s = .next t ∧ t.labels.heard = AMap.del s.labels.heard w ∧
             t.count .heardRemoved = min (heard.count .heardRemoved + 1) 4294967295 ∧
             (∃ o, t.owned n = some o ∧ o.bound = some a ∧ o.target = target ∧ o.state = .updateDue s.now) ∧
             t.entry a = some { e with bound := min (e.bound + 1) 2048 } ∧
             t.commands.places.get h.src = some ⟨h.tag, 3, .done (.label target (.updateDue s.now))⟩)) ∧
  (∀ (s : State) (h : OfficeHead) (n : Nat) (o : Owned), s.Obeys h → s.settings.labelService = true →
     s.owned n = some o → (∀ m, o.state ≠ .moving m) →
       let st : LabelState := match o.state with | .updateDue d => .updateDue d | _ => .updateDue s.now
       let told : State := ((s.heardFrom h.src id).putOwned n { o with
         bound := none, target := .unbound, attempts := 0, state := st }).uncountOpt o.bound
       let report : State := match o.bound with | none => told | some a => told.floorReport a
       exec (.unbind h n) s = .next (report.replied h 4 (.done (.label .unbound st))) ∧
       ((∀ a e c, o.bound = some a → s.entry a = some e → e.phase ≠ .changing c) → report = told)) ∧
  ∀ (s : State) (h : OfficeHead) (n a : Nat), s.Obeys h →
    let refuses (c : Instr) (k : Nat) (r : Reason) : Prop :=
      exec c s = .next ((s.heardFrom h.src id).replied h k (.refused r))
    (s.settings.labelService = false → refuses (.bind h n a) 3 .noLabelService ∧ refuses (.unbind h n) 4 .noLabelService) ∧
    (s.settings.labelService = true →
      (s.entry a = none → refuses (.bind h n a) 3 .unknownItem) ∧
      (∀ e, s.entry a = some e →
        (e.current = none → refuses (.bind h n a) 3 .notForSale) ∧
        (e.current ≠ none →
          (∀ x, s.heard n = some x → refuses (.bind h n a) 3 (.ownedElsewhere x.hearing.owner)) ∧
          (s.heard n = none → ∀ o m, s.owned n = some o → o.state = .moving m →
            refuses (.bind h n a) 3 .labelMoving) ∧
          (s.labels.heard = [] → s.owned n = none → 2048 ≤ s.labels.owned.length →
            refuses (.bind h n a) 3 .tableFull))) ∧
      (s.owned n = none → refuses (.unbind h n) 4 .notOwned) ∧
      (∀ o m, s.owned n = some o → o.state = .moving m → refuses (.unbind h n) 4 .labelMoving))

/-- A smoothed level lies in −480..−80, the first sample is taken as it is, and a later one moves the level a quarter
of the way, never past the sample (R112). The reference station is the lowest-numbered candidate, and there is none
exactly when there is no candidate (R103). The shelf floor of an article reaches version `v` exactly when every OWNED
label bound to it displays `v` or later of that article, or is LOST (R98). -/
def Obligations.RadioJudgements : Prop :=
  (∀ x : Int, (∀ old, -480 ≤ smooth old x ∧ smooth old x ≤ -80) ∧
     (-480 ≤ x → x ≤ -80 → smooth none x = x ∧
       ∀ y, -480 ≤ y → y ≤ -80 → smooth (some y) x = y + (x - y).tdiv 4 ∧
         (y ≤ x → y ≤ smooth (some y) x ∧ smooth (some y) x ≤ x) ∧
         (x ≤ y → x ≤ smooth (some y) x ∧ smooth (some y) x ≤ y))) ∧
  (∀ s : State,
     let candidate (n : Station) : Prop :=
       (n = s.self ∧ s.settings.labelService = true ∧ (s.part = .listening ∨ s.part = .running)) ∨
       (n ≠ s.self ∧ (s.peer n).state = .alive ∧ (s.peer n).kind = some .controller ∧ (s.peer n).labelService = true)
     (∀ n, s.judgedReference = some n → candidate n ∧ ∀ m, candidate m → n ≤ m) ∧
     (s.judgedReference = none ↔ ∀ n, ¬ candidate n)) ∧
  ∀ (a v : Nat) (owned : List (Nat × Owned)), v ≤ 4294967295 →
    (v ≤ floorOf a owned ↔
      ∀ x ∈ owned, x.2.bound = some a → x.2.state = .lost ∨
        (x.2.display.article = some a ∧ v ≤ x.2.display.version) ∨ v = 0)

/-- A presence is taken for the entry its label has: a new HEARD entry for a label heard first; for an OWNED label
that it names this station for, the battery state, the comparison of a SHOWING or UPDATE-DUE label's display, the
revival of a LOST one with its article's floor reported, and the display left to the acknowledgement for one that is
SENT or MOVING; the drop to HEARD of one that it names another station for; and a HEARD label that it names this
station for is taken in (R95, R96, R110 to R113). A presence, the orphan flag clear, of a label with no entry where
there is room: one that names another station makes a HEARD entry, and the claim test follows; one that names this
station is taken in as OWNED with the level and cycle of the presence (R110, R112, R114). A HEARD label that this
station is named for and that displays no price, or the price of an article not on sale here, is taken in unbound with
the unbound BLANK as its target (R23, R110). An OWNED label that drops to HEARD keeps its level and cycle, takes the
owner and level named, no longer counts for its article, and has the article's floor reported; the drop is counted
(R23, R99, R111). A presence with the orphan flag set of a HEARD label is answered with an adoption MOVE on the common
channel where the part is RUNNING, the cycle aligned and the label's level at least -340; and it is not otherwise
(R118). A presence with the orphan flag set of an OWNED label does what it does with the flag clear, and is then
answered with an adoption MOVE where the part is RUNNING, the cycle aligned and the level at least -340; one of a
label with no entry makes it HEARD, where there is room, and is answered on the same terms, whatever station it names
(R112, R118). -/
def Obligations.PresenceIsTaken : Prop :=
  (∀ (s : State) (p : PresencePacket), s.live = true → s.serving = true → s.settings.labelService = true →
     p.orphan = false →
       let heardNow (h : Hearing) : Hearing :=
         { h with smoothed := some (smooth h.smoothed p.level), lastCycle := s.labels.cycle, stamp := s.labels.stamp + 1 }
       let counted : State :=
         (s.withLabels fun l => { l with stamp := l.stamp + 1 }).bump .presencesTaken
       (s.owned p.label = none → s.heard p.label = none → s.labels.heard = [] → 2048 ≤ s.labels.owned.length →
         exec (.presenceReceived p) s = .next
           (s.bump (if p.owner = s.self then .turnedAway else .presencesIgnored))) ∧
       (s.owned p.label = none → s.heard p.label = none → s.labels.owned.length + s.labels.heard.length < 2048 →
         s.part ≠ .running → p.owner ≠ s.self →
           ∃ t, exec (.presenceReceived p) s = .next t ∧ keeps [.labels, .counts] s t ∧
             t.heard p.label = some
               { hearing := { smoothed := some (smooth none p.level), lastCycle := s.labels.cycle, owner := p.owner
                              ownerLevel := none, stamp := s.labels.stamp + 1 }
                 claimAge := none, claimed := false }) ∧
       (∀ o, s.owned p.label = some o →
         let sampled : Owned := { o with hearing := heardNow o.hearing }
         let told : Owned := { sampled with battery := p.battery }
         let battery : State := (counted.putOwned p.label sampled).takeBattery p.label p.battery
         (p.owner = s.self →
           (o.state = .showing → exec (.presenceReceived p) s = .next (battery.putOwned p.label
             { told with
               display := p.display
               state := if p.display = o.display ∨ ({ o with display := p.display } : Owned).current then .showing
                 else .updateDue s.now })) ∧
           (∀ due, o.state = .updateDue due →
             exec (.presenceReceived p) s = .next (battery.putOwned p.label { told with display := p.display })) ∧
           ((∃ due, o.state = .sent due) ∨ (∃ m, o.state = .moving m) →
             exec (.presenceReceived p) s = .next battery) ∧
           (o.state = .lost → exec (.presenceReceived p) s = .next ((battery.putOwned p.label
             { told with display := p.display, attempts := 0, state := .updateDue s.now }).floorReportOpt o.bound))) ∧
         (p.owner ≠ s.self → (∀ m, o.state ≠ .moving m) →
           exec (.presenceReceived p) s = .next (battery.dropToHeard p.label told p.owner none)) ∧
         (p.owner ≠ s.self → ∀ m, o.state = .moving m → p.owner ≠ m.claimant → s.canSend = true →
           battery.trunk.notice.length < 64 →
             exec (.presenceReceived p) s = .next ((battery.withTrunk fun t => { t with notice := t.notice ++
               [{ dest := some m.claimant, body := .labelRefuse p.label none, purpose := .label, attempts := 0 }]
               }).dropToHeard p.label told p.owner none))) ∧
       (∀ h a e, s.owned p.label = none → s.heard p.label = some h → p.owner = s.self → p.display.form = .price →
         p.display.article = some a → s.entry a = some e → e.current ≠ none →
           let target : Target := if e.withdrawing then .blank a e.visible else .price a e.visible
           let o : Owned :=
             { bound := some a, display := p.display, state := .showing, target := target, lastSent := none, attempts := 0
               power := 0, battery := p.battery, lastReceived := none
               hearing := { heardNow h.hearing with owner := s.self, ownerLevel := none } }
           ∃ t, exec (.presenceReceived p) s = .next t ∧ t.heard p.label = none ∧
             t.owned p.label = some { o with state := if o.current then .showing else .updateDue s.now } ∧
             t.entry a = some { e with bound := min (e.bound + 1) 2048 } ∧
             t.count .takenByPresence = min (s.count .takenByPresence + 1) 4294967295)) ∧
  (∀ (s : State) (p : PresencePacket), s.live = true → s.serving = true → s.settings.labelService = true →
     p.orphan = false → s.owned p.label = none →
       let level := smooth none p.level
       let stamp := s.labels.stamp + 1
       let counted : State := (s.withLabels fun l => { l with stamp := l.stamp + 1 }).bump .presencesTaken
       let settled (o : Owned) : Owned := { o with state := if o.current then .showing else .updateDue s.now }
       let room : Prop := s.labels.owned.length + s.labels.heard.length < 2048
       (s.heard p.label = none → room →
         let new : Heard :=
           { hearing := { smoothed := some level, lastCycle := s.labels.cycle, owner := p.owner, ownerLevel := none
                          stamp := stamp }
             claimAge := none, claimed := false }
         let claims : Prop := s.part = .running ∧ s.labels.aligned = true ∧ (s.peer p.owner).kind = some .controller ∧
           (s.peer p.owner).state = .alive ∧ -300 ≤ level
         let claimed : State := counted.putHeard p.label { new with claimAge := some 0, claimed := true }
         (p.owner ≠ s.self →
           (¬ claims → exec (.presenceReceived p) s = .next (counted.putHeard p.label new)) ∧
           (claims → s.trunk.notice.length < 64 → exec (.presenceReceived p) s = .next ((claimed.withTrunk fun t =>
             { t with notice := t.notice ++ [{ dest := some p.owner, purpose := .label, attempts := 0
                                               body := .labelClaim p.label s.settings.station s.settings.labelChannel level }]
               }).bump .claimsSent))) ∧
         (p.owner = s.self → ∀ a e, p.display.form = .price → p.display.article = some a → s.entry a = some e →
           e.current ≠ none →
             let o : Owned :=
               { bound := some a, display := p.display, state := .showing, lastSent := none, attempts := 0, power := 0
                 target := if e.withdrawing then .blank a e.visible else .price a e.visible
                 battery := p.battery, lastReceived := none, hearing := new.hearing }
             ∃ t, exec (.presenceReceived p) s = .next t ∧ t.heard p.label = none ∧
               t.owned p.label = some (settled o) ∧ t.entry a = some { e with bound := min (e.bound + 1) 2048 } ∧
               t.count .takenByPresence = min (s.count .takenByPresence + 1) 4294967295)) ∧
       (∀ h, s.heard p.label = some h → p.owner = s.self →
         (p.display.form = .blank ∨ p.display.article = none ∨
           ∃ a, p.display.article = some a ∧ ∀ e, s.entry a = some e → e.current = none) →
             let o : Owned :=
               { bound := none, display := p.display, state := .showing, target := .unbound, lastSent := none, attempts := 0
                 power := 0, battery := p.battery, lastReceived := none
                 hearing := { smoothed := some (smooth h.hearing.smoothed p.level), lastCycle := s.labels.cycle
                              owner := s.self, ownerLevel := none, stamp := stamp } }
             ∃ t, exec (.presenceReceived p) s = .next t ∧ t.book = s.book ∧ t.heard p.label = none ∧
               t.owned p.label = some (settled o) ∧
               t.count .takenByPresence = min (s.count .takenByPresence + 1) 4294967295)) ∧
  (∀ (s : State) (n : Nat) (o : Owned) (c : Station) (level : Option Int),
     let gone : State := (s.withLabels fun l => { l with
       owned := AMap.del l.owned n
       heard := AMap.put l.heard n
         { hearing := { o.hearing with owner := c, ownerLevel := level }, claimAge := none, claimed := false } }).bump
           .dropsToHeard
     (o.bound = none → s.dropToHeard n o c level = gone) ∧
     ∀ a, o.bound = some a → s.dropToHeard n o c level =
       (gone.modifyEntry a fun e => { e with bound := e.bound - 1 }).floorReport a) ∧
  (∀ (s : State) (p : PresencePacket) (h : Heard), s.live = true → s.serving = true → s.settings.labelService = true →
     p.orphan = true → s.owned p.label = none → s.heard p.label = some h →
       let level := smooth h.hearing.smoothed p.level
       let hearing : Hearing :=
         { smoothed := some level, lastCycle := s.labels.cycle, owner := p.owner, stamp := s.labels.stamp + 1
           ownerLevel := if h.hearing.owner = p.owner then h.hearing.ownerLevel else none }
       let taken : State := ((s.withLabels fun l => { l with stamp := l.stamp + 1 }).bump .presencesTaken).putHeard p.label
         { h with hearing := hearing }
       (s.part = .running → s.labels.aligned = true → -340 ≤ level →
         exec (.presenceReceived p) s = .next
           ((taken.emit (.radio (.move none p.label s.settings.station s.settings.labelChannel 0))).withLabels fun l =>
             { l with adoptions := l.adoptions ++
                 [{ presence := p, cycle := s.labels.cycle, stamp := s.labels.stamp + 1, ack := none }] })) ∧
       ((s.part ≠ .running ∨ s.labels.aligned = false ∨ level < -340) → exec (.presenceReceived p) s = .next taken)) ∧
  ∀ (s : State) (p : PresencePacket), s.live = true → s.serving = true → s.settings.labelService = true →
    p.orphan = true →
      let answered (t : State) : State :=
        (t.emit (.radio (.move none p.label s.settings.station s.settings.labelChannel 0))).withLabels fun l =>
          { l with adoptions := l.adoptions ++
              [{ presence := p, cycle := s.labels.cycle, stamp := s.labels.stamp + 1, ack := none }] }
      let answers (level : Int) : Prop := s.part = .running ∧ s.labels.aligned = true ∧ -340 ≤ level
      let counted : State := (s.withLabels fun l => { l with stamp := l.stamp + 1 }).bump .presencesTaken
      (∀ o, s.owned p.label = some o →
        let level := smooth o.hearing.smoothed p.level
        ∃ t, exec (.presenceReceived { p with orphan := false }) s = .next t ∧
          (answers level → exec (.presenceReceived p) s = .next (answered t)) ∧
          (¬ answers level → exec (.presenceReceived p) s = .next t)) ∧
      (s.owned p.label = none → s.heard p.label = none → s.labels.owned.length + s.labels.heard.length < 2048 →
        let level := smooth none p.level
        let new : State := counted.putHeard p.label
          { hearing := { smoothed := some level, lastCycle := s.labels.cycle, owner := p.owner, ownerLevel := none
                         stamp := s.labels.stamp + 1 }
            claimAge := none, claimed := false }
        (answers level → exec (.presenceReceived p) s = .next (answered new)) ∧
        (¬ answers level → exec (.presenceReceived p) s = .next new))

/-- A CYCLE-MARK of another station than the reference, or of another length than 16, 64 or 256 s, is ignored and
counted; one of the reference aligns the cycle, re-timing slot 0 when the station is in step and restarting the cycle
otherwise (R106). A restart cuts the slot in progress short: each label still SENT is listed again at its old due
time, its attempts and power step as they were, and is counted as cut short and not as unanswered; a MOVE attempt cut
short is not counted and leaves its label MOVING (R97). Slot 0 then begins with the mark's number and length, and is
filled where it may be (R88, R106, R107). That a restart raises the claim ages as every cycle start does is log 18's:
the model's choice. The store time the mark carries is then taken: one within the clock's ranges sets the clock, and
another is counted among the settings ignored (R190, R191, R193, R194). -/
def Obligations.CycleMarkAligns : Prop :=
  ∀ (s : State) (f : FrameHead) (number length : Nat) (time : Option StoreTime), s.Hears f.src → f.dest = .all →
    let h := s.heardFrom f.src Peer.takeMark
    let c : Instr := .cycleMarkReceived f number length time
    let inStep : Prop := s.labels.cycle = number ∧ s.labels.slot = 0 ∧ s.labels.length = length
    let taken := h.labels.reference = some f.src ∧ (length = 16 ∨ length = 64 ∨ length = 256)
    let retimed : State := (h.bump .marksTaken).withLabels fun l =>
      { l with slotEnd := some (s.now + length * 1000000 / 128), aligned := true, markLength := some length }
    (¬ taken → exec c s = .next (h.bump .marksIgnored)) ∧
    (taken → inStep →
      (time = none → exec c s = .next retimed) ∧
      (∀ x, time = some x → (65535 < x.day ∨ 86399 < x.sec) → exec c s = .next (retimed.bump .settingsIgnored))) ∧
    (taken → ¬ inStep → AMap.wf s.labels.owned = true →
      let sent := s.labels.owned.filter fun x => match x.2.state with | .sent _ => true | _ => false
      let restarted : State := (((h.bump .marksTaken).bumpBy .attemptsCutShort sent.length).withLabels fun l => { l with
        owned := l.owned.map fun x => (x.1, { x.2 with state := match x.2.state with
          | .sent due => .updateDue due
          | .moving m => .moving { m with inAir := false }
          | st => st })
        heard := l.heard.map fun x => (x.1, { x.2 with claimAge := x.2.claimAge.map fun k => min (k + 1) 16 })
        cycle := number, slot := 0, length := length, slotEnd := some (s.now + length * 1000000 / 128), aligned := true
        markLength := some length }).beginSlot
      (time = none → exec c s = .next restarted) ∧
      (∀ x, time = some x → (65535 < x.day ∨ 86399 < x.sec) → exec c s = .next (restarted.bump .settingsIgnored)) ∧
      (∀ x, time = some x → x.day ≤ 65535 → x.sec ≤ 86399 →
        ∃ t, exec c s = .next t ∧ keeps (.unit :: sessionFields) restarted t)) ∧
    (taken → ∃ t, exec c s = .next t ∧ t.labels.cycle = number ∧ t.labels.slot = 0 ∧
      t.labels.length = length ∧ t.labels.slotEnd = some (s.now + length * 1000000 / 128) ∧ t.labels.aligned = true ∧
      t.labels.markLength = some length ∧ t.count .marksTaken = min (h.count .marksTaken + 1) 4294967295 ∧
      ∀ x, time = some x → x.day ≤ 65535 → x.sec ≤ 86399 →
        t.unit.clock = some x ∧ t.unit.clockTimer = some (s.now + Config.seconds 1) ∧
        t.unit.schedule = some (scheduleMode s.settings x.sec) ∧ t.unit.mode = decidedMode t.unit ∧
        t.count .setByMark = min (h.count .setByMark + 1) 4294967295)

/-- A presence of a HEARD label that names another station, the orphan flag clear, is followed by the claim test: a
label heard at -300 or more, with a claim age of 8 or more or none, and at least the margin above the level its owner
reported, is claimed of an owner that is an ALIVE controller, by a part that is RUNNING and aligned (R112, R114). A
claim for a SHOWING label measured at least the margin below the claimant's level is accepted, and the label is
MOVING; any other is refused, with the label's smoothed level when it has one (R115). That the claimant is the frame's
source, whatever station its payload names, is log 20's: the model's choice. A LABEL-REFUSE of the station a HEARD
entry names ends its claim and brings that station's level; any other is ignored (R117). A claim no longer counts as
outstanding once its age has reached 16 cycles (R109). -/
def Obligations.ClaimsAreJudgedAndEnd : Prop :=
  (∀ (s : State) (p : PresencePacket) (h : Heard), s.live = true → s.serving = true → s.settings.labelService = true →
     p.orphan = false → p.owner ≠ s.self → s.owned p.label = none → s.heard p.label = some h →
       let level := smooth h.hearing.smoothed p.level
       let reported := if h.hearing.owner = p.owner then h.hearing.ownerLevel else none
       let sampled : Heard := { h with hearing :=
         { smoothed := some level, lastCycle := s.labels.cycle, owner := p.owner, ownerLevel := reported
           stamp := s.labels.stamp + 1 } }
       let counted : State := (s.withLabels fun l => { l with stamp := l.stamp + 1 }).bump .presencesTaken
       let claims : Prop := s.part = .running ∧ s.labels.aligned = true ∧ (s.peer p.owner).kind = some .controller ∧
         (s.peer p.owner).state = .alive ∧ -300 ≤ level ∧ (∀ n, h.claimAge = some n → 8 ≤ n) ∧
         ∀ y, reported = some y → y + 4 * (s.settings.claimMargin : Int) ≤ level
       let claimed : State := counted.putHeard p.label { sampled with claimAge := some 0, claimed := true }
       (¬ claims → exec (.presenceReceived p) s = .next (counted.putHeard p.label sampled)) ∧
       (claims → s.trunk.notice.length < 64 → exec (.presenceReceived p) s = .next ((claimed.withTrunk fun t =>
         { t with notice := t.notice ++ [{ dest := some p.owner, purpose := .label, attempts := 0
                                           body := .labelClaim p.label s.settings.station s.settings.labelChannel level }]
           }).bump .claimsSent)) ∧
       (claims → 64 ≤ s.trunk.notice.length →
         exec (.presenceReceived p) s = .next ((claimed.bump .notTakenNotice).bump .claimsDropped))) ∧
  (∀ (s : State) (f : FrameHead) (n ch : Nat) (c : Station) (y : Int), s.Hears f.src → f.dest = .station s.settings.station →
     let h := (s.heardFrom f.src id).bump .claimsReceived
     let refuses (level : Option Int) : Prop := s.canSend = true → s.trunk.notice.length < 64 →
       exec (.labelClaimReceived f n c ch y) s = .next ((h.bump .claimsRefused).withTrunk fun t =>
         { t with notice := t.notice ++ [{ dest := some f.src, body := .labelRefuse n level, purpose := .label
                                           attempts := 0 }] })
     (s.part = .listenOnly → exec (.labelClaimReceived f n c ch y) s = .next h) ∧
     (s.part = .listening → refuses none) ∧
     (s.part = .running →
       ((s.settings.labelService = false ∨ s.owned n = none) → refuses none) ∧
       (s.settings.labelService = true → ∀ o, s.owned n = some o →
         (o.hearing.smoothed = none → refuses none) ∧
         (∀ x, o.hearing.smoothed = some x → (o.state ≠ .showing ∨ y < x + 4 * (s.settings.claimMargin : Int)) →
           refuses (some x)) ∧
         (∀ x, o.hearing.smoothed = some x → o.state = .showing → x + 4 * (s.settings.claimMargin : Int) ≤ y →
           exec (.labelClaimReceived f n c ch y) s = .next (h.putOwned n
             { o with attempts := 0
                      state := .moving { claimant := f.src, channel := ch, level := y, inAir := false } }))))) ∧
  (∀ (s : State) (f : FrameHead) (n : Nat) (level : Option Int), s.Hears f.src → f.dest = .station s.settings.station →
     (∀ h, s.heard n = some h → h.hearing.owner = f.src →
       exec (.labelRefuseReceived f n level) s = .next ((s.heardFrom f.src id).putHeard n
         { h with
           claimed := false
           hearing := match level with | none => h.hearing | some y => { h.hearing with ownerLevel := some y } })) ∧
     ((∀ h, s.heard n = some h → h.hearing.owner ≠ f.src) →
       exec (.labelRefuseReceived f n level) s = .next (s.heardFrom f.src id))) ∧
  ∀ (s : State) (n : Nat) (h : Heard), s.live = true → s.serving = true → s.heard n = some h →
    (h.claimed = true → h.claimAge = some 16 →
      exec (.claimExpiry n) s = .next (s.putHeard n { h with claimed := false })) ∧
    ((h.claimed = false ∨ h.claimAge ≠ some 16) → exec (.claimExpiry n) s = .next s)

/-- A MOVING label is sent MOVE attempts in its slot, before any listed label. After the sixth unanswered one the move
has failed and the claimant is refused with the label's level. An ACK, or a presence, that names the claimant ends the
move: a current label is handed over in a LABEL-HANDOVER, which waits where the NOTICE queue is full, and the entry
drops to HEARD with the claim's level; an ACK that names another station answers no attempt (R88, R93, R112, R116,
R124). Which of these the counts take is log 24's, and that a handover counts as sent when handed over and not
NOT-TAKEN log 35's: the model's choices. A LABEL-HANDOVER of a HEARD label is taken in as OWNED with the record's
display, battery and binding and the level and cycle it was heard with, and counted for its article; with no article,
or one with no entry or not on sale, it is taken in unbound, its target the unbound BLANK. A label with no HEARD entry
is taken in where there is room, a HEARD entry giving way in a full table, its last heard cycle a free value (log 6:
the model's choice); without room it is turned away and counted. For an OWNED label the record is ignored and counted
(R109, R110, R117); with label service off the table stands (R79). A LABEL-ADOPTED makes an OWNED label drop to HEARD,
names the adopter in a HEARD entry, and is otherwise ignored (R111, R119). At the end of a presence window an
unanswered adoption MOVE changes nothing; an ACK naming another station makes a HEARD entry name it, and an OWNED
label drop to HEARD, its move given up with a LABEL-REFUSE; one naming this station leaves an OWNED label its own,
with attempts 0 and, where SHOWING or UPDATE-DUE, the presence's display (R113), by which a SHOWING label may become
UPDATE-DUE; it takes in a HEARD label with its entry's level and cycle, and one with no entry any more with its
presence's; an adopted label is told to ALL in a LABEL-ADOPTED (R110, R111, R119). That a LOST label keeps its display
is log 26's reading. -/
def Obligations.OwnershipPasses : Prop :=
  (∀ (s : State) (n : Nat) (o : Owned) (m : Move), s.owned n = some o → o.state = .moving m →
     let missed : Owned := { o with attempts := o.attempts + 1, power := min (o.power + 2) 12 }
     let attempt : State := (s.putOwned n { o with state := .moving { m with inAir := true } }).emit
       (.radio (.move (some s.settings.labelChannel) n m.claimant m.channel o.power))
     s.sendMove n = attempt ∧
     (s.mayFill = true → s.movers s.labels.slot = [n] →
       let listed := ((s.updates.map (·.2)).filter fun x => decide (x % 128 = s.labels.slot)).take 3
       s.beginSlot = listed.foldl (fun t x => t.takeTurn x) ((s.emit (.radio (.header s.settings.labelChannel
         s.settings.station s.labels.cycle s.labels.slot s.labels.length))).sendMove n)) ∧
     (m.inAir = false → s.endTurn n = s) ∧
     (m.inAir = true →
       (o.attempts < 5 → s.endTurn n =
         (s.bump .unansweredAttempts).putOwned n { missed with state := .moving { m with inAir := false } }) ∧
       (5 ≤ o.attempts → s.canSend = true → s.trunk.notice.length < 64 → s.endTurn n =
         (((s.bump .unansweredAttempts).putOwned n { missed with
           attempts := 0, state := if o.current then .showing else .updateDue s.now }).bump .failedMoves).withTrunk fun t =>
             { t with notice := t.notice ++ [{ dest := some m.claimant, body := .labelRefuse n o.hearing.smoothed
                                               purpose := .label, attempts := 0 }] })) ∧
     (s.live = true → s.serving = true → s.settings.labelService = true →
       let moved (t : State) (x : Owned) (c : Instr) : Prop :=
         let frame : Frame :=
           { dest := some m.claimant, purpose := .label, attempts := 0
             body := .labelHandover { label := n, bound := x.bound, display := x.display, battery := x.battery } }
         (x.current = true → s.canSend = true → s.trunk.notice.length < 64 →
           exec c s = .next ((((t.withTrunk fun u => { u with notice := u.notice ++ [frame] }).bump
             .handoversSent)).dropToHeard n x m.claimant (some m.level))) ∧
         (x.current = true → s.canSend = true → 64 ≤ s.trunk.notice.length →
           ((∀ g ∈ s.trunk.holdNotice, g.sender ≠ .labels) → exec c s = .next
             ((((t.withTrunk fun u => { u with holdNotice := u.holdNotice ++ [frame] }).bump .framesWaited).bump
               .handoversSent).dropToHeard n x m.claimant (some m.level))) ∧
           ((∃ g ∈ s.trunk.holdNotice, g.sender = .labels) → (s.trunk.keptBy .labels .notice).length < 64 → exec c s = .next
             (((t.withTrunk fun u => { u with kept := u.kept ++ [frame] }).bump .handoversSent).dropToHeard n x m.claimant
               (some m.level)))) ∧
         (x.current = false → exec c s = .next (t.dropToHeard n x m.claimant (some m.level)))
       (∀ a : AckPacket, a.label = n →
         let heard : State := if a.common = true then s.withLabels fun l => { l with adoptions := l.adoptions.map fun x =>
             if x.presence.label = n ∧ x.ack = none then { x with ack := some a.owner } else x } else s
         (a.owner = m.claimant → moved ((heard.bump .acksTaken).takeBattery n a.battery) { o with battery := a.battery }
           (.ackReceived a)) ∧
         (a.owner ≠ m.claimant → exec (.ackReceived a) s = .next
           (((heard.bump .acksTaken).endTurn n).takeBattery n a.battery))) ∧
       ∀ p : PresencePacket, p.label = n → p.orphan = false → p.owner ≠ s.self → p.owner = m.claimant →
         let sampled : Owned := { o with hearing := { o.hearing with
           smoothed := some (smooth o.hearing.smoothed p.level), lastCycle := s.labels.cycle, stamp := s.labels.stamp + 1 } }
         moved ((((s.withLabels fun l => { l with stamp := l.stamp + 1 }).bump .presencesTaken).putOwned n sampled).takeBattery
           n p.battery) { sampled with battery := p.battery } (.presenceReceived p))) ∧
  (∀ (s : State) (f : FrameHead) (r : Handover), s.Hears f.src → f.dest = .station s.settings.station →
     s.settings.labelService = true →
       (∀ o, s.owned r.label = some o →
         exec (.labelHandoverReceived f r) s = .next ((s.heardFrom f.src id).bump .handoversIgnored)) ∧
       (s.owned r.label = none →
         let heard := s.heardFrom f.src id
         let full : Prop := 2048 ≤ s.labels.owned.length + s.labels.heard.length
         let takenIn (base : State) (x : Hearing) : Prop :=
           let made (bound : Option Nat) (target : Target) : State :=
             let o : Owned :=
               { bound := bound, display := r.display, state := .showing, target := target, lastSent := none, attempts := 0
                 power := 0, battery := r.battery, lastReceived := none
                 hearing := { x with owner := s.self, ownerLevel := none } }
             base.withLabels fun l => { l with
               heard := AMap.del l.heard r.label
               owned := AMap.put l.owned r.label { o with state := if o.current then .showing else .updateDue s.now } }
           ((∀ a e, r.bound = some a → s.entry a = some e → e.current = none) →
             exec (.labelHandoverReceived f r) s = .next ((made none .unbound).bump .takenByHandover)) ∧
           ∀ a e, r.bound = some a → s.entry a = some e → e.current ≠ none →
             exec (.labelHandoverReceived f r) s = .next
               (((made (some a) (if e.withdrawing then .blank a e.visible else .price a e.visible)).modifyEntry a fun x =>
                 { x with bound := min (x.bound + 1) 2048 }).bump .takenByHandover)
         let fresh : State := { heard with fresh := s.fresh + 1 }
         let unheard : Hearing :=
           { smoothed := none, lastCycle := (Config.unheardCycle s.fresh).toNat, owner := s.self, ownerLevel := none
             stamp := 0 }
         (∀ h, s.heard r.label = some h → takenIn heard h.hearing) ∧
         (s.heard r.label = none → ¬ full → takenIn fresh unheard) ∧
         (s.heard r.label = none → full → s.labels.heard = [] →
           exec (.labelHandoverReceived f r) s = .next (heard.bump .turnedAway)) ∧
         (∀ w x, s.heard r.label = none → full → AMap.wf s.labels.heard = true → s.heard w = some x →
           let claimed (y : Heard) : Prop := y.claimed = true ∧ ∀ k, y.claimAge = some k → k < 16
           let oldest (among : Heard → Prop) : Prop :=
             ∀ m y, s.heard m = some y → m ≠ w → among y → x.hearing.stamp < y.hearing.stamp
           ((¬ claimed x ∧ oldest fun y => ¬ claimed y) ∨
               ((∀ m y, s.heard m = some y → claimed y) ∧ oldest fun _ => True)) →
             takenIn ((fresh.withLabels fun l => { l with heard := AMap.del l.heard w }).bump .heardRemoved) unheard))) ∧
  (∀ (s : State) (f : FrameHead) (r : Handover), s.Hears f.src → f.dest = .station s.settings.station →
     s.settings.labelService = false → exec (.labelHandoverReceived f r) s = .next (s.heardFrom f.src id)) ∧
  (∀ (s : State) (f : FrameHead) (n : Nat) (c : Station) (d : Display), s.Hears f.src → f.dest = .all →
     s.settings.labelService = true →
       (s.owned n = none → s.heard n = none → exec (.labelAdoptedReceived f n c d) s = .next (s.heardFrom f.src id)) ∧
       (∀ h, s.owned n = none → s.heard n = some h →
         exec (.labelAdoptedReceived f n c d) s = .next ((s.heardFrom f.src id).putHeard n { h with hearing :=
           if h.hearing.owner = c then h.hearing else { h.hearing with owner := c, ownerLevel := none } })) ∧
       (∀ o, s.owned n = some o → ∃ t, exec (.labelAdoptedReceived f n c d) s = .next t ∧ t.owned n = none ∧
         t.heard n = some
           { hearing := { o.hearing with owner := c, ownerLevel := none }, claimAge := none, claimed := false } ∧
         t.count .dropsToHeard = min ((s.heardFrom f.src id).count .dropsToHeard + 1) 4294967295)) ∧
  ∀ (s : State) (x : Adoption), s.live = true → s.serving = true → s.labels.adoptions = [x] →
    let closed : State := s.withLabels fun l => { l with adoptions := [] }
    (x.ack = none → exec .presenceWindowEnd s = .next closed) ∧
    (∀ n h, x.ack = some n → n ≠ s.self → s.owned x.presence.label = none → s.heard x.presence.label = some h →
      exec .presenceWindowEnd s = .next (closed.putHeard x.presence.label { h with hearing :=
        if h.hearing.owner = n then h.hearing else { h.hearing with owner := n, ownerLevel := none } })) ∧
    (∀ o, x.ack = some s.self → s.owned x.presence.label = some o → s.canSend = true → s.trunk.notice.length < 64 →
      let shown : Owned := { o with display := x.presence.display }
      let ends (y : Owned) : Prop :=
        exec .presenceWindowEnd s = .next ((closed.putOwned x.presence.label { y with attempts := 0 }).withTrunk fun t =>
          { t with notice := t.notice ++ [{ dest := none, body := .labelAdopted x.presence.label s.self y.display
                                            purpose := .label, attempts := 0 }] })
      (o.state = .showing → x.presence.display = o.display → ends o) ∧
      (o.state = .showing → x.presence.display ≠ o.display →
        ends { shown with state := if shown.current then .showing else .updateDue s.now }) ∧
      (∀ due, o.state = .updateDue due → ends shown) ∧
      ((o.state = .lost ∨ (∃ due, o.state = .sent due) ∨ ∃ m, o.state = .moving m) → ends o)) ∧
    (∀ n o, x.ack = some n → n ≠ s.self → s.owned x.presence.label = some o →
      ((∀ m, o.state ≠ .moving m) →
        exec .presenceWindowEnd s = .next (closed.dropToHeard x.presence.label o n none)) ∧
      (∀ m, o.state = .moving m → s.canSend = true → s.trunk.notice.length < 64 →
        exec .presenceWindowEnd s = .next ((closed.withTrunk fun t => { t with notice := t.notice ++
          [{ dest := some m.claimant, body := .labelRefuse x.presence.label none, purpose := .label, attempts := 0 }]
          }).dropToHeard x.presence.label o n none))) ∧
    (∀ h a e, x.ack = some s.self → s.owned x.presence.label = none → s.heard x.presence.label = some h →
      x.presence.display.form = .price → x.presence.display.article = some a → s.entry a = some e → e.current ≠ none →
        let o : Owned :=
          { bound := some a, display := x.presence.display, state := .showing, lastSent := none, attempts := 0, power := 0
            target := if e.withdrawing then .blank a e.visible else .price a e.visible
            battery := x.presence.battery, lastReceived := none
            hearing := { h.hearing with owner := s.self, ownerLevel := none } }
        ∃ t, exec .presenceWindowEnd s = .next t ∧ t.heard x.presence.label = none ∧
          t.owned x.presence.label = some { o with state := if o.current then .showing else .updateDue s.now } ∧
          t.entry a = some { e with bound := min (e.bound + 1) 2048 } ∧
          t.count .takenByAdoption = min (s.count .takenByAdoption + 1) 4294967295 ∧
          (s.canSend = true → s.trunk.notice.length < 64 → t.trunk = { s.trunk with notice := s.trunk.notice ++
            [{ dest := none, body := .labelAdopted x.presence.label s.self x.presence.display, purpose := .label
               attempts := 0 }] })) ∧
    (x.ack = some s.self → s.owned x.presence.label = none → s.heard x.presence.label = none →
      s.labels.owned.length + s.labels.heard.length < 2048 →
        ∃ t o, exec .presenceWindowEnd s = .next t ∧ t.owned x.presence.label = some o ∧
          o.display = x.presence.display ∧ o.battery = x.presence.battery ∧ o.attempts = 0 ∧ o.power = 0 ∧
          o.hearing.smoothed = some (max (-480) (min x.presence.level (-80))) ∧ o.hearing.lastCycle = x.cycle ∧
          o.hearing.owner = s.self ∧ t.count .takenByAdoption = min (s.count .takenByAdoption + 1) 4294967295)

/-! ### The store trunk (07) -/

/-- Each beacon timer expiry forms one BEACON of this station's fields: it replaces a queued beacon that has had no
attempt, joins the URGENT queue, or is missed when that queue is full (R134). -/
def Obligations.BeaconIsFormedEachSecond : Prop :=
  ∀ (s : State) (due : Nat), s.live = true → s.canSend = true → s.trunk.beaconTimer = some due →
    let frame : Frame :=
      { dest := none, purpose := .beacon, attempts := 0
        body := .beacon
          { kind := .controller, part := some s.part, mode := some s.unit.mode, labelService := s.settings.labelService
            labelChannel := s.settings.labelChannel
            offer := if s.fwd.up = true ∧ s.unit.mode ≠ .distress then s.settings.uplinkRate else 0
            heldSerial := s.link.held } }
    let moved : State :=
      { s with now := max s.now due, trunk := { s.trunk with beaconTimer := some (due + Config.seconds 1) } }
    let fresh (f : Frame) : Prop := f.purpose = .beacon ∧ f.attempts = 0
    ((∀ f ∈ s.trunk.urgent, ¬ fresh f) →
      (s.trunk.urgent.length < 8 → exec .beaconTimerExpiry s = .next (moved.withTrunk fun t =>
        { t with urgent := t.urgent ++ [frame] })) ∧
      (8 ≤ s.trunk.urgent.length →
        exec .beaconTimerExpiry s = .next ((moved.bump .notTakenUrgent).bump .beaconsMissed))) ∧
    (∀ before b rest, s.trunk.urgent = before ++ b :: rest → (∀ f ∈ before, ¬ fresh f) → fresh b →
      s.trunk.inAir ≠ some .urgent → exec .beaconTimerExpiry s = .next ((moved.withTrunk fun t =>
        { t with urgent := before ++ frame :: rest }).bump .beaconsReplaced))

/-- A good frame of another station makes its slot ALIVE and restarts its silence timer, a BEACON and a CYCLE-MARK
setting what they carry; a frame for this part that is malformed or of an office reply is counted and discarded, a
malformed CYCLE-MARK updating the slot all the same; a frame of this station's own number is counted and updates
nothing, but for a BEACON, malformed or not, which is a clash where the part sends; and a frame that fails its check
is counted (R127, R131, R132, R135, R137). That a malformed BEACON of a peer sets none of its slot's other fields is
log 57's: the model's choice. A frame of a kind that is delivered, an OFFICE frame or an office reply that bears this
station's own number is counted, and nothing else is done with it (R131 step 3). -/
def Obligations.FramesUpdateTheirSendersSlot : Prop :=
  (∀ (s : State) (f : FrameHead),
     (s.Hears f.src →
       let alive : Peer := { s.peer f.src with state := .alive, timer := some (s.now + Config.seconds 4) }
       let leaves (c : Instr) (p : Peer) : Prop := ∃ t, exec c s = .next t ∧ keeps hearFields s t ∧
         ∀ n, t.peer n = if n = f.src then p else s.peer n
       let beacon (b : Beacon) : Peer := { alive with kind := some b.kind, beacon := some b, labelService := b.labelService }
       (∀ b, f.dest = .all → leaves (.beaconReceived f b) (beacon b)) ∧
       (∀ n, f.dest = .station n → n ≠ s.settings.station →
         (∀ b, leaves (.trunkFrameOtherDest f (.beacon b)) (beacon b)) ∧
         leaves (.trunkFrameOtherDest f .cycleMark)
           { alive with kind := some (alive.kind.getD .controller), labelService := true } ∧
         leaves (.trunkFrameOtherDest f .other) alive) ∧
       (∀ n, f.dest = .nobody n →
         exec (.trunkFrameOtherDest f .other) s = .next ((s.hear f.src id).bump .malformedFrames)) ∧
       ((f.dest = .all ∨ f.dest = .station s.settings.station) →
         (∀ k, k ≠ .cycleMark →
           exec (.malformedFrameReceived ⟨f.src, f.dest, k⟩) s = .next ((s.heardFrom f.src id).bump .malformedFrames)) ∧
         exec (.malformedFrameReceived ⟨f.src, f.dest, .cycleMark⟩) s =
           .next ((s.heardFrom f.src Peer.takeMark).bump .malformedFrames)) ∧
       (f.dest = .station s.settings.station →
         exec (.officeReplyReceived f) s = .next ((s.heardFrom f.src id).bump .notForPart))) ∧
     (s.live = true → s.serving = true → f.src = s.settings.station →
       (∀ k, k ≠ .beacon ∨ s.part = .listenOnly →
         exec (.malformedFrameReceived ⟨f.src, f.dest, k⟩) s = .next (s.bump .ownNumberFrames)) ∧
       (∀ b, exec (.malformedFrameReceived ⟨f.src, f.dest, .beacon⟩) s = exec (.beaconReceived f b) s) ∧
       exec (.trunkFrameOtherDest f .other) s = .next (s.bump .ownNumberFrames) ∧
       (s.part = .listenOnly → ∀ b, exec (.beaconReceived f b) s = .next (s.bump .ownNumberFrames))) ∧
     (s.live = true → s.serving = true → exec .trunkFrameBadCheck s = .next
       (if s.part = .listenOnly then s.bump .checkErrors else (s.bump .checkErrors).emit .spoiledSlot))) ∧
  ∀ (c : Instr) (s : State), deliveredFrom c = some s.settings.station → s.live = true → s.serving = true →
    exec c s = .next (s.bump .ownNumberFrames)

/-- A BEACON of this station's own number takes a part that sends to LISTEN-ONLY, in which it holds no frame, has no
beacon timer and no holder, with a STATION-CLASH alert of severity WARN whose subject is this station (R137, R138,
R150, R201; the subject `self`, log 9); and a peer not heard for 4 s becomes SILENT, its command memory place empty,
with a PEER-SILENT alert (R136, R209). That the frames the blocks keep behind their held frames are given up too on
the entry to LISTEN-ONLY is log 30's: the model's choice. -/
def Obligations.ClashAndSilence : Prop :=
  (∀ (s : State) (f : FrameHead) (b : Beacon), s.live = true → s.canSend = true → f.src = s.settings.station →
    (∀ g ∈ s.trunk.frames ++ s.trunk.kept, g.purpose ≠ .reply true) →
      ∃ t, exec (.beaconReceived f b) s = .next t ∧ t.part = .listenOnly ∧ t.trunk.clash = true ∧ t.trunk.frames = [] ∧
        t.trunk.kept = [] ∧ t.trunk.inAir = none ∧ t.trunk.beaconTimer = none ∧ t.trunk.peers = s.trunk.peers ∧
        t.fwd.holder = none ∧
        ∃ a ∈ t.alerts.list, a.kind = .stationClash ∧ a.severity = .warn ∧ a.subject = .self ∧ a.detail = .nothing ∧
          a.acked = false) ∧
  ∀ (s : State) (n : Station) (due : Nat), s.live = true → s.serving = true → (s.peer n).timer = some due →
    ((s.peer n).state ≠ .alive → exec (.peerSilent n) s = .next s) ∧
    ((s.peer n).state = .alive → ∃ t, exec (.peerSilent n) s = .next t ∧ t.now = max s.now due ∧
      (∀ m, t.peer m = if m = n then { s.peer n with state := .silent, timer := none } else s.peer m) ∧
      (∀ m, t.commands.places.get m = if m = n then none else s.commands.places.get m) ∧
      ∃ a ∈ t.alerts.list, a.kind = .peerSilent ∧ a.subject = .station n ∧
        a.severity = if (s.peer n).kind = some .controller then .warn else .info)

/-- A station begins the front frame of its highest queue, and gives way to a lower class or, within the class, to a
lower station number; a lost arbitration is not an attempt (R125, R126). -/
def Obligations.ArbitrationIsWonByTheLowest : Prop :=
  ∀ (s : State) (others : List Header), s.live = true → s.canSend = true → s.trunk.inAir = none →
    let t := s.trunk
    let offers (c : TrunkClass) (f : Frame) : Prop :=
      (c = .urgent ∧ t.urgent.head? = some f) ∨ (c = .notice ∧ t.urgent = [] ∧ t.notice.head? = some f) ∨
        (c = .bulk ∧ t.urgent = [] ∧ t.notice = [] ∧ t.bulk.head? = some f)
    let beats (h : Header) (c : TrunkClass) : Prop :=
      classCode h.cls < classCode c ∨ (h.cls = c ∧ h.src < s.settings.station)
    (∀ c f, offers c f →
      ((∀ h ∈ others, ¬ beats h c) → exec (.trunkFrameBegin others) s = .next
        { s with trunk := { t with inAir := some c }, out := s.out ++ [.trunkFrame s.settings.station f] }) ∧
      ((∃ h ∈ others, beats h c) → exec (.trunkFrameBegin others) s = .next (s.bump .arbitrationLosses))) ∧
    (t.urgent = [] → t.notice = [] → t.bulk = [] → exec (.trunkFrameBegin others) s = .next s)

/-- An attempt succeeds when the spoiled slot was not asserted and, for a frame to a station, the taken slot was. The
frame leaves its queue on success or after its fourth failure, the oldest held frame taking the place, and else stays
at the front; the outcome of a RESTART reply resets the part (R124, R128, R129, R211). The block of the frame that
leaves is told its outcome: a share frame or a reply that is dropped is counted, a RELAY frame is counted as it was
sent or as undeliverable, a lane whose AUTH was relayed out and dropped is answered NO-ROUTE, and the outcome of a
frame of reports lets the next be formed (R13, R140, R154, R188). A block told that its held frame is QUEUED goes on:
the share with its next frame, the session with its next message, the forwarding unit with its relay-back list, and a
block that kept frames behind it hands over the first of those, which waits in its turn (R124, R154, R156, R188).
Every frame is taken to stand in the queue of its kind's class, as `FramesStayInTheirQueues` says that it does. That a
reply DROPPED after its fourth failure is counted as lost is log 10's, that the kept frames go before the next frame
the block forms, and the order of the acts when a place is freed, log 31's, and that nothing is counted for an AUTH
relayed out and dropped whose tag has no entry any more log 82's: the model's choices. -/
def Obligations.AttemptsEndInSentOrDropped : Prop :=
  ∀ (s : State) (c : TrunkClass) (f : Frame) (rest : List Frame) (taken spoiled : Bool), s.live = true →
    s.canSend = true → s.trunk.Filed → s.trunk.inAir = some c → s.trunk.queue c = f :: rest →
      let succeeds : Prop := spoiled = false ∧ (f.dest = none ∨ taken = true)
      let sent : State := s.bump (match c with
        | .urgent => .sentUrgent
        | .notice => .sentNotice
        | .bulk => .sentBulk)
      let dropped : State := (s.bump .failedAttempts).bump .framesDropped
      let gives (t : State) : Prop := exec (.trunkAttemptEnd taken spoiled) s = .next t
      let leaves (counted : State) (told : State → State) : Prop :=
        (s.trunk.hold c = [] → gives (told (counted.withTrunk fun t => { t.setQueue c rest with inAir := none }))) ∧
        ∀ g held, s.trunk.hold c = g :: held →
          let took (kept : List Frame) : State := told (counted.withTrunk fun t =>
            { (t.setQueue c (rest ++ [g])).setHold c held with inAir := none, kept := kept })
          (s.trunk.kept = [] →
            ((g.purpose.plain = true ∨ g.purpose = .reply false) → gives (took [])) ∧
            (g.purpose = .share → gives (took []).shareNext) ∧
            (∀ p, g.body = .relay p → g.purpose = .relayOut → s.fwd.relayBack = [] →
              (p = sessionParcel s.settings.station s.link.attemptTag p.payload → gives (took []).toldQueued) ∧
              (p ≠ sessionParcel s.settings.station s.link.attemptTag p.payload → gives (took []))) ∧
            (g.purpose = .relayBack → s.fwd.relayBack = [] → gives (took [])) ∧
            (∀ r list, c = .bulk → g.purpose = .relayBack → s.fwd.relayBack = r :: list →
              (s.peer r.origin).state = .alive → r.cls = .office → 32 ≤ rest.length + 1 →
              (∀ x ∈ held, x.sender ≠ .forwarding) →
                gives (((took []).withTrunk fun t => t.setHold c (held ++ [{ dest := some r.origin, body := .relay r
                                                                             purpose := .relayBack, attempts := 0 }])).bump
                  .framesWaited |>.withFwd fun w => { w with relayBack := list }))) ∧
          (∀ k others, s.trunk.kept = k :: others → k.sender = g.sender → k.body.trunkClass = c → k.body.waits = true →
            (∀ x ∈ held, x.sender ≠ g.sender) → Config.queueCapacity c ≤ rest.length + 1 →
              let waits : State := ((took others).withTrunk fun t => t.setHold c (held ++ [k])).bump .framesWaited
              ((g.purpose.plain = true ∨ g.purpose = .reply false ∨ g.purpose = .relayBack) → gives waits) ∧
              (g.purpose = .share → gives waits.shareNext))
      (¬ succeeds → f.attempts < 3 → gives ((s.bump .failedAttempts).withTrunk
        fun t => { t.setQueue c ({ f with attempts := f.attempts + 1 } :: rest) with inAir := none })) ∧
      (succeeds → (f.purpose.plain = true ∨ f.purpose = .share ∨ f.purpose = .reply false) → leaves sent fun x => x) ∧
      (succeeds → f.purpose = .relayOut → leaves sent fun x => x.bump .relayedOut) ∧
      (succeeds → f.purpose = .relayBack → leaves sent fun x => x.bump .relayedBack) ∧
      (¬ succeeds → 3 ≤ f.attempts →
        (f.purpose.plain = true → leaves dropped fun x => x) ∧
        (f.purpose = .share → leaves dropped fun x => x.bump .shareFramesLost) ∧
        (f.purpose = .reply false → leaves dropped fun x => x.bump .repliesLost) ∧
        (f.purpose = .relayBack → leaves dropped fun x => x.bump .undeliverable) ∧
        ∀ p, f.body = .relay p → f.purpose = .relayOut →
          (p.cls ≠ .till → leaves dropped fun x => x.bump .undeliverable) ∧
          (p.cls = .till → ∀ l, p.port = .lane l →
            ((∀ e, AMap.get s.fwd.pendingTable l.val = some e → e.count ≠ p.tag) → leaves dropped fun x => x) ∧
            (∀ e, AMap.get s.fwd.pendingTable l.val = some e → e.count = p.tag →
              let answered (x : State) : State :=
                x.withFwd fun w => { w with pendingTable := AMap.del w.pendingTable l.val }
              (∀ a, (s.lane l).flight = some a → a.count = p.tag → leaves dropped fun x =>
                ((answered x).withLane l fun y =>
                  { y with flight := none, last := some (a.bit, .auth, .noRoute) }).emit (.laneReply l a.bit .noRoute)) ∧
              ((∀ a, (s.lane l).flight = some a → a.count ≠ p.tag) → leaves dropped fun x =>
                (answered x).withLane l fun y => { y with lateReplies := min (y.lateReplies + 1) 4294967295 })))) ∧
      (f.purpose = .reply true → (succeeds ∨ 3 ≤ f.attempts) → ∃ t, exec (.trunkAttemptEnd taken spoiled) s = .next t ∧
        t.part = .starting ∧ t.cause = .restart ∧ t.trunk = Trunk.initial ∧ t.alerts = AlertList.initial .restart) ∧
      (f.purpose = .reports → (succeeds ∨ 3 ≤ f.attempts) → s.trunk.hold c = [] →
        ∃ t, gives t ∧
          (s.book.reports = [] → t.book = { s.book with outstanding := false } ∧
            t.trunk = { s.trunk.setQueue c rest with inAir := none }) ∧
          (s.book.reports ≠ [] → rest.length < 64 →
            t.book = { s.book with outstanding := true, reports := s.book.reports.drop 64 } ∧
            t.trunk = { s.trunk with
              inAir := none
              notice := rest ++ [{ dest := none, purpose := .reports, attempts := 0
                                   body := .shelfDone (s.book.reports.take 64) }] }))

/-! ### Forwarding (08) -/

/-- What becomes of other stations' parcels: one of the uplink port goes to its origin in a RELAY frame while that is
ALIVE; a TILL or GUEST reply that the trunk does not take is undeliverable, and an OFFICE reply waits in the BULK hold
line, and behind one that waits in the relay-back list while that has room (R153, R154). One relayed in joins the
uplink queue of its class when it fits, and is not relayed a second time: a TILL parcel is reported back NO-ROUTE
where no uplink is live and BUSY where it does not fit, and a GUEST parcel joins while this station relays for guests
and the mode admits them (R143, R144, R152). That such a report is discarded as undeliverable where the origin is not
ALIVE, on which R152 is silent, is log 79's: the model's choice. A malformed one is counted, and so is one that
reaches a part in LISTEN-ONLY. That an OFFICE parcel relayed in which does not fit is counted as undeliverable, that
one relayed in is counted as it joins its queue, and which of the guest port's counts a GUEST parcel that does not
join raises, is log 28's: the model's choice. That a RELAY parcel whose class, port and guest disagree is a malformed
parcel and no malformed frame, and that a parcel of the uplink port whose status is not DATA is one, is log 29's: the
model's choice. That an OFFICE parcel which fits joins while a session parcel is held too, and is numbered among those
behind it, is log 73's: the model's choice (R146, R156). -/
def Obligations.ParcelsAreCarriedForPeers : Prop :=
  ∀ (s : State) (p : Parcel), p.payload.length ≤ 1500 →
    let sized (q : List Parcel) : Nat := (q.map (·.payload.length)).sum
    let relay (r : Parcel) : Frame := { dest := some r.origin, body := .relay r, purpose := .relayBack, attempts := 0 }
    let back (gives : State → Prop) (h : State) (r : Parcel) : Prop :=
      (((h.peer r.origin).state ≠ .alive ∨ h.part = .listenOnly) → gives (h.bump .undeliverable)) ∧
      ((h.peer r.origin).state = .alive → h.canSend = true →
        (r.cls = .till →
          (h.trunk.urgent.length < 8 → gives (h.withTrunk fun t => { t with urgent := t.urgent ++ [relay r] })) ∧
          (8 ≤ h.trunk.urgent.length → gives ((h.bump .notTakenUrgent).bump .undeliverable))) ∧
        (r.cls = .guest →
          (h.trunk.bulk.length < 32 → gives (h.withTrunk fun t => { t with bulk := t.bulk ++ [relay r] })) ∧
          (32 ≤ h.trunk.bulk.length → gives ((h.bump .notTakenBulk).bump .undeliverable))) ∧
        (r.cls = .office →
          let waits : Prop := (∃ f ∈ h.trunk.holdBulk, f.sender = .forwarding) ∨
            (∃ f ∈ h.trunk.kept, f.sender = .forwarding ∧ f.body.trunkClass = .bulk)
          (¬ waits → h.fwd.relayBack = [] →
            (h.trunk.bulk.length < 32 → gives (h.withTrunk fun t => { t with bulk := t.bulk ++ [relay r] })) ∧
            (32 ≤ h.trunk.bulk.length →
              gives ((h.withTrunk fun t => { t with holdBulk := t.holdBulk ++ [relay r] }).bump .framesWaited))) ∧
          ((waits ∨ h.fwd.relayBack ≠ []) →
            (sized h.fwd.relayBack + r.payload.length ≤ 65536 →
              gives (h.withFwd fun w => { w with relayBack := w.relayBack ++ [r] })) ∧
            (65536 < sized h.fwd.relayBack + r.payload.length → gives (h.bump .undeliverable)))))
    (s.live = true → s.serving = true →
      ((parcelOk p = false ∨ p.status ≠ .data) →
        exec (.uplinkParcelReceived p) s = .next (s.bump .malformedParcels)) ∧
      (parcelOk p = true → p.status = .data → p.origin ≠ s.settings.station →
        back (fun t => exec (.uplinkParcelReceived p) s = .next t) s p)) ∧
    ∀ f : FrameHead, s.Hears f.src → f.dest = .station s.settings.station →
      let h := s.heardFrom f.src id
      let gives (t : State) : Prop := exec (.relayReceived f p) s = .next t
      (parcelOk p = false → gives (h.bump .malformedParcels)) ∧
      (parcelOk p = true → s.part = .listenOnly → gives (h.bump .undeliverable)) ∧
      (parcelOk p = true → s.part ≠ .listenOnly → p.origin ≠ s.settings.station →
        (h.fwd.up = false →
          (p.cls ≠ .till → gives (h.bump .undeliverable)) ∧
          (p.cls = .till → back gives h { p with status := .noRoute, payload := [] })) ∧
        (h.fwd.up = true → h.fwd.sending ≠ none →
          (p.cls = .till →
            (sized h.fwd.till + p.payload.length ≤ 16384 →
              gives ((h.bump .relayedInTill).withFwd fun w => { w with till := w.till ++ [p] })) ∧
            (16384 < sized h.fwd.till + p.payload.length → back gives h { p with status := .busy, payload := [] })) ∧
          (p.cls = .office →
            (sized h.fwd.office + p.payload.length ≤ 65536 →
              gives ((h.bump .relayedInOffice).withFwd fun w => { w with
                office := w.office ++ [p]
                heldParcel := w.heldParcel.map fun x => { x with relayedSince := x.relayedSince + 1 } })) ∧
            (65536 < sized h.fwd.office + p.payload.length → gives (h.bump .undeliverable))) ∧
          (p.cls = .guest → s.settings.guestRelay = true →
            let admits : Prop := s.unit.mode = .open ∨ s.unit.mode = .late
            (¬ admits → gives (h.bump .droppedByMode)) ∧
            (admits → sized h.fwd.guest + p.payload.length ≤ 65536 →
              gives ((h.withFwd fun w => { w with guest := w.guest ++ [p] }).bump .relayedInGuest)) ∧
            (admits → 65536 < sized h.fwd.guest + p.payload.length → gives (h.bump .guestQueueFull)))) ∧
        (h.fwd.up = true → p.cls = .guest → s.settings.guestRelay = false → gives (h.bump .guestRelayRefused)))

/-- The uplink follows the carrier where the profile has an uplink; a loss empties everything bound for it and counts
it: a lane whose AUTH had not been sent is answered NO-ROUTE by way of the pending table, and a TILL parcel relayed in
is reported back NO-ROUTE to its origin while that is ALIVE, or counted as undeliverable (R145, R148). That the TILL
parcels are counted as lost too is log 28's, and that the one being sent goes first and then the queue from its front
log 80's: the model's choices. A sending that ends puts the parcel on the uplink, the pending table entry of a TILL
parcel of this station's lanes records it as sent, and the transmitter chooses the next, a TILL parcel first (R147). A
held session parcel then joins the OFFICE queue as soon as it fits; that it stands there ahead of the parcels relayed
in since it was held, which may themselves have joined before it, is log 73's: the model's choice (R156). A free
transmitter takes a TILL parcel first, OFFICE and GUEST by their shares when both wait, and OFFICE and GUEST not at
all in DISTRESS (R147). -/
def Obligations.UplinkCarriesByItsShares : Prop :=
  (∀ s : State, s.live = true → s.serving = true →
     (∀ present, (s.settings.uplinkPresent = false ∨ present = s.fwd.up) →
       exec (.uplinkCarrierChange present) s = .next { s with carrier := present }) ∧
     (s.settings.uplinkPresent = true → s.fwd.up = false → ∃ t, exec (.uplinkCarrierChange true) s = .next t ∧
       t.carrier = true ∧ t.fwd.up = true ∧ t.fwd.holder = none) ∧
     (s.settings.uplinkPresent = true → s.fwd.up = true → ∃ t, exec (.uplinkCarrierChange false) s = .next t ∧
       t.carrier = false ∧ t.fwd.up = false ∧ t.fwd.till = [] ∧ t.fwd.office = [] ∧ t.fwd.guest = [] ∧
       t.fwd.sending = none ∧ t.fwd.officeTally = 0 ∧ t.fwd.guestTally = 0 ∧ t.fwd.heldParcel = none ∧
       t.link.state.inProgress = false ∧
       let air := (s.fwd.sending.map (·.1)).toList
       let tills := air.filter (fun p => p.cls = .till) ++ s.fwd.till
       let peers := tills.filter fun p => p.origin ≠ s.settings.station
       let reached := peers.filter fun p => (s.peer p.origin).state = .alive
       t.count .lostAtUplinkLoss = (s.bumpBy .lostAtUplinkLoss
         (air.length + s.fwd.till.length + s.fwd.office.length + s.fwd.guest.length)).count .lostAtUplinkLoss ∧
       (∀ p ∈ tills, ∀ l e, p.origin = s.settings.station → p.port = .lane l →
         AMap.wf s.fwd.pendingTable = true → AMap.get s.fwd.pendingTable l.val = some e → e.count = p.tag →
           AMap.get t.fwd.pendingTable l.val = none ∧
           ∀ a, (s.lane l).flight = some a → a.count = p.tag → (t.lane l).flight = none ∧
             (t.lane l).last = some (a.bit, .auth, .noRoute) ∧ .laneReply l a.bit .noRoute ∈ t.out) ∧
       (s.canSend = true → (∀ p ∈ peers, p.cls = .till) → s.trunk.urgent.length + reached.length ≤ 8 →
         t.trunk.urgent = s.trunk.urgent ++ reached.map fun p =>
           { dest := some p.origin, body := .relay { p with status := .noRoute, payload := [] }, purpose := .relayBack
             attempts := 0 }) ∧
       (s.canSend = true → (∀ p ∈ peers, p.cls = .till) → s.trunk.urgent.length + reached.length ≤ 8 →
         t.count .undeliverable = (s.bumpBy .undeliverable (peers.length - reached.length)).count .undeliverable)) ∧
     (∀ p due, s.fwd.sending = some (p, due) → (p.cls = .till → p.origin ≠ s.settings.station) → s.fwd.heldParcel = none →
       let sent : Count := match p.cls with
         | .till => .uplinkTill
         | .office => .uplinkOffice
         | .guest => .uplinkGuest
       let ended (w : Forwarding) : State := { ({ s with now := max s.now due }.emit (.uplink p)).bump sent with fwd := w }
       (s.fwd.till = [] → s.fwd.office = [] → s.fwd.guest = [] →
         exec .uplinkSendEnd s = .next (ended { s.fwd with sending := none })) ∧
       (∀ q till, s.fwd.up = true → s.fwd.till = q :: till → exec .uplinkSendEnd s = .next (ended { s.fwd with
         till := till, sending := some (q, max s.now due + q.payload.length * 8000 / s.settings.uplinkRate) }))) ∧
     (∀ p due l e, s.fwd.sending = some (p, due) → p.cls = .till → p.origin = s.settings.station → p.port = .lane l →
       AMap.get s.fwd.pendingTable l.val = some e → e.count = p.tag → s.fwd.heldParcel = none →
         ∃ t, exec .uplinkSendEnd s = .next t ∧
           t.fwd.pendingTable = AMap.put s.fwd.pendingTable l.val ⟨p.tag, .local true⟩ ∧
           t.count .uplinkTill = min (s.count .uplinkTill + 1) 4294967295) ∧
     ∀ p due x older newer, s.fwd.sending = some (p, due) → p.cls ≠ .till → s.fwd.heldParcel = some x → s.fwd.up = true →
       s.unit.mode ≠ .distress → s.fwd.till = [] → s.fwd.guest = [] → s.fwd.office = older ++ newer →
       newer.length = x.relayedSince → x.parcel.cls = .office → ∀ q rest, older = q :: rest →
         ((rest ++ newer).map (·.payload.length)).sum + x.parcel.payload.length ≤ 65536 →
           ∃ t more, exec .uplinkSendEnd s = .next t ∧ t.fwd.office = rest ++ x.parcel :: newer ++ more ∧
             t.fwd.sending = some (q, max s.now due + q.payload.length * 8000 / s.settings.uplinkRate)) ∧
  ∀ w : Forwarding,
    (∀ m p q, w.till = p :: q → w.choose m = some (p, { w with till := q })) ∧
    (w.till = [] →
      w.choose .distress = none ∧
      (∀ p q, w.office = p :: q → w.choose .closed =
        some (p, { w with office := q, officeTally := p.payload.length, guestTally := 0 })) ∧
      ∀ po qo pg qg, w.office = po :: qo → w.guest = pg :: qg →
        let office : Forwarding := { w with office := qo, officeTally := w.officeTally + po.payload.length }
        let guest : Forwarding := { w with guest := qg, guestTally := w.guestTally + pg.payload.length }
        (w.officeTally * 90 ≤ w.guestTally * 10 → w.choose .open = some (po, office)) ∧
        (w.guestTally * 10 < w.officeTally * 90 → w.choose .open = some (pg, guest)) ∧
        (w.officeTally ≤ w.guestTally → w.choose .late = some (po, office)) ∧
        (w.guestTally < w.officeTally → w.choose .late = some (pg, guest)))

/-- A guest's frame is tested in the order of R158; an unknown guest is admitted while the mode allows, the guest idle
for longest, and for more than 10 min, giving way in a full list; one that passes every test costs its guest its bytes
and is routed to the uplink, or in a RELAY frame to the holder (R158 to R162); one that the GUEST queue has no room
for is dropped and counted (R146). The refill raises every bucket by its guest's rate, and no higher than full (R160).
That a parcel whose RELAY is not taken is counted as undeliverable is log 28's: the model's choice. A reply to a
guest, from the uplink or in a RELAY frame, is handed to the guest when its bucket has the bytes and dropped when it
has not; one for an address not in the list is counted (R153, R160, R161, R163). -/
def Obligations.GuestFramesAreTested : Prop :=
  (∀ (s : State) (a : Nat) (dest : GuestDest) (payload : List Byte), s.live = true →
     (s.serving = true →
       let gives (t : State) : Prop := exec (.guestFrameReceived a dest payload) s = .next t
       let rejected (why : RejectReason) : State := (s.bump .rejections).emit (.guestReject a why)
       let trades : Prop := s.unit.mode = .open ∨ s.unit.mode = .late
       let passes (g : Guest) : Guest :=
         let today := min (g.bytesToday + payload.length) 4294967295
         { g with
           lastSeen := s.now, level := g.level - payload.length, bytesToday := today
           capped := g.capped || (s.settings.allowance ≠ 0 && s.settings.allowance < today) }
       let new : Guest := { address := a, capped := false, bytesToday := 0, level := 65536, lastSeen := s.now }
       let parcel : Parcel :=
         { cls := .guest, origin := s.settings.station, port := .guest, tag := 0, guest := some a, status := .data
           payload := payload }
       let routes (paid : State) : Prop :=
         (s.fwd.up = true → trades → s.fwd.sending ≠ none →
           (s.fwd.guest.map (·.payload.length)).sum + payload.length ≤ 65536 →
             gives (paid.withFwd fun w => { w with guest := w.guest ++ [parcel] })) ∧
         (s.fwd.up = true → trades → 65536 < (s.fwd.guest.map (·.payload.length)).sum + payload.length →
           gives (paid.bump .guestQueueFull)) ∧
         (s.fwd.up = false → (s.fwd.holder = none ∨ s.settings.guestRelay = false) → gives (paid.bump .guestNoRoute)) ∧
         (s.fwd.up = false → ∀ h, s.fwd.holder = some h → s.settings.guestRelay = true → s.canSend = true →
           (s.trunk.bulk.length < 32 → gives (paid.withTrunk fun t => { t with bulk := t.bulk ++
             [{ dest := some h, body := .relay parcel, purpose := .relayOut, attempts := 0 }] })) ∧
           (32 ≤ s.trunk.bulk.length → gives ((paid.bump .notTakenBulk).bump .undeliverable)))
       (s.settings.guestService = false → gives (rejected .noService)) ∧
       (s.settings.guestService = true →
         ((payload = [] ∨ 1500 < payload.length) → gives (s.bump .malformedParcels)) ∧
         (1 ≤ payload.length → payload.length ≤ 1500 →
           (dest ≠ .uplink → gives (s.bump .isolationDrops)) ∧
           (dest = .uplink → (∀ g ∈ s.fwd.guests, g.address ≠ a) →
             (¬ trades → gives (rejected .closed)) ∧
             (trades → s.fwd.guests.length < 128 →
               routes (s.withFwd fun w => { w with guests := w.guests ++ [passes new] })) ∧
             (trades → 128 ≤ s.fwd.guests.length → ∀ before g after, s.fwd.guests = before ++ g :: after →
               g.lastSeen + Config.minutes 10 < s.now →
               (∀ x ∈ before ++ after, g.lastSeen < x.lastSeen ∧ x.address ≠ g.address) →
                 routes ((s.bump .evictions).withFwd fun w => { w with guests := before ++ after ++ [passes new] })) ∧
             (trades → 128 ≤ s.fwd.guests.length → (∀ g ∈ s.fwd.guests, s.now ≤ g.lastSeen + Config.minutes 10) →
               gives (rejected .full))) ∧
           (dest = .uplink → ∀ before g after, s.fwd.guests = before ++ g :: after → g.address = a →
             (∀ x ∈ before ++ after, x.address ≠ a) →
             let seen (x : Guest) : State := s.withFwd fun w => { w with guests := before ++ x :: after }
             (g.level < payload.length → gives ((seen { g with lastSeen := s.now }).bump .budgetDrops)) ∧
             (payload.length ≤ g.level → routes (seen (passes g))))))) ∧
     let rate (g : Guest) : Nat :=
       if g.capped then 128 else if s.unit.mode = .late then s.settings.guestRate / 2 else s.settings.guestRate
     exec .guestRefillTimer s = .next { s with
       now := max s.now s.fwd.timer
       fwd := { s.fwd with
         timer := s.fwd.timer + Config.millis 8
         guests := s.fwd.guests.map fun g => { g with level := min (g.level + rate g) 65536 } } }) ∧
  ∀ (s : State) (p : Parcel) (a : Nat), s.live = true → s.serving = true → p.cls = .guest → p.port = .guest →
    p.guest = some a → p.origin = s.settings.station → p.payload.length ≤ 1500 →
    let reply (c : Instr) (h : State) : Prop :=
      ((∀ g ∈ h.fwd.guests, g.address ≠ a) → exec c s = .next (h.bump .unknownGuestReplies)) ∧
      (∀ before g after, h.fwd.guests = before ++ g :: after → g.address = a → (∀ x ∈ before ++ after, x.address ≠ a) →
        let today := min (g.bytesToday + p.payload.length) 4294967295
        (g.level < p.payload.length → exec c s = .next (h.bump .budgetDrops)) ∧
        (p.payload.length ≤ g.level → exec c s = .next ((h.withFwd fun w => { w with guests := before ++ { g with
          level := g.level - p.payload.length, bytesToday := today
          capped := g.capped || (s.settings.allowance ≠ 0 && s.settings.allowance < today) } :: after }).emit
            (.guestReply a p.payload))))
    (p.status = .data → reply (.uplinkParcelReceived p) s) ∧
    (∀ f : FrameHead, s.Hears f.src → f.dest = .station s.settings.station → s.part ≠ .listenOnly → p.status = .data →
      reply (.relayReceived f p) (s.heardFrom f.src id))

/-! ### The nightly session (09) -/

/-- An attempt hands over OPEN, with the next tag, the held file serial and the journal's unsent count, on this
station's own uplink, or in a RELAY to its holder where it has none; once OPEN is QUEUED its answer is awaited for 30
s, and an OPEN that the BULK queue has no place for waits first (R124, R156, R172). An attempt with no route fails
NO-ROUTE at once: the session rests for 10 min where another window attempt can follow, and else is DONE with an alert
(R150, R172, R182, R183). The one-second timer opens the window of a new day, ends a rest that has become useless, and
starts a window attempt when the session is IDLE, the mode LATE or CLOSED and fewer than three have been made, in the
second that opens the window too; the rest timer's end starts the next (R168, R169, R183). That the rest is ended
after the window is opened, and before the start is tested, where all fall in one second, is log 17's, and that a
window of an earlier day than the last opens too log 76's: the model's choices. A crossing of the high watermark
starts an attempt of kind EARLY while the part works, the mode is LATE or CLOSED, none is in progress and the last was
60 min ago; in LISTENING it is remembered, and judged at the end of the listening period; a crossing that starts none
is counted (R69, R171). -/
def Obligations.AttemptsAreStarted : Prop :=
  (∀ (s : State) (k : AttemptKind),
     let tag := if s.link.attemptTag < 65535 then s.link.attemptTag + 1 else 1
     let attempts := if k = .window then s.link.attemptCount + 1 else s.link.attemptCount
     let opening : OutMessage := .opening s.settings.station s.link.held s.journal.unsent
     let parcel : Parcel :=
       { cls := .office, origin := s.settings.station, port := .session, tag := tag, guest := none, status := .data
         payload := messageBytes opening }
     let started : Count := match k with
       | .window => .startedWindow
       | .key => .startedKey
       | .early => .startedEarly
     let opened (toSend : List OutMessage) (waiting : Bool) : Link := { s.link with
       state := .opening, kind := some k, attemptTag := tag, batchSerial := 0, window := [], resendUsed := false
       newest := none, cut := some s.journal.newestSerial
       replyTimer := if waiting then none else some (s.now + Config.seconds 30)
       restTimer := none, toSend := toSend, waiting := waiting, acked := 0, outcome := .none, attemptCount := attempts
       lastEarly := if k = .early then some s.now else s.link.lastEarly }
     (s.fwd.up = true → s.fwd.sending ≠ none → s.officeBytes + parcel.payload.length ≤ 65536 →
       s.startAttempt k = { s.bump started with
         fwd := { s.fwd with sessionPath := some .local, office := s.fwd.office ++ [parcel] }
         link := opened [] false }) ∧
     (∀ h, s.fwd.up = false → s.fwd.holder = some h → s.canSend = true →
       let relay : Frame := { dest := some h, body := .relay parcel, purpose := .relayOut, attempts := 0 }
       let fwd : Forwarding := { s.fwd with sessionPath := some (.holder h) }
       (s.trunk.bulk.length < 32 → s.startAttempt k = { s.bump started with
         fwd := fwd, trunk := { s.trunk with bulk := s.trunk.bulk ++ [relay] }, link := opened [] false }) ∧
       (32 ≤ s.trunk.bulk.length → (∀ x ∈ s.trunk.holdBulk, x.sender ≠ .forwarding) →
         s.startAttempt k = { (s.bump started).bump .framesWaited with
           fwd := fwd, trunk := { s.trunk with holdBulk := s.trunk.holdBulk ++ [relay] }, link := opened [opening] true })) ∧
     (s.fwd.up = false → s.fwd.holder = none →
       let t := s.startAttempt k
       let rests : Prop := ∃ day left, s.window = some (day, left) ∧ attempts < 3 ∧ 600 < left
       t.link.attemptTag = tag ∧ t.link.attemptCount = attempts ∧ t.link.lastFailure = some .noRoute ∧
         t.link.toSend = [] ∧ t.link.replyTimer = none ∧ t.fwd.office = s.fwd.office.filter (fun p =>
           !(p.origin == s.settings.station && p.port == .session)) ∧ t.trunk = s.trunk ∧
         t.count started = min (s.count started + 1) 4294967295 ∧
         t.count .attemptsFailed = min (s.count .attemptsFailed + 1) 4294967295 ∧
         (rests → t.link.state = .resting ∧ t.link.restTimer = some (s.now + Config.minutes 10) ∧ t.alerts = s.alerts) ∧
         (¬ rests → t.link.state = .done ∧ t.link.restTimer = none ∧
           ∃ a ∈ t.alerts.list, a.kind = .sessionFailed ∧ a.severity = .warn ∧ a.detail = .failure .noRoute none))) ∧
  (∀ s : State, s.live = true →
     let ticked : State :=
       { s with now := max s.now s.link.timer, link := { s.link with timer := s.link.timer + Config.seconds 1 } }
     let ticks (t : State) : Prop := exec .sessionSecondTimer s = .next t
     let quiet : Prop := s.unit.mode = .late ∨ s.unit.mode = .closed
     (s.working = false → ticks ticked) ∧
     (s.working = true →
       (s.window = none → s.link.state ≠ .resting → ticks ticked) ∧
       (∀ day left, s.window = some (day, left) →
         (s.link.windowDay = some day → s.link.state = .idle → quiet → s.link.attemptCount < 3 →
           ticks (ticked.startAttempt .window)) ∧
         (s.link.windowDay ≠ some day → s.link.state = .done → ¬ quiet →
           ticks { ticked with link := { ticked.link with windowDay := some day, attemptCount := 0, state := .idle } }) ∧
         (s.link.windowDay ≠ some day → (s.link.state = .done ∨ s.link.state = .idle) → quiet →
           ticks ({ ticked with link := { ticked.link with
             windowDay := some day, attemptCount := 0, state := .idle } }.startAttempt .window)) ∧
         (s.link.windowDay = some day → s.link.state = .resting → 600 < left → ¬ quiet → ticks ticked)) ∧
       (s.link.state = .resting → (s.window = none ∨ ∃ day left, s.window = some (day, left) ∧ left ≤ 600) →
         ∃ t, ticks t ∧ t.link.state = .done ∧ t.link.restTimer = none ∧
           ∃ a ∈ t.alerts.list, a.kind = .sessionFailed ∧ a.severity = .warn) ∧
       ∀ due, s.link.restTimer = some due →
         let rested : State := { s with now := max s.now due, link := { s.link with restTimer := none } }
         (s.link.state = .resting → s.window ≠ none → quiet → s.link.attemptCount < 3 →
           exec .restTimerExpiry s = .next (rested.startAttempt .window)) ∧
         ((s.window = none ∨ ¬ quiet ∨ 3 ≤ s.link.attemptCount) → exec .restTimerExpiry s = .next rested))) ∧
  (∀ s : State,
    let starts : Prop := (s.unit.mode = .late ∨ s.unit.mode = .closed) ∧ s.link.state.inProgress = false ∧
      ∀ t, s.link.lastEarly = some t → t + Config.minutes 60 ≤ s.now
    (s.working = true →
      (starts → s.watermarkCrossed = s.startAttempt .early) ∧
      (¬ starts → s.watermarkCrossed = s.bump .startsIgnored)) ∧
    (s.part = .listening → s.watermarkCrossed = { s with link := { s.link with earlyPending := true } })) ∧
  (∀ (l : LaneNo) (bit : Bool) (x : Tender) (n : Nat) (s : State) (b : Basket) (r : TotalResult),
    s.TakesNew l bit .close → (s.lane l).basket = some b → b.result = some r → (∃ y ∈ b.lines, y.void = false) →
    s.journal.counter = .next n → s.journal.records.length < 16384 →
    s.journal.records.length + 1 = s.settings.highWatermark → s.working = true →
    (s.unit.mode = .late ∨ s.unit.mode = .closed) → s.link.state.inProgress = false → s.link.lastEarly = none →
      ∃ t, exec (.close l bit x) s = .next t ∧ t.link.lastEarly = some s.now ∧
        t.link.attemptTag = (if s.link.attemptTag < 65535 then s.link.attemptTag + 1 else 1) ∧
        t.count .startedEarly = min (s.count .startedEarly + 1) 4294967295) ∧
  ∀ (s : State) (due : Nat), s.live = true → s.listenTimer = some due → s.part = .listening →
    s.link.earlyPending = true → (s.unit.mode = .late ∨ s.unit.mode = .closed) → s.link.state.inProgress = false →
    s.link.lastEarly = none →
      ∃ t, exec .listeningTimerExpiry s = .next t ∧ t.part = .running ∧ t.link.earlyPending = false ∧
        t.link.lastEarly = some (max s.now due) ∧
        t.link.attemptTag = (if s.link.attemptTag < 65535 then s.link.attemptTag + 1 else 1) ∧
        t.count .startedEarly = min (s.count .startedEarly + 1) 4294967295

/-- An attempt that fails leaves the journal's records unsent and its parcels withdrawn, and the session becomes
RESTING when another window attempt can follow and else DONE with a SESSION-FAILED alert of the reason; a REFUSE ends
it DONE (R73, R149, R174, R176, R182, R183). -/
def Obligations.FailedAttemptsAreUndone : Prop :=
  ∀ s : State, s.live = true →
    let ends (c : Instr) (r : FailReason) : Prop := ∃ t, exec c s = .next t ∧ s.Stopped t ∧
      (s.CanRest → t.link.state = .resting ∧ t.link.restTimer = some (t.now + Config.minutes 10)) ∧
      (¬ s.CanRest → t.link.state = .done ∧ t.link.restTimer = none ∧
        ∃ a ∈ t.alerts.list, a.kind = .sessionFailed ∧ a.severity = .warn ∧ a.detail = .failure r none)
    let tag := s.link.attemptTag
    (∀ due, s.working = true → s.link.replyTimer = some due →
      ((s.link.state = .opening ∨ s.link.state = .uploading ∨ s.link.state = .downloading) →
        ends .sessionReplyTimeout .noReply) ∧
      (s.link.state.inProgress = false → exec .sessionReplyTimeout s = .next
        { s with now := max s.now due, link := { s.link with replyTimer := none } })) ∧
    (s.serving = true → s.link.state = .opening →
      ends (.defer tag) .deferred ∧
      ∀ code, ∃ t, exec (.refuse tag code) s = .next t ∧ s.Stopped t ∧ t.link.state = .done ∧
        ∃ a ∈ t.alerts.list, a.kind = .sessionFailed ∧ a.detail = .failure .refused (some code)) ∧
    (s.serving = true → s.link.state = .uploading → ∀ n,
      (s.link.window = [] ∨ ∃ b rest, s.link.window = b :: rest ∧ (b.serial ≠ n ∨ b.lastPart = false)) →
        ends (.batchTaken tag n) .outOfOrder)

/-- A message with another tag, or with no attempt in progress, is stale; one that the session does not await in its
state is unexpected: a FILE-START but while the session awaits one, a FILE-PART or FILE-END before FILE-START, after
FILE-END or of another file, and a NO-RESEND but after FILE-BAD and for the file wanted; each is counted and changes
nothing else (R173, R178, R179, R180). That a message that comes in LISTENING, when no attempt is in progress, is
counted as stale is log 32's, and that a FILE-PART of no record or of more than 32 is unexpected log 42's: the model's
choices. -/
def Obligations.OnlyAwaitedMessagesAreTaken : Prop :=
  ∀ (c : Instr) (tag : Nat) (m : InMessage) (s : State), officeMessage c = some (tag, m) → s.live = true →
    s.serving = true →
      let collects : Prop :=
        s.link.state = .downloading ∧ s.staging.owner = .session ∧ s.staging.phase = .collecting
      ((s.link.state.inProgress = false ∨ tag ≠ s.link.attemptTag) → exec c s = .next (s.bump .staleMessages)) ∧
      (s.link.state.inProgress = true → tag = s.link.attemptTag →
        (match m with
         | .accept _ _ => s.link.state ≠ .opening
         | .defer => s.link.state ≠ .opening
         | .refuse _ => s.link.state ≠ .opening
         | .batchTaken _ => s.link.state ≠ .uploading
         | .fileStart _ _ _ => ¬ (collects ∧ s.staging.count = none)
         | .filePart serial _ rs => ¬ (collects ∧ s.staging.count ≠ none ∧ s.link.newest = some serial) ∨ rs = [] ∨
             32 < rs.length
         | .fileEnd serial => ¬ (collects ∧ s.staging.count ≠ none ∧ s.link.newest = some serial)
         | .noResend serial => ¬ (collects ∧ s.staging.count = none ∧ s.link.newest = some serial) ∨
             s.link.resendUsed = false
         | .other => True) → exec c s = .next (s.bump .unexpectedMessages))

/-- ACCEPT in OPENING gives the store clock its time where this station may take it, and the session goes to UPLOADING
and begins the upload with its first request for a batch; with no unsent record up to the cut serial it makes the
download decision at once (R71, R174, R175, R177, R181, R191). `State.Uploads` and `State.Decides` say what each leads
to, from the state `u` that the time leaves. A time taken settles the schedule and the mode (R193, R194) and, where
the mode stays, changes of the forwarding unit the guests alone, at a rollover (R161, R192). In DISTRESS no attempt
goes on (R182), and the upload is said of every other mode. -/
def Obligations.AcceptBeginsTheUpload : Prop :=
  ∀ (s : State) (time : StoreTime) (n : Nat), s.live = true → s.serving = true → s.link.state = .opening →
    let takes : Prop := (s.labels.reference = none ∨ s.labels.reference = some s.settings.station) ∧
      time.day ≤ 65535 ∧ time.sec ≤ 86399
    let uploading : Link := { s.link with
      state := .uploading, newest := some n, replyTimer := some (s.now + Config.seconds 30) }
    let u : State := ({ s with link := uploading }).timeFromAccept time
    (∃ t, exec (.accept s.link.attemptTag time n) s = .next t ∧ t.unit = u.unit ∧
      (u.unit.mode ≠ .distress → s.journal.Ok → s.link.toSend = [] → s.link.waiting = false →
        u.Uploads t ∧ (u.uncut = [] → u.link.window = [] → u.Decides n t))) ∧
    (u.unit.mode ≠ .distress → u.link = uploading ∧ keeps [.link, .unit, .fwd, .counts] s u) ∧
    (¬ takes → u = { s.bump .settingsIgnored with link := uploading }) ∧
    (takes → u.unit.clock = some time ∧ u.unit.clockTimer = some (s.now + Config.seconds 1) ∧
      u.unit.schedule = some (scheduleMode s.settings time.sec) ∧ u.unit.mode = decidedMode u.unit ∧
      u.count .setByAccept = min (s.count .setByAccept + 1) 4294967295 ∧
      (u.unit.mode = s.unit.mode → { u.fwd with guests := s.fwd.guests } = s.fwd))

/-- A BATCH-TAKEN of the oldest batch, whose last part has been handed over, removes that batch's records from the
oldest end of the journal and the batch from the window, counts it as acknowledged, and restarts the reply timer (R72,
R173, R176). The session waits while a part is being handed over; else it asks for the next batch, and with no record
left and no batch outstanding makes the download decision (R71, R175, R177). `State.Uploads` and `State.Decides` say
what each leads to. -/
def Obligations.BatchTakenRemovesItsRecords : Prop :=
  ∀ (s : State) (b : WindowBatch) (rest : List WindowBatch) (m : BatchMark) (ms : List BatchMark), s.live = true →
    s.serving = true → s.link.state = .uploading → s.link.window = b :: rest → b.lastPart = true →
    s.journal.outstanding = m :: ms → m.first = b.first → m.last = b.last →
      let c : Instr := .batchTaken s.link.attemptTag b.serial
      let kept := s.journal.records.dropWhile fun r => r.serial ≤ b.last
      let taken : State :=
        { (s.bumpBy .recordsRemoved (s.journal.records.length - kept.length)).bump .batchesAcknowledged with
          journal := { s.journal with
            records := kept, outstanding := ms
            high := s.journal.high && decide (s.settings.highWatermark ≤ kept.length) }
          link := { s.link with
            window := rest, acked := s.link.acked + 1
            replyTimer := some (s.now + Config.seconds 30) } }
      (∃ t, exec c s = .next t ∧ t.link.acked = s.link.acked + 1 ∧
        t.count .batchesAcknowledged = min (s.count .batchesAcknowledged + 1) 4294967295 ∧
        t.journal.records.map (·.serial) = kept.map (·.serial) ∧ t.journal.counter = s.journal.counter) ∧
      (s.link.waiting = true → exec c s = .next taken) ∧
      (s.journal.Ok → s.link.toSend = [] → s.link.waiting = false → ∃ t, exec c s = .next t ∧ taken.Uploads t ∧
        (taken.uncut = [] → rest = [] → taken.Decides (s.link.newest.getD 0) t))

/-- The session's file: FILE-START is taken for the file awaited and not too large, FILE-PART stores its records by
index and leaves out and counts as foreign each whose own index is not its place's or lies at or above the count, or
whose file serial is not the list's, FILE-END releases a file that passes its check and asks once more for one that
does not, and NO-RESEND gives it up (R178, R179, R180). A released session file is shared where the profile says so: a
FILE-ANNOUNCE, its records 32 to a PRICE-CHANGE, and a FILE-CLOSE, each for ALL and handed over after the one before
has been QUEUED; a frame that waits holds the share up, and one that is not taken is counted and the share goes on
(R188). A message the session forms while another waits stands behind it and behind all formed since, FILE-BAD among them,
and each is handed over after the one before has been QUEUED; where they find room they leave at once, in order (R172,
R180, R181). That FILE-REFUSED carries the serial of the FILE-START is log 32's, that a QUEUED starts the reply timer though
a second FILE-BAD stands behind it log 75's, and that the second bad file is discarded before its FILE-BAD is QUEUED log
83's: the model's choices. -/
def Obligations.SessionFilesAreReceived : Prop :=
  (∀ (s : State) (serial : Nat), s.live = true → s.serving = true → s.link.state = .downloading →
     s.staging.owner = .session → s.staging.phase = .collecting →
     let tag := s.link.attemptTag
     let g := s.staging
     let ends (c : Instr) (ms : List OutMessage) (o : FileOutcome) : Prop :=
       ∃ t, exec c s = .next t ∧ t.staging = Staging.empty ∧ s.Closes ms o t
     (g.count = none → ∀ count check,
       (s.link.newest = some serial → count ≤ 8192 → exec (.fileStart tag serial count check) s = .next { s with
         staging := { g with count := some count, check := some check, records := [] }
         link := { s.link with replyTimer := some (s.now + Config.seconds 30) } }) ∧
       ((s.link.newest ≠ some serial ∨ 8192 < count) →
         ends (.fileStart tag serial count check) [.fileRefused serial (s.link.newest == some serial)] .refused)) ∧
     (g.count = none → s.link.resendUsed = true → s.link.newest = some serial → ends (.noResend tag serial) [] .bad) ∧
     (∀ count, g.count = some count → s.link.newest = some serial →
       (∀ first rs, 1 ≤ rs.length → rs.length ≤ 32 →
         let fits (x : ChangeRecord × Nat) : Bool :=
           x.1.index = x.2 ∧ x.1.index < count ∧ x.1.fileSerial = g.serial
         ∃ records : AMap ChangeRecord, exec (.filePart tag serial first rs) s = .next
             { s.bumpBy .foreignRecords ((rs.zipIdx first).filter fun x => !fits x).length with
               staging := { g with records := records }
               link := { s.link with replyTimer := some (s.now + Config.seconds 30) } } ∧
           (∀ i r, rs[i]? = some r → fits (r, first + i) = true → AMap.get records r.index = some r) ∧
           ∀ j, (∀ i r, rs[i]? = some r → fits (r, first + i) = true → r.index ≠ j) →
             AMap.get records j = AMap.get g.records j) ∧
       (g.passes = true → 0 < count → ∃ t, exec (.fileEnd tag serial) s = .next t ∧
         t.book = { s.book with cursor := some 0 } ∧ t.staging.phase = .releasing ∧ t.staging.records = g.records ∧
         s.Closes [.fileTaken serial] .taken t) ∧
       (g.passes = false → s.link.resendUsed = false → s.link.waiting = false → s.fwd.up = true →
         ∃ t, exec (.fileEnd tag serial) s = .next t ∧
           t.staging = { g with count := none, check := none, records := [] } ∧ t.link.resendUsed = true ∧
           t.link.state = .downloading ∧
           ∃ a ∈ t.alerts.list, a.kind = .fileBad ∧ a.severity = .warn ∧ a.subject = .file serial) ∧
       (g.passes = false → s.link.resendUsed = true →
         ∃ t, exec (.fileEnd tag serial) s = .next t ∧ t.staging = Staging.empty) ∧
       (g.passes = false →
         let bad : OutMessage := .fileBad serial g.records.length s.link.resendUsed
         let last : OutMessage := .sessionEnd s.link.acked .bad
         let fails (link : Link) (fwd : Forwarding) : Prop := ∃ t, exec (.fileEnd tag serial) s = .next t ∧
           t.link = link ∧ t.fwd = fwd ∧
           t.staging = (if s.link.resendUsed then Staging.empty else { g with count := none, check := none, records := [] }) ∧
           ∃ a ∈ t.alerts.list, a.kind = .fileBad ∧ a.severity = .warn ∧ a.subject = .file serial
         (s.link.waiting = true → fails { s.link with
           resendUsed := true, toSend := s.link.toSend ++ [bad]
           replyTimer := if s.link.resendUsed then none else some (s.now + Config.seconds 30) } s.fwd) ∧
         (s.link.waiting = false → s.link.resendUsed = false → s.Carries [bad] → fails { s.link with
           resendUsed := true, toSend := [], replyTimer := some (s.now + Config.seconds 30) } (s.carried [bad])) ∧
         (s.link.waiting = false → s.link.resendUsed = true → s.Carries [bad, last] →
           fails (s.link.ended .bad) (s.carried [bad, last]))))) ∧
  (∀ (s : State) (m next : OutMessage) (rest : List OutMessage), s.link.state = .downloading → s.link.waiting = true →
     s.link.toSend = m :: next :: rest → (∃ k, m = .fileWanted k ∨ ∃ n, m = .fileBad k n false) → s.fwd.up = true →
     65536 < s.officeBytes + (messageBytes next).length → s.toldQueued = { s with
       fwd := { s.fwd with sessionPath := some .local, heldParcel := some ⟨s.parcelOf next, 0⟩ }
       link := { s.link with toSend := next :: rest, replyTimer := some (s.now + Config.seconds 30) } }) ∧
  ∀ s : State,
    let g := s.staging
    let count := g.count.getD 0
    let check := g.check.getD 0
    let parts := (count + 31) / 32
    let body (p : Nat) : FrameBody :=
      if p = 0 then .fileAnnounce g.serial count check
      else if p ≤ parts then
        .priceChange g.serial ((p - 1) * 32) (((g.records.map (·.2)).drop ((p - 1) * 32)).take 32)
      else .fileClose g.serial count check
    let frame (p : Nat) : Frame := { dest := none, body := body p, purpose := .share, attempts := 0 }
    let ended (t : State) : State := (t.withStaging fun g => { g with share := none }).freeStaging
    (∀ p, g.share = some p → p ≤ parts + 2 → s.canSend = true → s.trunk.notice.length + (parts + 2 - p) ≤ 64 →
      s.shareOn = ended (s.withTrunk fun t =>
        { t with notice := t.notice ++ (List.range (parts + 2 - p)).map fun i => frame (p + i) })) ∧
    (∀ p, g.share = some p → p < parts + 2 → s.canSend = true → 64 ≤ s.trunk.notice.length →
      (∀ x ∈ s.trunk.holdNotice, x.purpose ≠ .share ∧ ∀ b, x.purpose ≠ .reply b) →
        s.shareOn = (s.withTrunk fun t => { t with holdNotice := t.holdNotice ++ [frame p] }).bump .framesWaited) ∧
    (∀ p f, g.share = some p → f.purpose = .share →
      s.notifyQueued f = (s.withStaging fun g => { g with share := some (p + 1) }).shareOn) ∧
    (∀ p, g.share = some p → p < parts + 2 → s.canSend = false →
      ∃ t, s.shareOn = t ∧ t.trunk = s.trunk ∧
        t.count .shareFramesLost = min (s.count .shareFramesLost + (parts + 2 - p)) 4294967295 ∧
        (g.released = false → t.staging = { g with share := none })) ∧
    (∀ serial, s.live = true → s.serving = true → s.link.state = .downloading → g.owner = .session →
      g.phase = .collecting → s.link.newest = some serial → g.passes = true → 0 < count → s.fwd.up = true →
      s.canSend = true →
        let c : Instr := .fileEnd s.link.attemptTag serial
        (s.settings.share = true → s.trunk.notice.length + parts + 2 ≤ 64 → ∃ t, exec c s = .next t ∧
          t.trunk = { s.trunk with notice := s.trunk.notice ++ (List.range (parts + 2)).map frame } ∧
          t.staging = { g with phase := .releasing, share := none, released := false }) ∧
        (s.settings.share = false → ∃ t, exec c s = .next t ∧ t.trunk = s.trunk ∧
          t.staging = { g with phase := .releasing, share := none, released := false }))

/-- A peer's file is collected from its announcing station alone and released when it passes its check; a frame that
is not the collected file's is ignored, and a collection that fails or goes quiet is discarded (R185, R186, R187). A
frame's records are stored by index, and each whose own index is not its place's or lies at or above the count, or
whose file serial is not the list's, is left out and counted as foreign (R179, R186). That the trunk files taken rise
as the check passes, and that a second FILE-ANNOUNCE of the collected file is not counted as ignored, is log 32's, and
that one with the list's serial is of the same file whatever its count and check log 81's: the model's choices. A
trunk collection from which no frame has been taken for 60 s is discarded and counted, and the announce memory is
cleared when it holds that file's serial; no other staging list is touched (R186). -/
def Obligations.TrunkFilesAreCollected : Prop :=
  (∀ (s : State) (f : FrameHead) (serial count check : Nat), s.Hears f.src → f.dest = .all →
     let heard := s.heardFrom f.src id
     let noted : State := heard.withLink fun l => { l with announce := some (serial, s.now) }
     let g := heard.staging
     let collects : Prop := g.owner = .trunk ∧ g.phase = .collecting ∧ g.source = some f.src ∧ g.serial = serial
     let cleared (l : Link) : Link :=
       { l with announce := match l.announce with
           | some (n, t) => if n = g.serial then none else some (n, t)
           | none => none }
     (g.owner = .none → heard.link.held < serial → count ≤ 8192 →
       exec (.fileAnnounceReceived f serial count check) s = .next { noted with staging := { Staging.empty with
         owner := .trunk, serial := serial, source := some f.src, count := some count, check := some check
         lastFrame := s.now } }) ∧
     (collects → exec (.fileAnnounceReceived f serial count check) s = .next { noted with staging :=
       { g with lastFrame := s.now } }) ∧
     (¬ collects → (g.owner ≠ .none ∨ serial ≤ heard.link.held ∨ 8192 < count) →
       exec (.fileAnnounceReceived f serial count check) s = .next (noted.bump .trunkFramesIgnored)) ∧
     (∀ first rs, serial ≠ 0 → 1 ≤ rs.length → rs.length ≤ 32 →
       (∀ r ∈ rs, r.changeCode = 2 ∨ (r.changeCode = 1 ∧ 1 ≤ r.kindCode ∧ r.kindCode ≤ 3)) →
         (¬ collects →
           exec (.filePriceChangeReceived f serial first rs) s = .next (heard.bump .trunkFramesIgnored)) ∧
         (collects →
           let fits (x : ChangeRecord × Nat) : Bool :=
             x.1.index = x.2 ∧ x.1.index < g.count.getD 0 ∧ x.1.fileSerial = serial
           ∃ records : AMap ChangeRecord, exec (.filePriceChangeReceived f serial first rs) s = .next
               { heard.bumpBy .foreignRecords ((rs.zipIdx first).filter fun x => !fits x).length with
                 staging := { g with records := records, lastFrame := s.now } } ∧
             (∀ i r, rs[i]? = some r → fits (r, first + i) = true → AMap.get records r.index = some r) ∧
             ∀ j, (∀ i r, rs[i]? = some r → fits (r, first + i) = true → r.index ≠ j) →
               AMap.get records j = AMap.get g.records j)) ∧
     (¬ (collects ∧ g.count = some count ∧ g.check = some check) →
       exec (.fileCloseReceived f serial count check) s = .next (heard.bump .trunkFramesIgnored)) ∧
     (collects → g.count = some count → g.check = some check →
       (g.passes = true → 0 < count → exec (.fileCloseReceived f serial count check) s = .next
         { heard.bump .trunkFilesTaken with
           staging := { g with phase := .releasing, share := none, released := false }
           book := { s.book with cursor := some 0 } }) ∧
       (g.passes = false → exec (.fileCloseReceived f serial count check) s = .next
         { heard.bump .trunkFilesFailed with staging := Staging.empty, link := cleared heard.link }))) ∧
  ∀ s : State, s.live = true → s.serving = true →
    ((s.staging.owner ≠ .trunk ∨ s.staging.phase ≠ .collecting) → exec .trunkCollectionTimeout s = .next s) ∧
    (s.staging.owner = .trunk → s.staging.phase = .collecting → exec .trunkCollectionTimeout s = .next
      { s.bump .trunkFilesFailed with
        now := max s.now (s.staging.lastFrame + Config.seconds 60)
        staging := Staging.empty
        link := { s.link with announce := match s.link.announce with
          | some (n, t) => if n = s.staging.serial then none else some (n, t)
          | none => none } })

/-! ### The mode and event unit (10) -/

/-- A clock timer expiry advances the clock by a second, across midnight into the next day and no further than the
last second of day 65,535; the schedule mode, an override that has met its boundary, the mode and the day's rollover
follow (R161, R190, R192, R193, R194, R195). The mode is DISTRESS while the mains-fail qualification is QUALIFIED or
FALLING, else CLOSED while a close key is asserted, else the override's, else the schedule mode, and LATE with the
clock UNSET (R193). The schedule mode is named by the time of day most recently reached, looking back around the day,
where OPEN goes before LATE and LATE before CLOSED among equal times (R194). -/
def Obligations.ClockAdvancesBySeconds : Prop :=
  (∀ (s : State) (t : StoreTime) (due : Nat), s.live = true → s.unit.clock = some t → s.unit.clockTimer = some due →
    t.day ≤ 65535 → t.sec ≤ 86399 →
      let later : StoreTime :=
        if t.sec < 86399 then ⟨t.day, t.sec + 1⟩ else if t.day < 65535 then ⟨t.day + 1, 0⟩ else t
      ∃ u, exec .clockTimerExpiry s = .next u ∧ u.now = max s.now due ∧ u.unit.clock = some later ∧
        u.unit.clockTimer = some (due + Config.seconds 1) ∧
        u.unit.schedule = some (scheduleMode s.settings later.sec) ∧ u.unit.mode = decidedMode u.unit ∧
        (∀ m w, s.unit.override = some (m, w) →
          u.unit.override = if w = u.unit.schedule then some (m, w) else none) ∧
        u.unit.highestDay = some (max later.day (s.unit.highestDay.getD 0)) ∧
        (∀ h, s.unit.highestDay = some h → h < later.day → ∀ g ∈ u.fwd.guests, g.bytesToday = 0 ∧ g.capped = false)) ∧
  (∀ u : ModeUnit,
    let failing : Prop := u.mains = .qualified ∨ ∃ due, u.mains = .falling due
    let keyed : Prop := ∃ i, (u.lines.get i).use = .closeKey ∧ (u.lines.get i).asserted = true
    (failing → decidedMode u = .distress) ∧
    (¬ failing → keyed → decidedMode u = .closed) ∧
    (¬ failing → ¬ keyed →
      (∀ m w, u.override = some (m, w) → decidedMode u = m) ∧
      (∀ m, u.override = none → u.schedule = some m → decidedMode u = m) ∧
      (u.override = none → u.schedule = none → decidedMode u = .late))) ∧
  ∀ (c : Settings) (sec : Nat), sec ≤ 86399 → c.openTime ≤ 1439 → c.lateTime ≤ 1439 → c.closeTime ≤ 1439 →
    let ago (time : Nat) : Nat := (sec + 86400 - time * 60) % 86400
    (ago c.openTime ≤ ago c.lateTime → ago c.openTime ≤ ago c.closeTime → scheduleMode c sec = .open) ∧
    (ago c.lateTime < ago c.openTime → ago c.lateTime ≤ ago c.closeTime → scheduleMode c sec = .late) ∧
    (ago c.closeTime < ago c.openTime → ago c.closeTime < ago c.lateTime → scheduleMode c sec = .closed)

/-- A change of an event line's level sets its state and counts an asserting edge, moves the mains-fail qualification
as its function changes, and is followed by the mode decision; a SESSION-KEY edge starts an attempt (R170, R193, R196,
R198, R199). Two seconds of an unbroken mains failure bring DISTRESS, which ends the session attempt, empties the
guest list and the GUEST queue and records an alert; 30 s without it clear the qualification (R149, R164, R182, R196,
R197). -/
def Obligations.EventLinesAndDistress : Prop :=
  (∀ (s : State) (n : LineNo) (high : Bool), s.live = true →
     let old := s.unit.lines.get n
     let asserts : Bool := high == old.activeHigh
     let line : EventLine :=
       { old with
         asserted := asserts
         edges := if asserts = true ∧ old.asserted = false then min (old.edges + 1) 4294967295 else old.edges }
     let levels := s.levels.set n.val high n.isLt
     let lines := s.unit.lines.set n.val line n.isLt
     (s.serving = false → exec (.eventLineChange n high) s = .next { s with levels := levels }) ∧
     (s.serving = true → ∃ t, exec (.eventLineChange n high) s = .next t ∧ t.levels = levels ∧ t.unit.lines = lines ∧
       t.unit.mode = decidedMode t.unit ∧
       let before := s.unit.asserted .mainsFail
       let after := t.unit.asserted .mainsFail
       t.unit.mains = if before = after then s.unit.mains else match s.unit.mains, after with
         | .clear, true => .rising (s.now + Config.seconds 2)
         | .rising _, false => .clear
         | .qualified, false => .falling (s.now + Config.seconds 30)
         | .falling _, true => .qualified
         | m, _ => m) ∧
     (s.working = true → s.unit.mode = decidedMode s.unit → s.unit.mode ≠ .distress → s.link.state.inProgress = false →
       old.use = .sessionKey → asserts = true → old.asserted = false →
         exec (.eventLineChange n high) s = .next
           ({ s with levels := levels, unit := { s.unit with lines := lines } }.startAttempt .key))) ∧
  ∀ s : State, s.live = true →
    (∀ due, s.unit.mains = .rising due → ∃ t, exec .mainsRiseTimeout s = .next t ∧ t.now = max s.now due ∧
      t.unit.mains = .qualified ∧ t.unit.mode = .distress ∧
      (s.unit.mode ≠ .distress → s.serving = true →
        t.fwd.guests = [] ∧ t.fwd.guest = [] ∧ t.link.state.inProgress = false ∧
        ∃ a ∈ t.alerts.list, a.kind = .distressEntered ∧ a.severity = .warn)) ∧
    (∀ due, s.unit.mains = .falling due → ∃ t, exec .mainsFallTimeout s = .next t ∧ t.now = max s.now due ∧
      t.unit.mains = .clear ∧ t.unit.mode = decidedMode t.unit) ∧
    ((∀ due, s.unit.mains ≠ .rising due) → exec .mainsRiseTimeout s = .next s) ∧
    ((∀ due, s.unit.mains ≠ .falling due) → exec .mainsFallTimeout s = .next s)

/-! ### Start-up and office commands (11) -/

/-- What each reset leaves: every block in its reset state, with what attached memory keeps, and the RESTARTED alert
with the cause once the part enters STARTING, a RESTART's reset among them (R25, R50, R74, R76, R102, R120, R142, R166,
R189, R204, R208, R211). Every count is 0, those of the lanes and lines in their own records too, but for the alerts
recorded, which are 1 once that alert is (R24, R49, R75, R101, R120, R141, R165, R189, R200, R204, R210; log 22). Of the
label radio controller no HEARD entry, reference, mark length, slot end or adoption is left, the cycle counter is 0 and
the aligned flag clear (R102, R120). Every OWNED label stays OWNED: LOST stays LOST, UPDATE-DUE stays UPDATE-DUE, and a label in any other state becomes SHOWING
when it is current and UPDATE-DUE when it is not, a move being given up; its attempts, power step, last sent and last
received level are cleared, and the update list holds the UPDATE-DUE labels with one due time in order of address
(R102). Its smoothed level, last heard cycle and owner's level are cleared (R120). The model's choices in it are what
POWER_LOSS leaves at once, every part that is not kept at its reset value and the alert list empty (log 21), POWER_ON
of a part with power or with the line held (log 39), the settings, the clamped-field count of 0 and the owner stations
as they were before a profile (log 4), the place of the OWNED labels in the order of hearing (log 6), the first moments
of the timers (log 7), the lane and event line records before a profile (log 8), the empty alert list and the count of 0
alerts recorded while the line is held (log 22), and the high flag, the cycle length and the slot before a profile (logs
52 and 53). -/
def Obligations.ResetsKeepWhatIsAttached : Prop :=
  ∀ s : State,
    let kept (t : State) : Prop :=
      keeps ([.powered, .resetHeld] ++ resetFields) s t ∧
      t.part = .starting ∧ t.listenTimer = none ∧ t.settings = Settings.none ∧ t.clamped = 0 ∧
      t.trunk = Trunk.initial ∧ t.commands = CommandMemory.initial ∧
      t.book = Book.initial s.now (s.book.entries.map fun x => (x.1, { x.2 with phase := match x.2.phase with
        | .changing c => .changing { c with age := 0 }
        | p => p })) ∧
      (∀ l, t.lane l = Lane.initial (s.lane l).lastClosed) ∧
      t.journal = { records := s.journal.records.map fun r => { r with sent := false }, counter := s.journal.counter
                    outstanding := [], high := false } ∧
      t.labels = { owned := t.labels.owned, heard := [], stamp := 0, cycle := 0, slot := 0, length := 16, slotEnd := none
                   markLength := none, aligned := false, reference := none, adoptions := [] } ∧
      t.labels.owned.map (·.1) = s.labels.owned.map (·.1) ∧ (∀ n, s.owned n = none → t.owned n = none) ∧
      (∀ n o, s.owned n = some o → ∃ p, t.owned n = some p ∧ p.bound = o.bound ∧ p.display = o.display ∧
        p.target = o.target ∧ p.battery = o.battery ∧ p.attempts = 0 ∧ p.power = 0 ∧ p.lastSent = none ∧
        p.lastReceived = none ∧ p.hearing.smoothed = none ∧ p.hearing.lastCycle = 0 ∧ p.hearing.ownerLevel = none ∧
        p.hearing.owner = o.hearing.owner ∧ p.hearing.stamp = 0 ∧
        (o.state = .lost → p.state = .lost) ∧
        (∀ due, o.state = .updateDue due → p.state = .updateDue s.now) ∧
        ((o.state = .showing ∨ (∃ due, o.state = .sent due) ∨ ∃ m, o.state = .moving m) →
          p.state = if o.current then .showing else .updateDue s.now)) ∧
      (∀ x ∈ t.updates, x.1 = s.now) ∧
      (AMap.wf s.labels.owned = true → (t.updates.map (·.2)).Pairwise (· < ·)) ∧
      t.fwd = Forwarding.initial s.now ∧ t.link = Link.initial s.now s.link.attemptTag s.link.held ∧
      t.staging = Staging.empty ∧ t.unit = ModeUnit.initial
    let restarted (t : State) (c : Cause) : Prop :=
      t.powered = true ∧ t.resetHeld = false ∧ t.cause = c ∧ t.alerts = AlertList.initial c ∧
      ∀ x, t.count x = if x = .alertsRecorded then 1 else 0
    let unalerted (t : State) : Prop := t.alerts = { list := [], next := 1 } ∧ ∀ x, t.count x = 0
    (s.resetHeld = false → ∃ t, exec .powerOn s = .next t ∧ kept t ∧ restarted t .powerOn) ∧
    (s.resetHeld = true → ∃ t, exec .powerOn s = .next t ∧ kept t ∧ t.powered = true ∧ t.resetHeld = true ∧
      unalerted t) ∧
    (s.powered = true → s.resetHeld = true → ∃ t, exec .resetLineReleased s = .next t ∧ kept t ∧ restarted t .resetLine) ∧
    (s.powered = false → exec .resetLineReleased s = .next { s with resetHeld := false }) ∧
    (s.resetHeld = false → exec .resetLineReleased s = .next s) ∧
    (s.powered = true → ∃ t, exec .resetLineAsserted s = .next t ∧ kept t ∧ t.powered = true ∧ t.resetHeld = true ∧
      unalerted t) ∧
    (s.powered = false → exec .resetLineAsserted s = .next { s with resetHeld := true }) ∧
    (s.live = true → ∃ t, s.enterStarting .restart = t ∧ kept t ∧ restarted t .restart) ∧
    ∃ t, exec .powerLoss s = .next t ∧ kept t ∧ t.powered = false ∧ unalerted t

/-- A part without power or held in reset takes no command that is not a reset, but for the levels of its inputs; and
in HALTED it neither receives nor sends, keeps what attached memory holds, each lane's last closed basket among it,
and puts out lane replies alone (R26, R50, R208). -/
def Obligations.HeldAndHaltedPartsServeNothing : Prop :=
  ∀ (c : Instr) (s : State), resets c = false →
    (s.live = false → ∃ t, exec c s = .next t ∧ keeps [.carrier, .levels] s t) ∧
    (s.live = true → s.part = .halted → s.book.cursor = none → s.unit.clock = none → s.unit.mains = .clear →
      ∃ t, exec c s = .next t ∧
        keeps [.now, .carrier, .levels, .listenTimer, .counts, .lanes, .fwd, .book, .link, .out] s t ∧
        t.book.entries = s.book.entries ∧ t.link.attemptTag = s.link.attemptTag ∧ t.link.held = s.link.held ∧
        (∀ l, (t.lane l).lastClosed = (s.lane l).lastClosed) ∧ ∃ os, t.out = s.out ++ os ∧ ∀ o ∈ os, ∃ l b r, o = .laneReply l b r)

/-- PROFILE_LOAD in STARTING: without an answer, or with an image that fails its tests, the part goes to HALTED; else
it takes the profile's settings, every block prepares, and the part goes to LISTENING with its timers started (R206,
R207, R208). The lanes become DOWN or DISABLED (R50), the owner station of every OWNED entry this station (R120), and
the journal's high flag follows the record count, a flag set bringing a JOURNAL-HIGH alert and an early notice (R76,
R171). The uplink state is set from the carrier line (R166). Each event line takes its use and polarity from the
settings and its state from its level, with no edge, an asserted mains-fail function starts the rise, and the mode is
decided (R193, R196, R198). Cycle 0 begins with slot 0, with the length of the trading mode where no mark has been
taken, and the reference and the holder are judged from the peer table (R87, R103, R150). That the alert's subject is
`self` is log 9's. The image is tested for its 52 bytes, its mark and its check, and each setting is read
from its bytes, takes its default where its bit of the given mask is clear, and is brought into its range; the fields
so changed are counted (R205, R206, R213). That the first beacon is due at once, at the entry to LISTENING, is log
27's reading of R134, and that a flag or a polarity byte above 1 is not counted as clamped log 38's: the model's
choices. The listening timer takes a part in LISTENING to RUNNING, with its reference judged again, and changes
nothing in another part state (R103, R207). -/
def Obligations.ProfileDecidesTheStart : Prop :=
  ((∀ s : State, s.live = true → s.part = .starting →
     exec (.profileLoad none) s = .next { s with part := .halted } ∧
     ∀ image, 
       (imageOk image = false → exec (.profileLoad (some image)) s = .next { s with part := .halted, image := some image }) ∧
       (imageOk image = true → ∃ t, exec (.profileLoad (some image)) s = .next t ∧
         t.part = .listening ∧ t.listenTimer = some (s.now + Config.seconds 3) ∧ t.image = some image ∧
         t.settings = (readProfile image).1 ∧ t.clamped = (readProfile image).2 ∧
         t.trunk.beaconTimer = some s.now ∧ t.labels.cycle = 0 ∧ t.labels.slot = 0 ∧
         (∀ l, (t.lane l).state = if l.val < t.settings.laneCount then .down else .disabled) ∧
         (t.journal.high = true ↔ t.settings.highWatermark ≤ s.journal.records.length) ∧
         (t.settings.highWatermark ≤ s.journal.records.length → t.link.earlyPending = true ∧
           ∃ a ∈ t.alerts.list, a.kind = .journalHigh ∧ a.severity = .warn ∧ a.subject = .self ∧
             a.detail = .count s.journal.records.length) ∧
         (s.journal.records.length < t.settings.highWatermark → t.link.earlyPending = s.link.earlyPending) ∧
         (∀ n, s.owned n = none → t.owned n = none) ∧
         (∀ n o, s.owned n = some o →
           t.owned n = some { o with hearing := { o.hearing with owner := t.settings.station } }) ∧
         t.labels.slotEnd = some (s.now + t.labels.length * 1000000 / 128) ∧
         (s.labels.markLength = none → t.labels.length = match t.unit.mode with
           | .open => 16
           | .late => 16
           | .closed => 64
           | .distress => 256) ∧
         t.labels.reference = t.judgedReference ∧
         t.fwd.holder = (t.withFwd fun w => { w with holder := s.fwd.holder }).judgedHolder ∧
         t.fwd.up = (s.carrier && t.settings.uplinkPresent) ∧ t.unit.mode = decidedMode t.unit ∧
         (∀ i, t.unit.lines.get i = {
           use := (t.settings.lines.get i).1, activeHigh := (t.settings.lines.get i).2
           asserted := s.levels.get i == (t.settings.lines.get i).2, edges := (s.unit.lines.get i).edges }) ∧
         (s.unit.mains = .clear →
           let fails : Prop := ∃ i, (t.unit.lines.get i).use = .mainsFail ∧ (t.unit.lines.get i).asserted = true
           (fails → t.unit.mains = .rising (s.now + Config.seconds 2)) ∧ (¬ fails → t.unit.mains = .clear)))) ∧
   ∀ image : List Byte,
     let c := (readProfile image).1
     let read (at_ n : Nat) : Nat := ((image.drop at_).take n).foldl (fun v b => v * 256 + b.toNat) 0
     let within (lo hi v : Nat) : Nat := max lo (min v hi)
     let given (bit : Nat) : Bool := (read 4 2).testBit bit
     let use (i : Nat) := read (40 + 2 * i) 1
     let outside (lo hi v : Nat) : Bool := decide (v < lo ∨ hi < v)
     (imageOk image = true ↔
       image.length = 52 ∧ read 0 4 = 0x4F4E5046 ∧ crc32 (image.take 48) = read 48 4) ∧
     (c.station.val = within 0 15 (read 6 1) ∧ c.laneCount = within 0 16 (read 7 1) ∧
       c.labelService = (read 8 1 != 0) ∧ c.labelChannel = within 0 15 (read 9 1) ∧
       c.uplinkPresent = (read 10 1 != 0) ∧ c.uplinkRate = within 256 100000 (read 11 4) ∧
       c.guestService = (read 15 1 != 0) ∧ c.guestRelay = (read 16 1 != 0) ∧
       c.guestRate = (if given 8 then within 128 100000 (read 17 4) else 2000) ∧
       c.allowance = (if given 7 then read 21 4 else 209715200) ∧ c.share = (if given 6 then read 25 1 != 0 else true) ∧
       c.windowStart = (if given 5 then within 0 1439 (read 26 2) else 60) ∧
       c.windowLength = (if given 4 then within 1 8 (read 28 1) else 4) ∧ c.openTime = within 0 1439 (read 29 2) ∧
       c.lateTime = within 0 1439 (read 31 2) ∧ c.closeTime = within 0 1439 (read 33 2) ∧
       c.changeoverLimit = (if given 3 then within 1 24 (read 35 1) else 6) ∧
       c.claimMargin = (if given 2 then within 3 12 (read 36 1) else 6) ∧
       c.cashStep = (if given 1 ∧ read 37 1 ∈ [1, 2, 5, 10] then read 37 1 else 1) ∧
       c.highWatermark = (if given 0 then within 1 16384 (read 38 2) else 12288) ∧
       ∀ i : Fin 4, (c.lines.get i).2 = (read (41 + 2 * i.val) 1 != 0) ∧
         (use i.val = 1 → (c.lines.get i).1 = .mainsFail) ∧ (use i.val = 2 → (c.lines.get i).1 = .closeKey) ∧
         (use i.val = 3 → (c.lines.get i).1 = .sessionKey) ∧
         ((use i.val = 0 ∨ 3 < use i.val) → (c.lines.get i).1 = .none)) ∧
     (readProfile image).2 = ([outside 0 15 (read 6 1), outside 0 16 (read 7 1), outside 0 15 (read 9 1),
       outside 256 100000 (read 11 4), given 8 && outside 128 100000 (read 17 4), given 5 && outside 0 1439 (read 26 2),
       given 4 && outside 1 8 (read 28 1), outside 0 1439 (read 29 2), outside 0 1439 (read 31 2),
       outside 0 1439 (read 33 2), given 3 && outside 1 24 (read 35 1), given 2 && outside 3 12 (read 36 1),
       given 1 && !decide (read 37 1 ∈ [1, 2, 5, 10]), given 0 && outside 1 16384 (read 38 2), decide (3 < use 0),
       decide (3 < use 1), decide (3 < use 2), decide (3 < use 3)].filter id).length ∧
     c.laneCount ≤ 16 ∧ c.labelChannel ≤ 15 ∧ (256 ≤ c.uplinkRate ∧ c.uplinkRate ≤ 100000) ∧
     (128 ≤ c.guestRate ∧ c.guestRate ≤ 100000) ∧ c.windowStart ≤ 1439 ∧ (1 ≤ c.windowLength ∧ c.windowLength ≤ 8) ∧
     c.openTime ≤ 1439 ∧ c.lateTime ≤ 1439 ∧ c.closeTime ≤ 1439 ∧
     (1 ≤ c.changeoverLimit ∧ c.changeoverLimit ≤ 24) ∧ (3 ≤ c.claimMargin ∧ c.claimMargin ≤ 12) ∧
     (c.cashStep = 1 ∨ c.cashStep = 2 ∨ c.cashStep = 5 ∨ c.cashStep = 10) ∧
     (1 ≤ c.highWatermark ∧ c.highWatermark ≤ 16384)) ∧
  ∀ (s : State) (due : Nat), s.live = true → s.listenTimer = some due →
    (s.part = .listening → ∃ t, exec .listeningTimerExpiry s = .next t ∧ t.part = .running ∧ t.listenTimer = none ∧
      t.now = max s.now due ∧ t.labels.reference = { s with part := .running }.judgedReference ∧
      (s.link.earlyPending = false → s.fwd.holder = none → s.book.entries = [] → s.fwd.up = true →
        t.link = s.link ∧ t.book = s.book ∧ t.journal = s.journal)) ∧
    (s.part ≠ .listening →
      exec .listeningTimerExpiry s = .next { s with now := max s.now due, listenTimer := none })

/-- The reading commands report the state as it stands and change nothing but what every command changes, and a
command of an unknown kind is answered BAD-COMMAND (R101, R202, R209, R210). The position shown of an UPDATE-DUE label
is one more than the number of UPDATE-DUE labels with an earlier due time, or with the same and a lower address, and
another label has none (R80, R101). That READ-ALERTS answers the oldest of the alerts asked for that fit one frame of
1,536 bytes, where not all of the up to 16 do, is log 61's: the model's choice. READ-COUNTS shows the figures of the
group it names, as they stand: the counts of the group's rules in their order, and beside them what these rules name
(R24, R49, R75, R101, R120, R141, R157, R165, R184, R189, R199, R204, R210). That the age of the oldest listed label
is in whole seconds, and 0 for an empty list, is log 54's, and what the staging list shows while its owner is NONE log
65's: the model's choices. A reply is saved in its station's place and handed over for the NOTICE queue; a part that
may not send loses it (R209). -/
def Obligations.ReadingCommandsReport : Prop :=
  (∀ (s : State) (h : OfficeHead), s.Obeys h →
     let heard := s.heardFrom h.src id
     let draws (c : Instr) (k : Nat) (o : OfficeOutcome) : Prop := exec c s = .next (heard.replied h k o)
     (∀ a, (a = 0 ∨ 9999999999999 < a ∨ s.entry a = none) → draws (.readEntry h a) 1 (.refused .unknownItem)) ∧
     (∀ a e, 1 ≤ a → a ≤ 9999999999999 → s.entry a = some e → draws (.readEntry h a) 1 (.done (.entry a e))) ∧
     (∀ n o, s.owned n = some o → AMap.wf s.labels.owned = true →
       (∀ due, o.state = .updateDue due →
         let ahead := s.labels.owned.filter fun x => match x.2.state with
           | .updateDue d => decide (d < due ∨ (d = due ∧ x.1 < n))
           | _ => false
         draws (.readLabel h n) 5 (.done (.ownedLabel n (n % 128) (some (ahead.length + 1)) o))) ∧
       ((∀ due, o.state ≠ .updateDue due) → draws (.readLabel h n) 5 (.done (.ownedLabel n (n % 128) none o)))) ∧
     (∀ n x, s.owned n = none → s.heard n = some x → draws (.readLabel h n) 5 (.done (.heardLabel n (n % 128)
       { x with claimed := x.claimed && x.claimAge.all fun age => decide (age < 16) }))) ∧
     (∀ n, s.owned n = none → s.heard n = none → draws (.readLabel h n) 5 (.refused .noSuchLabel)) ∧
     (∀ first,
       let asked := (heard.alerts.list.filter fun a => first ≤ a.serial).take 16
       let size (l : List Alert) : Nat := (l.map fun a => (alertBytes s.settings.station a).length).sum
       let answers (l : List Alert) : Prop := draws (.readAlerts h first) 9
         (.done (.alerts l heard.alerts.list.length (heard.count .alertOverflow)))
       (size asked ≤ 1523 → answers asked) ∧
       ∀ l a rest, asked = l ++ a :: rest → size l ≤ 1523 → 1523 < size (l ++ [a]) → answers l) ∧
     (∀ g f, heard.figures g = some f → draws (.readCounts h g) 11 (.done (.figures f))) ∧
     (∀ g, (g = 0 ∨ 9 < g) → draws (.readCounts h g) 11 (.refused .badValue)) ∧
     ∀ k, draws (.officeBadCommand h k) k .badCommand) ∧
  (∀ (s : State) (h : OfficeHead), s.Obeys h →
     let heard := s.heardFrom h.src id
     let shows (g : Nat) (f : Figures) : Prop := exec (.readCounts h g) s = .next (heard.replied h 11 (.done (.figures f)))
     let counts (l : List Count) : List Nat := l.map heard.count
     let bytes (q : List Parcel) : Nat := (q.map (·.payload.length)).sum
     let t := heard.trunk
     let j := heard.journal
     let l := heard.labels
     let w := heard.fwd
     let k := heard.link
     let g := heard.staging
     let u := heard.unit
     shows 1 (.start heard.part heard.settings heard.clamped heard.cause
       (counts [.commandsRepeated, .repliesLost, .commandsDiscarded])) ∧
     shows 2 (.trunk
       (counts [.sentUrgent, .sentNotice, .sentBulk, .failedAttempts, .framesDropped, .notTakenUrgent, .notTakenNotice,
         .notTakenBulk, .framesWaited, .arbitrationLosses, .checkErrors, .malformedFrames, .ownNumberFrames, .notForPart,
         .beaconsReplaced, .beaconsMissed])
       [t.urgent.length, t.notice.length, t.bulk.length, t.holdNotice.length, t.holdBulk.length]
       ((List.finRange 16).map heard.peer) heard.part t.clash) ∧
     shows 3 (.priceBook
       (counts [.recordsApplied, .recordsStale, .fullBookRefused, .badRecords, .reportsDropped, .forcedChangeovers])) ∧
     shows 4 (.lanes
       ((List.finRange 16).map fun n =>
         let x := heard.lane n
         { state := x.state, awaiting := x.flight.isSome, basketOpen := x.basket.isSome
           basketTotalled := x.basket.any fun b => b.result.isSome
           checkErrors := x.checkErrors, oversize := x.oversize, lateReplies := x.lateReplies })
       (counts [.basketsCancelled, .basketsAbandoned])) ∧
     shows 5 (.journal (counts [.appendsTaken, .appendsRefused, .recordsRemoved, .mismatches, .clearings]) j.records.length
       (j.records.filter fun r => !r.sent).length ((j.records.head?.map (·.serial)).getD 0) j.lastIssued j.high) ∧
     shows 6 (.labels
       (counts [.showsSent, .blanksSent, .acksTaken, .unansweredAttempts, .attemptsCutShort, .labelsLost, .strayAcks])
       l.owned.length (l.owned.filter fun e => decide (e.2.state = .lost)).length heard.updates.length
       (((heard.updates.map fun x => heard.now - x.1).head?.getD 0) / 1000000) l.cycle l.length
       (counts [.marksSent, .marksNotSent, .marksTaken, .marksIgnored, .presencesTaken, .presencesIgnored, .heardRemoved,
         .claimsSent, .claimsDropped, .claimsReceived, .claimsRefused, .handoversSent, .takenByHandover, .takenByAdoption,
         .takenByPresence, .turnedAway, .dropsToHeard, .failedMoves])
       l.heard.length l.reference l.aligned) ∧
     shows 7 (.forwarding
       (counts [.uplinkTill, .uplinkOffice, .uplinkGuest, .tillBusy, .tillNoRoute, .relayedOut, .relayedInTill,
         .relayedInOffice, .relayedInGuest, .relayedBack, .undeliverable, .malformedParcels, .repliesNoEntry,
         .lostAtUplinkLoss, .droppedByMode, .guestQueueFull, .guestNoRoute, .guestRelayRefused, .isolationDrops,
         .budgetDrops, .rejections, .evictions, .unknownGuestReplies, .guestsRemovedByMode, .holderChanges])
       w.up heard.uplinkOffer (bytes w.till) (bytes w.office) (bytes w.guest) (bytes w.relayBack) w.heldParcel.isSome
       w.holder w.pendingTable.length w.guests.length (w.guests.filter (·.capped)).length) ∧
     shows 8 (.session
       (counts [.startedWindow, .startedKey, .startedEarly, .attemptsCompleted, .attemptsFailed, .startsIgnored,
         .staleMessages, .unexpectedMessages, .batchesAcknowledged, .foreignRecords, .filesTaken, .filesFailed,
         .filesRefused, .filesSkipped, .trunkFramesIgnored, .trunkFilesTaken, .trunkFilesFailed, .filesReleased,
         .shareFramesLost])
       k.state k.attemptCount k.windowDay k.cut k.window k.held g.owner g.phase g.serial g.count g.records.length) ∧
     shows 9 (.mode
       (counts [.setByMark, .setByOffice, .setByAccept, .settingsIgnored, .modeChanges, .overridesGiven, .overridesEnded,
         .mainsNotQualified, .alertsRecorded, .ackedAlertsRemoved, .alertOverflow])
       ((List.finRange 4).map fun i => u.lines.get i) u.mains (u.asserted .closeKey) u.override u.schedule u.mode u.clock)) ∧
  ∀ (s : State) (h : OfficeHead) (k : Nat) (o : OfficeOutcome),
    let reply : OfficeReply := ⟨h.tag, k, o⟩
    (∀ n, (s.replied h k o).commands.places.get n = if n = h.src then some reply else s.commands.places.get n) ∧
    (s.replied h k o).commands.restarting = s.commands.restarting ∧
    (s.canSend = true → s.trunk.notice.length < 64 →
      (s.replied h k o).trunk = { s.trunk with notice := s.trunk.notice ++
        [{ dest := some h.src, body := .officeReply reply, purpose := .reply false, attempts := 0 }] }) ∧
    (s.canSend = false → (s.replied h k o).trunk = s.trunk ∧
      (s.replied h k o).count .repliesLost = min (s.count .repliesLost + 1) 4294967295)

/-- After a RESTART every OFFICE command is discarded and counted; before it, a command whose tag is the one in its
station's place is a repeat, which draws the saved reply again and is not acted on (R209, R211). -/
def Obligations.RepeatedCommandsAreNotActedOn : Prop :=
  ∀ (c : Instr) (s : State) (h : OfficeHead) (k : Nat), officeCommand c = some (h, k) → s.Hears h.src →
    h.dest = .station s.settings.station →
      (s.commands.restarting = true → exec c s = .next ((s.heardFrom h.src id).bump .commandsDiscarded)) ∧
      (∀ r, s.commands.restarting = false → s.commands.places.get h.src = some r → r.tag = h.tag →
        exec c s = .next (((s.heardFrom h.src id).bump .commandsRepeated).giveReply h.src r false))

/-- A spot record is applied, broadcast to ALL only when it was applied, and answered with what became of it (R3).
That one with a file serial other than 0, which 12.7 has refused, is also counted as a bad record is log 12's, and
that the PRICE-CHANGE is handed over before the reply log 67's: the model's choices. -/
def Obligations.SpotPriceIsAppliedAndBroadcast : Prop :=
  ∀ (s : State) (h : OfficeHead) (r : ChangeRecord), s.Obeys h →
    let heard := s.heardFrom h.src id
    (r.fileSerial ≠ 0 →
      exec (.spotPrice h r) s = .next ((heard.bump .badRecords).replied h 2 (.refused .badRecord))) ∧
    (r.fileSerial = 0 → ∀ t,
      (heard.applyRecord r = (.applied, t) → t.canSend = true → t.trunk.notice.length < 64 → ∀ e, t.entry r.article = some e →
        exec (.spotPrice h r) s = .next ((t.withTrunk fun x => { x with notice := x.notice ++
          [{ dest := none, body := .priceChange 0 0 [r], purpose := .spot, attempts := 0 }] }).replied h 2
            (.done (.entryState e.state)))) ∧
      (heard.applyRecord r = (.stale, t) → exec (.spotPrice h r) s = .next (t.replied h 2 (.refused .stale))) ∧
      (heard.applyRecord r = (.bookFull, t) → exec (.spotPrice h r) s = .next (t.replied h 2 (.refused .bookFull))) ∧
      (heard.applyRecord r = (.badRecord, t) → exec (.spotPrice h r) s = .next (t.replied h 2 (.refused .badRecord))) ∧
      (heard.applyRecord r = (.kindMismatch, t) →
        exec (.spotPrice h r) s = .next (t.replied h 2 (.refused .kindMismatch))))

/-- SET-MODE gives or ends the override and answers with the mode then decided; SET-TIME sets the clock when this
station is its own reference or has none; every other value is refused (R190, R191, R193, R194, R195). That SET-TIME
tests the reference before the value, and that both refusals are counted among the settings ignored, is log 16's: the
model's choice. RUN-SESSION starts an attempt of kind KEY or is refused; ACK-ALERT acknowledges the alerts it names;
RESTART is answered DONE and closes the part to further commands, and resets it at once where the reply cannot be sent
(R170, R202, R211). That RUN-SESSION draws NOT-RUNNING in LISTENING where the mode is DISTRESS too is log 66's: the
model's choice. -/
def Obligations.CommandsOnModeSessionAndAlerts : Prop :=
  (∀ (s : State) (h : OfficeHead), s.Obeys h →
     let heard := s.heardFrom h.src id
     (∀ code m, (code, m) ∈ [(1, Mode.open), (2, .late), (3, .closed)] → ∃ t, exec (.setMode h code) s = .next t ∧
       t.unit.override = some (m, s.unit.schedule) ∧ t.unit.mode = decidedMode t.unit ∧
       t.commands.places.get h.src = some ⟨h.tag, 6, .done (.mode t.unit.mode)⟩) ∧
     (∃ t, exec (.setMode h 0) s = .next t ∧ t.unit.override = none ∧ t.unit.mode = decidedMode t.unit ∧
       t.commands.places.get h.src = some ⟨h.tag, 6, .done (.mode t.unit.mode)⟩) ∧
     (∀ code, 4 ≤ code → exec (.setMode h code) s = .next (heard.replied h 6 (.refused .badValue))) ∧
     let mayTake := heard.labels.reference = none ∨ heard.labels.reference = some s.settings.station
     ∀ time,
       (¬ mayTake → exec (.setTime h time) s = .next ((heard.bump .settingsIgnored).replied h 7 (.refused .notReference))) ∧
       (mayTake → (65535 < time.day ∨ 86399 < time.sec) →
         exec (.setTime h time) s = .next ((heard.bump .settingsIgnored).replied h 7 (.refused .badValue))) ∧
       (mayTake → time.day ≤ 65535 → time.sec ≤ 86399 → ∃ t, exec (.setTime h time) s = .next t ∧
         t.unit.clock = some time ∧ t.unit.clockTimer = some (s.now + Config.seconds 1) ∧
         t.unit.schedule = some (scheduleMode s.settings time.sec) ∧ t.unit.mode = decidedMode t.unit ∧
         t.commands.places.get h.src = some ⟨h.tag, 7, .done (.time time)⟩)) ∧
  ∀ (s : State) (h : OfficeHead), s.Obeys h →
    let heard := s.heardFrom h.src id
    let refuses (r : Reason) : Prop := exec (.runSession h) s = .next (heard.replied h 8 (.refused r))
    (s.part = .listening → refuses .notRunning) ∧
    (s.part ≠ .listening → s.unit.mode = .distress → refuses .distress) ∧
    (s.part ≠ .listening → s.unit.mode ≠ .distress →
      (heard.link.state.inProgress = true → refuses .sessionBusy) ∧
      (heard.link.state.inProgress = false →
        exec (.runSession h) s = .next ((heard.startAttempt .key).replied h 8 (.done .nothing)))) ∧
    (∀ n, n ≠ 0 → (∀ a ∈ heard.alerts.list, a.serial ≠ n) →
      exec (.ackAlert h n) s = .next (heard.replied h 10 (.refused .noSuchAlert))) ∧
    (∀ n, (n = 0 ∨ ∃ a ∈ heard.alerts.list, a.serial = n) →
      exec (.ackAlert h n) s = .next ({ heard with alerts := { heard.alerts with
        list := heard.alerts.list.map fun a : Alert => if n = 0 ∨ a.serial = n then { a with acked := true } else a } }.replied h 10
          (.done .nothing))) ∧
    (s.part ≠ .listenOnly → heard.trunk.notice.length < 64 → ∃ t, exec (.restart h) s = .next t ∧
      t.commands.restarting = true ∧ t.commands.places.get h.src = some ⟨h.tag, 12, .done .nothing⟩ ∧
      t.trunk = { heard.trunk with notice := heard.trunk.notice ++
        [{ dest := some h.src, body := .officeReply ⟨h.tag, 12, .done .nothing⟩, purpose := .reply true, attempts := 0 }] }) ∧
    (s.part = .listenOnly → ∃ t, exec (.restart h) s = .next t ∧ t.part = .starting ∧ t.cause = .restart ∧
      t.alerts = AlertList.initial .restart ∧ t.commands = CommandMemory.initial)

/-! ### What every step keeps -/

/-- Every step keeps the journal's records in rising order of serial, each issued by the counter, at most 16,384 of
them, and at most two batches outstanding (R65, R67, R71). -/
def Obligations.JournalStaysOrdered : Prop :=
  ∀ s t : State, s.journal.Ok → step s = .next t → t.journal.Ok

/-- Every step keeps each basket's running total the sum of its live lines and no more than 99,999,999, its lists
within their sizes, and one terms record for an article (R34, R35, R56, R57). -/
def Obligations.BasketsStayWithinLimits : Prop :=
  ∀ s t : State, s.BasketsOk → step s = .next t → t.BasketsOk

/-- Every step keeps the price book at no more than 65,536 entries, one for an article, whose versions rise from
current to pending to queued (R1). -/
def Obligations.BookVersionsStayRising : Prop :=
  ∀ s t : State, s.book.Ok → step s = .next t → t.book.Ok

/-- Every step keeps the label table at no more than 2,048 entries, each label at most once, OWNED or HEARD (R77,
R109). -/
def Obligations.LabelsStayOwnedOrHeard : Prop :=
  ∀ s t : State, s.labels.Ok → step s = .next t → t.labels.Ok

/-- Every step keeps the three transmit queues and the alert list within their sizes (R123, R200). -/
def Obligations.QueuesAndAlertsStayBounded : Prop :=
  ∀ s t : State, step s = .next t → (s.trunk.Bounded → t.trunk.Bounded) ∧ (s.alerts.Ok → t.alerts.Ok)

/-- After the first reset the part is in STARTING and LATE with the clock UNSET, an empty book, table and journal, the
serial counter at 1, every lane to be told RESTARTED, and one RESTARTED alert; and every invariant stated of a step
holds (R67, R76, R142, R166, R189, R190, R193, R204, R208). -/
def Obligations.ResetStateIsSound : Prop :=
  let s := State.reset
  (s.part = .starting ∧ s.unit.mode = .late ∧ s.unit.clock = none ∧ s.unit.mains = .clear ∧ s.book.entries = [] ∧
    s.labels.owned = [] ∧ s.labels.heard = [] ∧ s.journal.records = [] ∧ s.journal.counter = .next 1 ∧
    (∀ l, (s.lane l).restart = true ∧ (s.lane l).basket = none) ∧ s.trunk = Trunk.initial ∧ s.fwd.up = false ∧
    s.link.state = .idle ∧ s.staging.owner = .none ∧ s.alerts = AlertList.initial .powerOn ∧ s.alertOutput = false ∧
    s.pending = []) ∧
  s.journal.Ok ∧ s.BasketsOk ∧ s.book.Ok ∧ s.labels.Ok ∧ s.trunk.Bounded ∧ s.alerts.Ok ∧ s.trunk.Filed

/-- Every step keeps every trunk frame in the queue, or the hold line, of its kind's class, with the contents its
block forms for its purpose, so that a SHELF-DONE never stands among the URGENT frames and a RELAY is never told off
as a reply (R122, R123, R124, R140). -/
def Obligations.FramesStayInTheirQueues : Prop :=
  ∀ s t : State, s.trunk.Filed → step s = .next t → t.trunk.Filed
end

