-- ==== Sys2Proof/Laws/State.lean ====
section
/-! SUPPORT. The small lemmas of the state: one for each field under each update of a block, and the lemmas of the frame
relation `keeps`. -/

namespace Sys2Proof.Machine

open Sys2Proof

/-! ### `withTrunk` -/

@[simp] theorem State.withTrunk_powered (s : State) (f : Trunk → Trunk) : (s.withTrunk f).powered = s.powered := rfl
@[simp] theorem State.withTrunk_resetHeld (s : State) (f : Trunk → Trunk) : (s.withTrunk f).resetHeld = s.resetHeld := rfl
@[simp] theorem State.withTrunk_now (s : State) (f : Trunk → Trunk) : (s.withTrunk f).now = s.now := rfl
@[simp] theorem State.withTrunk_carrier (s : State) (f : Trunk → Trunk) : (s.withTrunk f).carrier = s.carrier := rfl
@[simp] theorem State.withTrunk_levels (s : State) (f : Trunk → Trunk) : (s.withTrunk f).levels = s.levels := rfl
@[simp] theorem State.withTrunk_part (s : State) (f : Trunk → Trunk) : (s.withTrunk f).part = s.part := rfl
@[simp] theorem State.withTrunk_listenTimer (s : State) (f : Trunk → Trunk) : (s.withTrunk f).listenTimer = s.listenTimer := rfl
@[simp] theorem State.withTrunk_cause (s : State) (f : Trunk → Trunk) : (s.withTrunk f).cause = s.cause := rfl
@[simp] theorem State.withTrunk_image (s : State) (f : Trunk → Trunk) : (s.withTrunk f).image = s.image := rfl
@[simp] theorem State.withTrunk_settings (s : State) (f : Trunk → Trunk) : (s.withTrunk f).settings = s.settings := rfl
@[simp] theorem State.withTrunk_clamped (s : State) (f : Trunk → Trunk) : (s.withTrunk f).clamped = s.clamped := rfl
@[simp] theorem State.withTrunk_counts (s : State) (f : Trunk → Trunk) : (s.withTrunk f).counts = s.counts := rfl
@[simp] theorem State.withTrunk_trunk (s : State) (f : Trunk → Trunk) : (s.withTrunk f).trunk = f s.trunk := rfl
@[simp] theorem State.withTrunk_commands (s : State) (f : Trunk → Trunk) : (s.withTrunk f).commands = s.commands := rfl
@[simp] theorem State.withTrunk_book (s : State) (f : Trunk → Trunk) : (s.withTrunk f).book = s.book := rfl
@[simp] theorem State.withTrunk_lanes (s : State) (f : Trunk → Trunk) : (s.withTrunk f).lanes = s.lanes := rfl
@[simp] theorem State.withTrunk_journal (s : State) (f : Trunk → Trunk) : (s.withTrunk f).journal = s.journal := rfl
@[simp] theorem State.withTrunk_labels (s : State) (f : Trunk → Trunk) : (s.withTrunk f).labels = s.labels := rfl
@[simp] theorem State.withTrunk_fwd (s : State) (f : Trunk → Trunk) : (s.withTrunk f).fwd = s.fwd := rfl
@[simp] theorem State.withTrunk_link (s : State) (f : Trunk → Trunk) : (s.withTrunk f).link = s.link := rfl
@[simp] theorem State.withTrunk_staging (s : State) (f : Trunk → Trunk) : (s.withTrunk f).staging = s.staging := rfl
@[simp] theorem State.withTrunk_unit (s : State) (f : Trunk → Trunk) : (s.withTrunk f).unit = s.unit := rfl
@[simp] theorem State.withTrunk_alerts (s : State) (f : Trunk → Trunk) : (s.withTrunk f).alerts = s.alerts := rfl
@[simp] theorem State.withTrunk_out (s : State) (f : Trunk → Trunk) : (s.withTrunk f).out = s.out := rfl
@[simp] theorem State.withTrunk_fresh (s : State) (f : Trunk → Trunk) : (s.withTrunk f).fresh = s.fresh := rfl
@[simp] theorem State.withTrunk_pending (s : State) (f : Trunk → Trunk) : (s.withTrunk f).pending = s.pending := rfl

/-! ### `withCommands` -/

@[simp] theorem State.withCommands_powered (s : State) (f : CommandMemory → CommandMemory) : (s.withCommands f).powered = s.powered := rfl
@[simp] theorem State.withCommands_resetHeld (s : State) (f : CommandMemory → CommandMemory) : (s.withCommands f).resetHeld = s.resetHeld := rfl
@[simp] theorem State.withCommands_now (s : State) (f : CommandMemory → CommandMemory) : (s.withCommands f).now = s.now := rfl
@[simp] theorem State.withCommands_carrier (s : State) (f : CommandMemory → CommandMemory) : (s.withCommands f).carrier = s.carrier := rfl
@[simp] theorem State.withCommands_levels (s : State) (f : CommandMemory → CommandMemory) : (s.withCommands f).levels = s.levels := rfl
@[simp] theorem State.withCommands_part (s : State) (f : CommandMemory → CommandMemory) : (s.withCommands f).part = s.part := rfl
@[simp] theorem State.withCommands_listenTimer (s : State) (f : CommandMemory → CommandMemory) : (s.withCommands f).listenTimer = s.listenTimer := rfl
@[simp] theorem State.withCommands_cause (s : State) (f : CommandMemory → CommandMemory) : (s.withCommands f).cause = s.cause := rfl
@[simp] theorem State.withCommands_image (s : State) (f : CommandMemory → CommandMemory) : (s.withCommands f).image = s.image := rfl
@[simp] theorem State.withCommands_settings (s : State) (f : CommandMemory → CommandMemory) : (s.withCommands f).settings = s.settings := rfl
@[simp] theorem State.withCommands_clamped (s : State) (f : CommandMemory → CommandMemory) : (s.withCommands f).clamped = s.clamped := rfl
@[simp] theorem State.withCommands_counts (s : State) (f : CommandMemory → CommandMemory) : (s.withCommands f).counts = s.counts := rfl
@[simp] theorem State.withCommands_trunk (s : State) (f : CommandMemory → CommandMemory) : (s.withCommands f).trunk = s.trunk := rfl
@[simp] theorem State.withCommands_commands (s : State) (f : CommandMemory → CommandMemory) : (s.withCommands f).commands = f s.commands := rfl
@[simp] theorem State.withCommands_book (s : State) (f : CommandMemory → CommandMemory) : (s.withCommands f).book = s.book := rfl
@[simp] theorem State.withCommands_lanes (s : State) (f : CommandMemory → CommandMemory) : (s.withCommands f).lanes = s.lanes := rfl
@[simp] theorem State.withCommands_journal (s : State) (f : CommandMemory → CommandMemory) : (s.withCommands f).journal = s.journal := rfl
@[simp] theorem State.withCommands_labels (s : State) (f : CommandMemory → CommandMemory) : (s.withCommands f).labels = s.labels := rfl
@[simp] theorem State.withCommands_fwd (s : State) (f : CommandMemory → CommandMemory) : (s.withCommands f).fwd = s.fwd := rfl
@[simp] theorem State.withCommands_link (s : State) (f : CommandMemory → CommandMemory) : (s.withCommands f).link = s.link := rfl
@[simp] theorem State.withCommands_staging (s : State) (f : CommandMemory → CommandMemory) : (s.withCommands f).staging = s.staging := rfl
@[simp] theorem State.withCommands_unit (s : State) (f : CommandMemory → CommandMemory) : (s.withCommands f).unit = s.unit := rfl
@[simp] theorem State.withCommands_alerts (s : State) (f : CommandMemory → CommandMemory) : (s.withCommands f).alerts = s.alerts := rfl
@[simp] theorem State.withCommands_out (s : State) (f : CommandMemory → CommandMemory) : (s.withCommands f).out = s.out := rfl
@[simp] theorem State.withCommands_fresh (s : State) (f : CommandMemory → CommandMemory) : (s.withCommands f).fresh = s.fresh := rfl
@[simp] theorem State.withCommands_pending (s : State) (f : CommandMemory → CommandMemory) : (s.withCommands f).pending = s.pending := rfl

/-! ### `withBook` -/

@[simp] theorem State.withBook_powered (s : State) (f : Book → Book) : (s.withBook f).powered = s.powered := rfl
@[simp] theorem State.withBook_resetHeld (s : State) (f : Book → Book) : (s.withBook f).resetHeld = s.resetHeld := rfl
@[simp] theorem State.withBook_now (s : State) (f : Book → Book) : (s.withBook f).now = s.now := rfl
@[simp] theorem State.withBook_carrier (s : State) (f : Book → Book) : (s.withBook f).carrier = s.carrier := rfl
@[simp] theorem State.withBook_levels (s : State) (f : Book → Book) : (s.withBook f).levels = s.levels := rfl
@[simp] theorem State.withBook_part (s : State) (f : Book → Book) : (s.withBook f).part = s.part := rfl
@[simp] theorem State.withBook_listenTimer (s : State) (f : Book → Book) : (s.withBook f).listenTimer = s.listenTimer := rfl
@[simp] theorem State.withBook_cause (s : State) (f : Book → Book) : (s.withBook f).cause = s.cause := rfl
@[simp] theorem State.withBook_image (s : State) (f : Book → Book) : (s.withBook f).image = s.image := rfl
@[simp] theorem State.withBook_settings (s : State) (f : Book → Book) : (s.withBook f).settings = s.settings := rfl
@[simp] theorem State.withBook_clamped (s : State) (f : Book → Book) : (s.withBook f).clamped = s.clamped := rfl
@[simp] theorem State.withBook_counts (s : State) (f : Book → Book) : (s.withBook f).counts = s.counts := rfl
@[simp] theorem State.withBook_trunk (s : State) (f : Book → Book) : (s.withBook f).trunk = s.trunk := rfl
@[simp] theorem State.withBook_commands (s : State) (f : Book → Book) : (s.withBook f).commands = s.commands := rfl
@[simp] theorem State.withBook_book (s : State) (f : Book → Book) : (s.withBook f).book = f s.book := rfl
@[simp] theorem State.withBook_lanes (s : State) (f : Book → Book) : (s.withBook f).lanes = s.lanes := rfl
@[simp] theorem State.withBook_journal (s : State) (f : Book → Book) : (s.withBook f).journal = s.journal := rfl
@[simp] theorem State.withBook_labels (s : State) (f : Book → Book) : (s.withBook f).labels = s.labels := rfl
@[simp] theorem State.withBook_fwd (s : State) (f : Book → Book) : (s.withBook f).fwd = s.fwd := rfl
@[simp] theorem State.withBook_link (s : State) (f : Book → Book) : (s.withBook f).link = s.link := rfl
@[simp] theorem State.withBook_staging (s : State) (f : Book → Book) : (s.withBook f).staging = s.staging := rfl
@[simp] theorem State.withBook_unit (s : State) (f : Book → Book) : (s.withBook f).unit = s.unit := rfl
@[simp] theorem State.withBook_alerts (s : State) (f : Book → Book) : (s.withBook f).alerts = s.alerts := rfl
@[simp] theorem State.withBook_out (s : State) (f : Book → Book) : (s.withBook f).out = s.out := rfl
@[simp] theorem State.withBook_fresh (s : State) (f : Book → Book) : (s.withBook f).fresh = s.fresh := rfl
@[simp] theorem State.withBook_pending (s : State) (f : Book → Book) : (s.withBook f).pending = s.pending := rfl

/-! ### `withJournal` -/

@[simp] theorem State.withJournal_powered (s : State) (f : Journal → Journal) : (s.withJournal f).powered = s.powered := rfl
@[simp] theorem State.withJournal_resetHeld (s : State) (f : Journal → Journal) : (s.withJournal f).resetHeld = s.resetHeld := rfl
@[simp] theorem State.withJournal_now (s : State) (f : Journal → Journal) : (s.withJournal f).now = s.now := rfl
@[simp] theorem State.withJournal_carrier (s : State) (f : Journal → Journal) : (s.withJournal f).carrier = s.carrier := rfl
@[simp] theorem State.withJournal_levels (s : State) (f : Journal → Journal) : (s.withJournal f).levels = s.levels := rfl
@[simp] theorem State.withJournal_part (s : State) (f : Journal → Journal) : (s.withJournal f).part = s.part := rfl
@[simp] theorem State.withJournal_listenTimer (s : State) (f : Journal → Journal) : (s.withJournal f).listenTimer = s.listenTimer := rfl
@[simp] theorem State.withJournal_cause (s : State) (f : Journal → Journal) : (s.withJournal f).cause = s.cause := rfl
@[simp] theorem State.withJournal_image (s : State) (f : Journal → Journal) : (s.withJournal f).image = s.image := rfl
@[simp] theorem State.withJournal_settings (s : State) (f : Journal → Journal) : (s.withJournal f).settings = s.settings := rfl
@[simp] theorem State.withJournal_clamped (s : State) (f : Journal → Journal) : (s.withJournal f).clamped = s.clamped := rfl
@[simp] theorem State.withJournal_counts (s : State) (f : Journal → Journal) : (s.withJournal f).counts = s.counts := rfl
@[simp] theorem State.withJournal_trunk (s : State) (f : Journal → Journal) : (s.withJournal f).trunk = s.trunk := rfl
@[simp] theorem State.withJournal_commands (s : State) (f : Journal → Journal) : (s.withJournal f).commands = s.commands := rfl
@[simp] theorem State.withJournal_book (s : State) (f : Journal → Journal) : (s.withJournal f).book = s.book := rfl
@[simp] theorem State.withJournal_lanes (s : State) (f : Journal → Journal) : (s.withJournal f).lanes = s.lanes := rfl
@[simp] theorem State.withJournal_journal (s : State) (f : Journal → Journal) : (s.withJournal f).journal = f s.journal := rfl
@[simp] theorem State.withJournal_labels (s : State) (f : Journal → Journal) : (s.withJournal f).labels = s.labels := rfl
@[simp] theorem State.withJournal_fwd (s : State) (f : Journal → Journal) : (s.withJournal f).fwd = s.fwd := rfl
@[simp] theorem State.withJournal_link (s : State) (f : Journal → Journal) : (s.withJournal f).link = s.link := rfl
@[simp] theorem State.withJournal_staging (s : State) (f : Journal → Journal) : (s.withJournal f).staging = s.staging := rfl
@[simp] theorem State.withJournal_unit (s : State) (f : Journal → Journal) : (s.withJournal f).unit = s.unit := rfl
@[simp] theorem State.withJournal_alerts (s : State) (f : Journal → Journal) : (s.withJournal f).alerts = s.alerts := rfl
@[simp] theorem State.withJournal_out (s : State) (f : Journal → Journal) : (s.withJournal f).out = s.out := rfl
@[simp] theorem State.withJournal_fresh (s : State) (f : Journal → Journal) : (s.withJournal f).fresh = s.fresh := rfl
@[simp] theorem State.withJournal_pending (s : State) (f : Journal → Journal) : (s.withJournal f).pending = s.pending := rfl

/-! ### `withLabels` -/

@[simp] theorem State.withLabels_powered (s : State) (f : Labels → Labels) : (s.withLabels f).powered = s.powered := rfl
@[simp] theorem State.withLabels_resetHeld (s : State) (f : Labels → Labels) : (s.withLabels f).resetHeld = s.resetHeld := rfl
@[simp] theorem State.withLabels_now (s : State) (f : Labels → Labels) : (s.withLabels f).now = s.now := rfl
@[simp] theorem State.withLabels_carrier (s : State) (f : Labels → Labels) : (s.withLabels f).carrier = s.carrier := rfl
@[simp] theorem State.withLabels_levels (s : State) (f : Labels → Labels) : (s.withLabels f).levels = s.levels := rfl
@[simp] theorem State.withLabels_part (s : State) (f : Labels → Labels) : (s.withLabels f).part = s.part := rfl
@[simp] theorem State.withLabels_listenTimer (s : State) (f : Labels → Labels) : (s.withLabels f).listenTimer = s.listenTimer := rfl
@[simp] theorem State.withLabels_cause (s : State) (f : Labels → Labels) : (s.withLabels f).cause = s.cause := rfl
@[simp] theorem State.withLabels_image (s : State) (f : Labels → Labels) : (s.withLabels f).image = s.image := rfl
@[simp] theorem State.withLabels_settings (s : State) (f : Labels → Labels) : (s.withLabels f).settings = s.settings := rfl
@[simp] theorem State.withLabels_clamped (s : State) (f : Labels → Labels) : (s.withLabels f).clamped = s.clamped := rfl
@[simp] theorem State.withLabels_counts (s : State) (f : Labels → Labels) : (s.withLabels f).counts = s.counts := rfl
@[simp] theorem State.withLabels_trunk (s : State) (f : Labels → Labels) : (s.withLabels f).trunk = s.trunk := rfl
@[simp] theorem State.withLabels_commands (s : State) (f : Labels → Labels) : (s.withLabels f).commands = s.commands := rfl
@[simp] theorem State.withLabels_book (s : State) (f : Labels → Labels) : (s.withLabels f).book = s.book := rfl
@[simp] theorem State.withLabels_lanes (s : State) (f : Labels → Labels) : (s.withLabels f).lanes = s.lanes := rfl
@[simp] theorem State.withLabels_journal (s : State) (f : Labels → Labels) : (s.withLabels f).journal = s.journal := rfl
@[simp] theorem State.withLabels_labels (s : State) (f : Labels → Labels) : (s.withLabels f).labels = f s.labels := rfl
@[simp] theorem State.withLabels_fwd (s : State) (f : Labels → Labels) : (s.withLabels f).fwd = s.fwd := rfl
@[simp] theorem State.withLabels_link (s : State) (f : Labels → Labels) : (s.withLabels f).link = s.link := rfl
@[simp] theorem State.withLabels_staging (s : State) (f : Labels → Labels) : (s.withLabels f).staging = s.staging := rfl
@[simp] theorem State.withLabels_unit (s : State) (f : Labels → Labels) : (s.withLabels f).unit = s.unit := rfl
@[simp] theorem State.withLabels_alerts (s : State) (f : Labels → Labels) : (s.withLabels f).alerts = s.alerts := rfl
@[simp] theorem State.withLabels_out (s : State) (f : Labels → Labels) : (s.withLabels f).out = s.out := rfl
@[simp] theorem State.withLabels_fresh (s : State) (f : Labels → Labels) : (s.withLabels f).fresh = s.fresh := rfl
@[simp] theorem State.withLabels_pending (s : State) (f : Labels → Labels) : (s.withLabels f).pending = s.pending := rfl

/-! ### `withFwd` -/

@[simp] theorem State.withFwd_powered (s : State) (f : Forwarding → Forwarding) : (s.withFwd f).powered = s.powered := rfl
@[simp] theorem State.withFwd_resetHeld (s : State) (f : Forwarding → Forwarding) : (s.withFwd f).resetHeld = s.resetHeld := rfl
@[simp] theorem State.withFwd_now (s : State) (f : Forwarding → Forwarding) : (s.withFwd f).now = s.now := rfl
@[simp] theorem State.withFwd_carrier (s : State) (f : Forwarding → Forwarding) : (s.withFwd f).carrier = s.carrier := rfl
@[simp] theorem State.withFwd_levels (s : State) (f : Forwarding → Forwarding) : (s.withFwd f).levels = s.levels := rfl
@[simp] theorem State.withFwd_part (s : State) (f : Forwarding → Forwarding) : (s.withFwd f).part = s.part := rfl
@[simp] theorem State.withFwd_listenTimer (s : State) (f : Forwarding → Forwarding) : (s.withFwd f).listenTimer = s.listenTimer := rfl
@[simp] theorem State.withFwd_cause (s : State) (f : Forwarding → Forwarding) : (s.withFwd f).cause = s.cause := rfl
@[simp] theorem State.withFwd_image (s : State) (f : Forwarding → Forwarding) : (s.withFwd f).image = s.image := rfl
@[simp] theorem State.withFwd_settings (s : State) (f : Forwarding → Forwarding) : (s.withFwd f).settings = s.settings := rfl
@[simp] theorem State.withFwd_clamped (s : State) (f : Forwarding → Forwarding) : (s.withFwd f).clamped = s.clamped := rfl
@[simp] theorem State.withFwd_counts (s : State) (f : Forwarding → Forwarding) : (s.withFwd f).counts = s.counts := rfl
@[simp] theorem State.withFwd_trunk (s : State) (f : Forwarding → Forwarding) : (s.withFwd f).trunk = s.trunk := rfl
@[simp] theorem State.withFwd_commands (s : State) (f : Forwarding → Forwarding) : (s.withFwd f).commands = s.commands := rfl
@[simp] theorem State.withFwd_book (s : State) (f : Forwarding → Forwarding) : (s.withFwd f).book = s.book := rfl
@[simp] theorem State.withFwd_lanes (s : State) (f : Forwarding → Forwarding) : (s.withFwd f).lanes = s.lanes := rfl
@[simp] theorem State.withFwd_journal (s : State) (f : Forwarding → Forwarding) : (s.withFwd f).journal = s.journal := rfl
@[simp] theorem State.withFwd_labels (s : State) (f : Forwarding → Forwarding) : (s.withFwd f).labels = s.labels := rfl
@[simp] theorem State.withFwd_fwd (s : State) (f : Forwarding → Forwarding) : (s.withFwd f).fwd = f s.fwd := rfl
@[simp] theorem State.withFwd_link (s : State) (f : Forwarding → Forwarding) : (s.withFwd f).link = s.link := rfl
@[simp] theorem State.withFwd_staging (s : State) (f : Forwarding → Forwarding) : (s.withFwd f).staging = s.staging := rfl
@[simp] theorem State.withFwd_unit (s : State) (f : Forwarding → Forwarding) : (s.withFwd f).unit = s.unit := rfl
@[simp] theorem State.withFwd_alerts (s : State) (f : Forwarding → Forwarding) : (s.withFwd f).alerts = s.alerts := rfl
@[simp] theorem State.withFwd_out (s : State) (f : Forwarding → Forwarding) : (s.withFwd f).out = s.out := rfl
@[simp] theorem State.withFwd_fresh (s : State) (f : Forwarding → Forwarding) : (s.withFwd f).fresh = s.fresh := rfl
@[simp] theorem State.withFwd_pending (s : State) (f : Forwarding → Forwarding) : (s.withFwd f).pending = s.pending := rfl

/-! ### `withLink` -/

@[simp] theorem State.withLink_powered (s : State) (f : Link → Link) : (s.withLink f).powered = s.powered := rfl
@[simp] theorem State.withLink_resetHeld (s : State) (f : Link → Link) : (s.withLink f).resetHeld = s.resetHeld := rfl
@[simp] theorem State.withLink_now (s : State) (f : Link → Link) : (s.withLink f).now = s.now := rfl
@[simp] theorem State.withLink_carrier (s : State) (f : Link → Link) : (s.withLink f).carrier = s.carrier := rfl
@[simp] theorem State.withLink_levels (s : State) (f : Link → Link) : (s.withLink f).levels = s.levels := rfl
@[simp] theorem State.withLink_part (s : State) (f : Link → Link) : (s.withLink f).part = s.part := rfl
@[simp] theorem State.withLink_listenTimer (s : State) (f : Link → Link) : (s.withLink f).listenTimer = s.listenTimer := rfl
@[simp] theorem State.withLink_cause (s : State) (f : Link → Link) : (s.withLink f).cause = s.cause := rfl
@[simp] theorem State.withLink_image (s : State) (f : Link → Link) : (s.withLink f).image = s.image := rfl
@[simp] theorem State.withLink_settings (s : State) (f : Link → Link) : (s.withLink f).settings = s.settings := rfl
@[simp] theorem State.withLink_clamped (s : State) (f : Link → Link) : (s.withLink f).clamped = s.clamped := rfl
@[simp] theorem State.withLink_counts (s : State) (f : Link → Link) : (s.withLink f).counts = s.counts := rfl
@[simp] theorem State.withLink_trunk (s : State) (f : Link → Link) : (s.withLink f).trunk = s.trunk := rfl
@[simp] theorem State.withLink_commands (s : State) (f : Link → Link) : (s.withLink f).commands = s.commands := rfl
@[simp] theorem State.withLink_book (s : State) (f : Link → Link) : (s.withLink f).book = s.book := rfl
@[simp] theorem State.withLink_lanes (s : State) (f : Link → Link) : (s.withLink f).lanes = s.lanes := rfl
@[simp] theorem State.withLink_journal (s : State) (f : Link → Link) : (s.withLink f).journal = s.journal := rfl
@[simp] theorem State.withLink_labels (s : State) (f : Link → Link) : (s.withLink f).labels = s.labels := rfl
@[simp] theorem State.withLink_fwd (s : State) (f : Link → Link) : (s.withLink f).fwd = s.fwd := rfl
@[simp] theorem State.withLink_link (s : State) (f : Link → Link) : (s.withLink f).link = f s.link := rfl
@[simp] theorem State.withLink_staging (s : State) (f : Link → Link) : (s.withLink f).staging = s.staging := rfl
@[simp] theorem State.withLink_unit (s : State) (f : Link → Link) : (s.withLink f).unit = s.unit := rfl
@[simp] theorem State.withLink_alerts (s : State) (f : Link → Link) : (s.withLink f).alerts = s.alerts := rfl
@[simp] theorem State.withLink_out (s : State) (f : Link → Link) : (s.withLink f).out = s.out := rfl
@[simp] theorem State.withLink_fresh (s : State) (f : Link → Link) : (s.withLink f).fresh = s.fresh := rfl
@[simp] theorem State.withLink_pending (s : State) (f : Link → Link) : (s.withLink f).pending = s.pending := rfl

/-! ### `withStaging` -/

@[simp] theorem State.withStaging_powered (s : State) (f : Staging → Staging) : (s.withStaging f).powered = s.powered := rfl
@[simp] theorem State.withStaging_resetHeld (s : State) (f : Staging → Staging) : (s.withStaging f).resetHeld = s.resetHeld := rfl
@[simp] theorem State.withStaging_now (s : State) (f : Staging → Staging) : (s.withStaging f).now = s.now := rfl
@[simp] theorem State.withStaging_carrier (s : State) (f : Staging → Staging) : (s.withStaging f).carrier = s.carrier := rfl
@[simp] theorem State.withStaging_levels (s : State) (f : Staging → Staging) : (s.withStaging f).levels = s.levels := rfl
@[simp] theorem State.withStaging_part (s : State) (f : Staging → Staging) : (s.withStaging f).part = s.part := rfl
@[simp] theorem State.withStaging_listenTimer (s : State) (f : Staging → Staging) : (s.withStaging f).listenTimer = s.listenTimer := rfl
@[simp] theorem State.withStaging_cause (s : State) (f : Staging → Staging) : (s.withStaging f).cause = s.cause := rfl
@[simp] theorem State.withStaging_image (s : State) (f : Staging → Staging) : (s.withStaging f).image = s.image := rfl
@[simp] theorem State.withStaging_settings (s : State) (f : Staging → Staging) : (s.withStaging f).settings = s.settings := rfl
@[simp] theorem State.withStaging_clamped (s : State) (f : Staging → Staging) : (s.withStaging f).clamped = s.clamped := rfl
@[simp] theorem State.withStaging_counts (s : State) (f : Staging → Staging) : (s.withStaging f).counts = s.counts := rfl
@[simp] theorem State.withStaging_trunk (s : State) (f : Staging → Staging) : (s.withStaging f).trunk = s.trunk := rfl
@[simp] theorem State.withStaging_commands (s : State) (f : Staging → Staging) : (s.withStaging f).commands = s.commands := rfl
@[simp] theorem State.withStaging_book (s : State) (f : Staging → Staging) : (s.withStaging f).book = s.book := rfl
@[simp] theorem State.withStaging_lanes (s : State) (f : Staging → Staging) : (s.withStaging f).lanes = s.lanes := rfl
@[simp] theorem State.withStaging_journal (s : State) (f : Staging → Staging) : (s.withStaging f).journal = s.journal := rfl
@[simp] theorem State.withStaging_labels (s : State) (f : Staging → Staging) : (s.withStaging f).labels = s.labels := rfl
@[simp] theorem State.withStaging_fwd (s : State) (f : Staging → Staging) : (s.withStaging f).fwd = s.fwd := rfl
@[simp] theorem State.withStaging_link (s : State) (f : Staging → Staging) : (s.withStaging f).link = s.link := rfl
@[simp] theorem State.withStaging_staging (s : State) (f : Staging → Staging) : (s.withStaging f).staging = f s.staging := rfl
@[simp] theorem State.withStaging_unit (s : State) (f : Staging → Staging) : (s.withStaging f).unit = s.unit := rfl
@[simp] theorem State.withStaging_alerts (s : State) (f : Staging → Staging) : (s.withStaging f).alerts = s.alerts := rfl
@[simp] theorem State.withStaging_out (s : State) (f : Staging → Staging) : (s.withStaging f).out = s.out := rfl
@[simp] theorem State.withStaging_fresh (s : State) (f : Staging → Staging) : (s.withStaging f).fresh = s.fresh := rfl
@[simp] theorem State.withStaging_pending (s : State) (f : Staging → Staging) : (s.withStaging f).pending = s.pending := rfl

/-! ### `withUnit` -/

@[simp] theorem State.withUnit_powered (s : State) (f : ModeUnit → ModeUnit) : (s.withUnit f).powered = s.powered := rfl
@[simp] theorem State.withUnit_resetHeld (s : State) (f : ModeUnit → ModeUnit) : (s.withUnit f).resetHeld = s.resetHeld := rfl
@[simp] theorem State.withUnit_now (s : State) (f : ModeUnit → ModeUnit) : (s.withUnit f).now = s.now := rfl
@[simp] theorem State.withUnit_carrier (s : State) (f : ModeUnit → ModeUnit) : (s.withUnit f).carrier = s.carrier := rfl
@[simp] theorem State.withUnit_levels (s : State) (f : ModeUnit → ModeUnit) : (s.withUnit f).levels = s.levels := rfl
@[simp] theorem State.withUnit_part (s : State) (f : ModeUnit → ModeUnit) : (s.withUnit f).part = s.part := rfl
@[simp] theorem State.withUnit_listenTimer (s : State) (f : ModeUnit → ModeUnit) : (s.withUnit f).listenTimer = s.listenTimer := rfl
@[simp] theorem State.withUnit_cause (s : State) (f : ModeUnit → ModeUnit) : (s.withUnit f).cause = s.cause := rfl
@[simp] theorem State.withUnit_image (s : State) (f : ModeUnit → ModeUnit) : (s.withUnit f).image = s.image := rfl
@[simp] theorem State.withUnit_settings (s : State) (f : ModeUnit → ModeUnit) : (s.withUnit f).settings = s.settings := rfl
@[simp] theorem State.withUnit_clamped (s : State) (f : ModeUnit → ModeUnit) : (s.withUnit f).clamped = s.clamped := rfl
@[simp] theorem State.withUnit_counts (s : State) (f : ModeUnit → ModeUnit) : (s.withUnit f).counts = s.counts := rfl
@[simp] theorem State.withUnit_trunk (s : State) (f : ModeUnit → ModeUnit) : (s.withUnit f).trunk = s.trunk := rfl
@[simp] theorem State.withUnit_commands (s : State) (f : ModeUnit → ModeUnit) : (s.withUnit f).commands = s.commands := rfl
@[simp] theorem State.withUnit_book (s : State) (f : ModeUnit → ModeUnit) : (s.withUnit f).book = s.book := rfl
@[simp] theorem State.withUnit_lanes (s : State) (f : ModeUnit → ModeUnit) : (s.withUnit f).lanes = s.lanes := rfl
@[simp] theorem State.withUnit_journal (s : State) (f : ModeUnit → ModeUnit) : (s.withUnit f).journal = s.journal := rfl
@[simp] theorem State.withUnit_labels (s : State) (f : ModeUnit → ModeUnit) : (s.withUnit f).labels = s.labels := rfl
@[simp] theorem State.withUnit_fwd (s : State) (f : ModeUnit → ModeUnit) : (s.withUnit f).fwd = s.fwd := rfl
@[simp] theorem State.withUnit_link (s : State) (f : ModeUnit → ModeUnit) : (s.withUnit f).link = s.link := rfl
@[simp] theorem State.withUnit_staging (s : State) (f : ModeUnit → ModeUnit) : (s.withUnit f).staging = s.staging := rfl
@[simp] theorem State.withUnit_unit (s : State) (f : ModeUnit → ModeUnit) : (s.withUnit f).unit = f s.unit := rfl
@[simp] theorem State.withUnit_alerts (s : State) (f : ModeUnit → ModeUnit) : (s.withUnit f).alerts = s.alerts := rfl
@[simp] theorem State.withUnit_out (s : State) (f : ModeUnit → ModeUnit) : (s.withUnit f).out = s.out := rfl
@[simp] theorem State.withUnit_fresh (s : State) (f : ModeUnit → ModeUnit) : (s.withUnit f).fresh = s.fresh := rfl
@[simp] theorem State.withUnit_pending (s : State) (f : ModeUnit → ModeUnit) : (s.withUnit f).pending = s.pending := rfl

/-! ### `withLane` -/

@[simp] theorem State.withLane_powered (s : State) (l : LaneNo) (f : Lane → Lane) : (s.withLane l f).powered = s.powered := rfl
@[simp] theorem State.withLane_resetHeld (s : State) (l : LaneNo) (f : Lane → Lane) : (s.withLane l f).resetHeld = s.resetHeld := rfl
@[simp] theorem State.withLane_now (s : State) (l : LaneNo) (f : Lane → Lane) : (s.withLane l f).now = s.now := rfl
@[simp] theorem State.withLane_carrier (s : State) (l : LaneNo) (f : Lane → Lane) : (s.withLane l f).carrier = s.carrier := rfl
@[simp] theorem State.withLane_levels (s : State) (l : LaneNo) (f : Lane → Lane) : (s.withLane l f).levels = s.levels := rfl
@[simp] theorem State.withLane_part (s : State) (l : LaneNo) (f : Lane → Lane) : (s.withLane l f).part = s.part := rfl
@[simp] theorem State.withLane_listenTimer (s : State) (l : LaneNo) (f : Lane → Lane) : (s.withLane l f).listenTimer = s.listenTimer := rfl
@[simp] theorem State.withLane_cause (s : State) (l : LaneNo) (f : Lane → Lane) : (s.withLane l f).cause = s.cause := rfl
@[simp] theorem State.withLane_image (s : State) (l : LaneNo) (f : Lane → Lane) : (s.withLane l f).image = s.image := rfl
@[simp] theorem State.withLane_settings (s : State) (l : LaneNo) (f : Lane → Lane) : (s.withLane l f).settings = s.settings := rfl
@[simp] theorem State.withLane_clamped (s : State) (l : LaneNo) (f : Lane → Lane) : (s.withLane l f).clamped = s.clamped := rfl
@[simp] theorem State.withLane_counts (s : State) (l : LaneNo) (f : Lane → Lane) : (s.withLane l f).counts = s.counts := rfl
@[simp] theorem State.withLane_trunk (s : State) (l : LaneNo) (f : Lane → Lane) : (s.withLane l f).trunk = s.trunk := rfl
@[simp] theorem State.withLane_commands (s : State) (l : LaneNo) (f : Lane → Lane) : (s.withLane l f).commands = s.commands := rfl
@[simp] theorem State.withLane_book (s : State) (l : LaneNo) (f : Lane → Lane) : (s.withLane l f).book = s.book := rfl
@[simp] theorem State.withLane_lanes (s : State) (l : LaneNo) (f : Lane → Lane) : (s.withLane l f).lanes = s.lanes.set l.val (f (s.lanes.get l)) l.isLt := rfl
@[simp] theorem State.withLane_journal (s : State) (l : LaneNo) (f : Lane → Lane) : (s.withLane l f).journal = s.journal := rfl
@[simp] theorem State.withLane_labels (s : State) (l : LaneNo) (f : Lane → Lane) : (s.withLane l f).labels = s.labels := rfl
@[simp] theorem State.withLane_fwd (s : State) (l : LaneNo) (f : Lane → Lane) : (s.withLane l f).fwd = s.fwd := rfl
@[simp] theorem State.withLane_link (s : State) (l : LaneNo) (f : Lane → Lane) : (s.withLane l f).link = s.link := rfl
@[simp] theorem State.withLane_staging (s : State) (l : LaneNo) (f : Lane → Lane) : (s.withLane l f).staging = s.staging := rfl
@[simp] theorem State.withLane_unit (s : State) (l : LaneNo) (f : Lane → Lane) : (s.withLane l f).unit = s.unit := rfl
@[simp] theorem State.withLane_alerts (s : State) (l : LaneNo) (f : Lane → Lane) : (s.withLane l f).alerts = s.alerts := rfl
@[simp] theorem State.withLane_out (s : State) (l : LaneNo) (f : Lane → Lane) : (s.withLane l f).out = s.out := rfl
@[simp] theorem State.withLane_fresh (s : State) (l : LaneNo) (f : Lane → Lane) : (s.withLane l f).fresh = s.fresh := rfl
@[simp] theorem State.withLane_pending (s : State) (l : LaneNo) (f : Lane → Lane) : (s.withLane l f).pending = s.pending := rfl

/-! ### `withPeer` -/

@[simp] theorem State.withPeer_powered (s : State) (n : Station) (f : Peer → Peer) : (s.withPeer n f).powered = s.powered := rfl
@[simp] theorem State.withPeer_resetHeld (s : State) (n : Station) (f : Peer → Peer) : (s.withPeer n f).resetHeld = s.resetHeld := rfl
@[simp] theorem State.withPeer_now (s : State) (n : Station) (f : Peer → Peer) : (s.withPeer n f).now = s.now := rfl
@[simp] theorem State.withPeer_carrier (s : State) (n : Station) (f : Peer → Peer) : (s.withPeer n f).carrier = s.carrier := rfl
@[simp] theorem State.withPeer_levels (s : State) (n : Station) (f : Peer → Peer) : (s.withPeer n f).levels = s.levels := rfl
@[simp] theorem State.withPeer_part (s : State) (n : Station) (f : Peer → Peer) : (s.withPeer n f).part = s.part := rfl
@[simp] theorem State.withPeer_listenTimer (s : State) (n : Station) (f : Peer → Peer) : (s.withPeer n f).listenTimer = s.listenTimer := rfl
@[simp] theorem State.withPeer_cause (s : State) (n : Station) (f : Peer → Peer) : (s.withPeer n f).cause = s.cause := rfl
@[simp] theorem State.withPeer_image (s : State) (n : Station) (f : Peer → Peer) : (s.withPeer n f).image = s.image := rfl
@[simp] theorem State.withPeer_settings (s : State) (n : Station) (f : Peer → Peer) : (s.withPeer n f).settings = s.settings := rfl
@[simp] theorem State.withPeer_clamped (s : State) (n : Station) (f : Peer → Peer) : (s.withPeer n f).clamped = s.clamped := rfl
@[simp] theorem State.withPeer_counts (s : State) (n : Station) (f : Peer → Peer) : (s.withPeer n f).counts = s.counts := rfl
@[simp] theorem State.withPeer_trunk (s : State) (n : Station) (f : Peer → Peer) : (s.withPeer n f).trunk = { s.trunk with peers := s.trunk.peers.set n.val (f (s.trunk.peers.get n)) n.isLt } := rfl
@[simp] theorem State.withPeer_commands (s : State) (n : Station) (f : Peer → Peer) : (s.withPeer n f).commands = s.commands := rfl
@[simp] theorem State.withPeer_book (s : State) (n : Station) (f : Peer → Peer) : (s.withPeer n f).book = s.book := rfl
@[simp] theorem State.withPeer_lanes (s : State) (n : Station) (f : Peer → Peer) : (s.withPeer n f).lanes = s.lanes := rfl
@[simp] theorem State.withPeer_journal (s : State) (n : Station) (f : Peer → Peer) : (s.withPeer n f).journal = s.journal := rfl
@[simp] theorem State.withPeer_labels (s : State) (n : Station) (f : Peer → Peer) : (s.withPeer n f).labels = s.labels := rfl
@[simp] theorem State.withPeer_fwd (s : State) (n : Station) (f : Peer → Peer) : (s.withPeer n f).fwd = s.fwd := rfl
@[simp] theorem State.withPeer_link (s : State) (n : Station) (f : Peer → Peer) : (s.withPeer n f).link = s.link := rfl
@[simp] theorem State.withPeer_staging (s : State) (n : Station) (f : Peer → Peer) : (s.withPeer n f).staging = s.staging := rfl
@[simp] theorem State.withPeer_unit (s : State) (n : Station) (f : Peer → Peer) : (s.withPeer n f).unit = s.unit := rfl
@[simp] theorem State.withPeer_alerts (s : State) (n : Station) (f : Peer → Peer) : (s.withPeer n f).alerts = s.alerts := rfl
@[simp] theorem State.withPeer_out (s : State) (n : Station) (f : Peer → Peer) : (s.withPeer n f).out = s.out := rfl
@[simp] theorem State.withPeer_fresh (s : State) (n : Station) (f : Peer → Peer) : (s.withPeer n f).fresh = s.fresh := rfl
@[simp] theorem State.withPeer_pending (s : State) (n : Station) (f : Peer → Peer) : (s.withPeer n f).pending = s.pending := rfl

/-! ### `emit` -/

@[simp] theorem State.emit_powered (s : State) (o : Output) : (s.emit o).powered = s.powered := rfl
@[simp] theorem State.emit_resetHeld (s : State) (o : Output) : (s.emit o).resetHeld = s.resetHeld := rfl
@[simp] theorem State.emit_now (s : State) (o : Output) : (s.emit o).now = s.now := rfl
@[simp] theorem State.emit_carrier (s : State) (o : Output) : (s.emit o).carrier = s.carrier := rfl
@[simp] theorem State.emit_levels (s : State) (o : Output) : (s.emit o).levels = s.levels := rfl
@[simp] theorem State.emit_part (s : State) (o : Output) : (s.emit o).part = s.part := rfl
@[simp] theorem State.emit_listenTimer (s : State) (o : Output) : (s.emit o).listenTimer = s.listenTimer := rfl
@[simp] theorem State.emit_cause (s : State) (o : Output) : (s.emit o).cause = s.cause := rfl
@[simp] theorem State.emit_image (s : State) (o : Output) : (s.emit o).image = s.image := rfl
@[simp] theorem State.emit_settings (s : State) (o : Output) : (s.emit o).settings = s.settings := rfl
@[simp] theorem State.emit_clamped (s : State) (o : Output) : (s.emit o).clamped = s.clamped := rfl
@[simp] theorem State.emit_counts (s : State) (o : Output) : (s.emit o).counts = s.counts := rfl
@[simp] theorem State.emit_trunk (s : State) (o : Output) : (s.emit o).trunk = s.trunk := rfl
@[simp] theorem State.emit_commands (s : State) (o : Output) : (s.emit o).commands = s.commands := rfl
@[simp] theorem State.emit_book (s : State) (o : Output) : (s.emit o).book = s.book := rfl
@[simp] theorem State.emit_lanes (s : State) (o : Output) : (s.emit o).lanes = s.lanes := rfl
@[simp] theorem State.emit_journal (s : State) (o : Output) : (s.emit o).journal = s.journal := rfl
@[simp] theorem State.emit_labels (s : State) (o : Output) : (s.emit o).labels = s.labels := rfl
@[simp] theorem State.emit_fwd (s : State) (o : Output) : (s.emit o).fwd = s.fwd := rfl
@[simp] theorem State.emit_link (s : State) (o : Output) : (s.emit o).link = s.link := rfl
@[simp] theorem State.emit_staging (s : State) (o : Output) : (s.emit o).staging = s.staging := rfl
@[simp] theorem State.emit_unit (s : State) (o : Output) : (s.emit o).unit = s.unit := rfl
@[simp] theorem State.emit_alerts (s : State) (o : Output) : (s.emit o).alerts = s.alerts := rfl
@[simp] theorem State.emit_out (s : State) (o : Output) : (s.emit o).out = s.out ++ [o] := rfl
@[simp] theorem State.emit_fresh (s : State) (o : Output) : (s.emit o).fresh = s.fresh := rfl
@[simp] theorem State.emit_pending (s : State) (o : Output) : (s.emit o).pending = s.pending := rfl

/-! ### `emitAll` -/

@[simp] theorem State.emitAll_powered (s : State) (os : List Output) : (s.emitAll os).powered = s.powered := rfl
@[simp] theorem State.emitAll_resetHeld (s : State) (os : List Output) : (s.emitAll os).resetHeld = s.resetHeld := rfl
@[simp] theorem State.emitAll_now (s : State) (os : List Output) : (s.emitAll os).now = s.now := rfl
@[simp] theorem State.emitAll_carrier (s : State) (os : List Output) : (s.emitAll os).carrier = s.carrier := rfl
@[simp] theorem State.emitAll_levels (s : State) (os : List Output) : (s.emitAll os).levels = s.levels := rfl
@[simp] theorem State.emitAll_part (s : State) (os : List Output) : (s.emitAll os).part = s.part := rfl
@[simp] theorem State.emitAll_listenTimer (s : State) (os : List Output) : (s.emitAll os).listenTimer = s.listenTimer := rfl
@[simp] theorem State.emitAll_cause (s : State) (os : List Output) : (s.emitAll os).cause = s.cause := rfl
@[simp] theorem State.emitAll_image (s : State) (os : List Output) : (s.emitAll os).image = s.image := rfl
@[simp] theorem State.emitAll_settings (s : State) (os : List Output) : (s.emitAll os).settings = s.settings := rfl
@[simp] theorem State.emitAll_clamped (s : State) (os : List Output) : (s.emitAll os).clamped = s.clamped := rfl
@[simp] theorem State.emitAll_counts (s : State) (os : List Output) : (s.emitAll os).counts = s.counts := rfl
@[simp] theorem State.emitAll_trunk (s : State) (os : List Output) : (s.emitAll os).trunk = s.trunk := rfl
@[simp] theorem State.emitAll_commands (s : State) (os : List Output) : (s.emitAll os).commands = s.commands := rfl
@[simp] theorem State.emitAll_book (s : State) (os : List Output) : (s.emitAll os).book = s.book := rfl
@[simp] theorem State.emitAll_lanes (s : State) (os : List Output) : (s.emitAll os).lanes = s.lanes := rfl
@[simp] theorem State.emitAll_journal (s : State) (os : List Output) : (s.emitAll os).journal = s.journal := rfl
@[simp] theorem State.emitAll_labels (s : State) (os : List Output) : (s.emitAll os).labels = s.labels := rfl
@[simp] theorem State.emitAll_fwd (s : State) (os : List Output) : (s.emitAll os).fwd = s.fwd := rfl
@[simp] theorem State.emitAll_link (s : State) (os : List Output) : (s.emitAll os).link = s.link := rfl
@[simp] theorem State.emitAll_staging (s : State) (os : List Output) : (s.emitAll os).staging = s.staging := rfl
@[simp] theorem State.emitAll_unit (s : State) (os : List Output) : (s.emitAll os).unit = s.unit := rfl
@[simp] theorem State.emitAll_alerts (s : State) (os : List Output) : (s.emitAll os).alerts = s.alerts := rfl
@[simp] theorem State.emitAll_out (s : State) (os : List Output) : (s.emitAll os).out = s.out ++ os := rfl
@[simp] theorem State.emitAll_fresh (s : State) (os : List Output) : (s.emitAll os).fresh = s.fresh := rfl
@[simp] theorem State.emitAll_pending (s : State) (os : List Output) : (s.emitAll os).pending = s.pending := rfl

/-! ### `reach` -/

@[simp] theorem State.reach_powered (s : State) (d : Nat) : (s.reach d).powered = s.powered := rfl
@[simp] theorem State.reach_resetHeld (s : State) (d : Nat) : (s.reach d).resetHeld = s.resetHeld := rfl
@[simp] theorem State.reach_now (s : State) (d : Nat) : (s.reach d).now = max s.now d := rfl
@[simp] theorem State.reach_carrier (s : State) (d : Nat) : (s.reach d).carrier = s.carrier := rfl
@[simp] theorem State.reach_levels (s : State) (d : Nat) : (s.reach d).levels = s.levels := rfl
@[simp] theorem State.reach_part (s : State) (d : Nat) : (s.reach d).part = s.part := rfl
@[simp] theorem State.reach_listenTimer (s : State) (d : Nat) : (s.reach d).listenTimer = s.listenTimer := rfl
@[simp] theorem State.reach_cause (s : State) (d : Nat) : (s.reach d).cause = s.cause := rfl
@[simp] theorem State.reach_image (s : State) (d : Nat) : (s.reach d).image = s.image := rfl
@[simp] theorem State.reach_settings (s : State) (d : Nat) : (s.reach d).settings = s.settings := rfl
@[simp] theorem State.reach_clamped (s : State) (d : Nat) : (s.reach d).clamped = s.clamped := rfl
@[simp] theorem State.reach_counts (s : State) (d : Nat) : (s.reach d).counts = s.counts := rfl
@[simp] theorem State.reach_trunk (s : State) (d : Nat) : (s.reach d).trunk = s.trunk := rfl
@[simp] theorem State.reach_commands (s : State) (d : Nat) : (s.reach d).commands = s.commands := rfl
@[simp] theorem State.reach_book (s : State) (d : Nat) : (s.reach d).book = s.book := rfl
@[simp] theorem State.reach_lanes (s : State) (d : Nat) : (s.reach d).lanes = s.lanes := rfl
@[simp] theorem State.reach_journal (s : State) (d : Nat) : (s.reach d).journal = s.journal := rfl
@[simp] theorem State.reach_labels (s : State) (d : Nat) : (s.reach d).labels = s.labels := rfl
@[simp] theorem State.reach_fwd (s : State) (d : Nat) : (s.reach d).fwd = s.fwd := rfl
@[simp] theorem State.reach_link (s : State) (d : Nat) : (s.reach d).link = s.link := rfl
@[simp] theorem State.reach_staging (s : State) (d : Nat) : (s.reach d).staging = s.staging := rfl
@[simp] theorem State.reach_unit (s : State) (d : Nat) : (s.reach d).unit = s.unit := rfl
@[simp] theorem State.reach_alerts (s : State) (d : Nat) : (s.reach d).alerts = s.alerts := rfl
@[simp] theorem State.reach_out (s : State) (d : Nat) : (s.reach d).out = s.out := rfl
@[simp] theorem State.reach_fresh (s : State) (d : Nat) : (s.reach d).fresh = s.fresh := rfl
@[simp] theorem State.reach_pending (s : State) (d : Nat) : (s.reach d).pending = s.pending := rfl

/-! ### `bumpBy` and `bump` -/

@[simp] theorem State.bumpBy_powered (s : State) (c : Count) (n : Nat) : (s.bumpBy c n).powered = s.powered := by
  unfold State.bumpBy; split <;> rfl
@[simp] theorem State.bumpBy_resetHeld (s : State) (c : Count) (n : Nat) : (s.bumpBy c n).resetHeld = s.resetHeld := by
  unfold State.bumpBy; split <;> rfl
@[simp] theorem State.bumpBy_now (s : State) (c : Count) (n : Nat) : (s.bumpBy c n).now = s.now := by
  unfold State.bumpBy; split <;> rfl
@[simp] theorem State.bumpBy_carrier (s : State) (c : Count) (n : Nat) : (s.bumpBy c n).carrier = s.carrier := by
  unfold State.bumpBy; split <;> rfl
@[simp] theorem State.bumpBy_levels (s : State) (c : Count) (n : Nat) : (s.bumpBy c n).levels = s.levels := by
  unfold State.bumpBy; split <;> rfl
@[simp] theorem State.bumpBy_part (s : State) (c : Count) (n : Nat) : (s.bumpBy c n).part = s.part := by
  unfold State.bumpBy; split <;> rfl
@[simp] theorem State.bumpBy_listenTimer (s : State) (c : Count) (n : Nat) : (s.bumpBy c n).listenTimer = s.listenTimer := by
  unfold State.bumpBy; split <;> rfl
@[simp] theorem State.bumpBy_cause (s : State) (c : Count) (n : Nat) : (s.bumpBy c n).cause = s.cause := by
  unfold State.bumpBy; split <;> rfl
@[simp] theorem State.bumpBy_image (s : State) (c : Count) (n : Nat) : (s.bumpBy c n).image = s.image := by
  unfold State.bumpBy; split <;> rfl
@[simp] theorem State.bumpBy_settings (s : State) (c : Count) (n : Nat) : (s.bumpBy c n).settings = s.settings := by
  unfold State.bumpBy; split <;> rfl
@[simp] theorem State.bumpBy_clamped (s : State) (c : Count) (n : Nat) : (s.bumpBy c n).clamped = s.clamped := by
  unfold State.bumpBy; split <;> rfl
@[simp] theorem State.bumpBy_trunk (s : State) (c : Count) (n : Nat) : (s.bumpBy c n).trunk = s.trunk := by
  unfold State.bumpBy; split <;> rfl
@[simp] theorem State.bumpBy_commands (s : State) (c : Count) (n : Nat) : (s.bumpBy c n).commands = s.commands := by
  unfold State.bumpBy; split <;> rfl
@[simp] theorem State.bumpBy_book (s : State) (c : Count) (n : Nat) : (s.bumpBy c n).book = s.book := by
  unfold State.bumpBy; split <;> rfl
@[simp] theorem State.bumpBy_lanes (s : State) (c : Count) (n : Nat) : (s.bumpBy c n).lanes = s.lanes := by
  unfold State.bumpBy; split <;> rfl
@[simp] theorem State.bumpBy_journal (s : State) (c : Count) (n : Nat) : (s.bumpBy c n).journal = s.journal := by
  unfold State.bumpBy; split <;> rfl
@[simp] theorem State.bumpBy_labels (s : State) (c : Count) (n : Nat) : (s.bumpBy c n).labels = s.labels := by
  unfold State.bumpBy; split <;> rfl
@[simp] theorem State.bumpBy_fwd (s : State) (c : Count) (n : Nat) : (s.bumpBy c n).fwd = s.fwd := by
  unfold State.bumpBy; split <;> rfl
@[simp] theorem State.bumpBy_link (s : State) (c : Count) (n : Nat) : (s.bumpBy c n).link = s.link := by
  unfold State.bumpBy; split <;> rfl
@[simp] theorem State.bumpBy_staging (s : State) (c : Count) (n : Nat) : (s.bumpBy c n).staging = s.staging := by
  unfold State.bumpBy; split <;> rfl
@[simp] theorem State.bumpBy_unit (s : State) (c : Count) (n : Nat) : (s.bumpBy c n).unit = s.unit := by
  unfold State.bumpBy; split <;> rfl
@[simp] theorem State.bumpBy_alerts (s : State) (c : Count) (n : Nat) : (s.bumpBy c n).alerts = s.alerts := by
  unfold State.bumpBy; split <;> rfl
@[simp] theorem State.bumpBy_out (s : State) (c : Count) (n : Nat) : (s.bumpBy c n).out = s.out := by
  unfold State.bumpBy; split <;> rfl
@[simp] theorem State.bumpBy_fresh (s : State) (c : Count) (n : Nat) : (s.bumpBy c n).fresh = s.fresh := by
  unfold State.bumpBy; split <;> rfl
@[simp] theorem State.bumpBy_pending (s : State) (c : Count) (n : Nat) : (s.bumpBy c n).pending = s.pending := by
  unfold State.bumpBy; split <;> rfl

@[simp] theorem State.bump_powered (s : State) (c : Count) : (s.bump c).powered = s.powered := State.bumpBy_powered s c 1
@[simp] theorem State.bump_resetHeld (s : State) (c : Count) : (s.bump c).resetHeld = s.resetHeld := State.bumpBy_resetHeld s c 1
@[simp] theorem State.bump_now (s : State) (c : Count) : (s.bump c).now = s.now := State.bumpBy_now s c 1
@[simp] theorem State.bump_carrier (s : State) (c : Count) : (s.bump c).carrier = s.carrier := State.bumpBy_carrier s c 1
@[simp] theorem State.bump_levels (s : State) (c : Count) : (s.bump c).levels = s.levels := State.bumpBy_levels s c 1
@[simp] theorem State.bump_part (s : State) (c : Count) : (s.bump c).part = s.part := State.bumpBy_part s c 1
@[simp] theorem State.bump_listenTimer (s : State) (c : Count) : (s.bump c).listenTimer = s.listenTimer := State.bumpBy_listenTimer s c 1
@[simp] theorem State.bump_cause (s : State) (c : Count) : (s.bump c).cause = s.cause := State.bumpBy_cause s c 1
@[simp] theorem State.bump_image (s : State) (c : Count) : (s.bump c).image = s.image := State.bumpBy_image s c 1
@[simp] theorem State.bump_settings (s : State) (c : Count) : (s.bump c).settings = s.settings := State.bumpBy_settings s c 1
@[simp] theorem State.bump_clamped (s : State) (c : Count) : (s.bump c).clamped = s.clamped := State.bumpBy_clamped s c 1
@[simp] theorem State.bump_trunk (s : State) (c : Count) : (s.bump c).trunk = s.trunk := State.bumpBy_trunk s c 1
@[simp] theorem State.bump_commands (s : State) (c : Count) : (s.bump c).commands = s.commands := State.bumpBy_commands s c 1
@[simp] theorem State.bump_book (s : State) (c : Count) : (s.bump c).book = s.book := State.bumpBy_book s c 1
@[simp] theorem State.bump_lanes (s : State) (c : Count) : (s.bump c).lanes = s.lanes := State.bumpBy_lanes s c 1
@[simp] theorem State.bump_journal (s : State) (c : Count) : (s.bump c).journal = s.journal := State.bumpBy_journal s c 1
@[simp] theorem State.bump_labels (s : State) (c : Count) : (s.bump c).labels = s.labels := State.bumpBy_labels s c 1
@[simp] theorem State.bump_fwd (s : State) (c : Count) : (s.bump c).fwd = s.fwd := State.bumpBy_fwd s c 1
@[simp] theorem State.bump_link (s : State) (c : Count) : (s.bump c).link = s.link := State.bumpBy_link s c 1
@[simp] theorem State.bump_staging (s : State) (c : Count) : (s.bump c).staging = s.staging := State.bumpBy_staging s c 1
@[simp] theorem State.bump_unit (s : State) (c : Count) : (s.bump c).unit = s.unit := State.bumpBy_unit s c 1
@[simp] theorem State.bump_alerts (s : State) (c : Count) : (s.bump c).alerts = s.alerts := State.bumpBy_alerts s c 1
@[simp] theorem State.bump_out (s : State) (c : Count) : (s.bump c).out = s.out := State.bumpBy_out s c 1
@[simp] theorem State.bump_fresh (s : State) (c : Count) : (s.bump c).fresh = s.fresh := State.bumpBy_fresh s c 1
@[simp] theorem State.bump_pending (s : State) (c : Count) : (s.bump c).pending = s.pending := State.bumpBy_pending s c 1

end Sys2Proof.Machine
end

