-- ==== Sys2Proof/Laws/Frame.lean ====
section
/-! SUPPORT. The frame relation `keeps`, and what each primitive update of the state may change. -/

namespace Sys2Proof.Machine

open Sys2Proof

variable {fs gs : List Field} {s t u : State}

@[simp] theorem keeps.refl (fs : List Field) (s : State) : keeps fs s s := fun f _ => by cases f <;> rfl

theorem keeps.symm (h : keeps fs s t) : keeps fs t s := fun f hf => by
  have a := h f hf
  cases f <;> exact Eq.symm a

theorem keeps.trans (h : keeps fs s t) (h' : keeps fs t u) : keeps fs s u := fun f hf => by
  have a := h f hf
  have b := h' f hf
  cases f <;> exact Eq.trans b a

theorem keeps.mono (h : keeps gs s t) (hsub : gs ⊆ fs) : keeps fs s t := fun f hf => h f fun hg => hf (hsub hg)

/-- An operation that changes only fields of `fs` may be put after, or left out of, a run that changes only `fs`. -/
theorem keeps.iff (h : keeps gs t u) (hsub : gs ⊆ fs) : keeps fs s u ↔ keeps fs s t :=
  ⟨fun k => k.trans (h.mono hsub).symm, fun k => k.trans (h.mono hsub)⟩

/-- What two states agree in is shown field by field. -/
theorem keeps_of_fields (h : ∀ f, f ∉ fs → f.same s t) : keeps fs s t := h

/-- A fold of operations that change only `fs` changes only `fs`. -/
theorem foldl_keeps {α : Type} (g : State → α → State) (l : List α) (s : State)
    (h : ∀ t x, keeps fs t (g t x)) : keeps fs s (l.foldl g s) := by
  induction l generalizing s with
  | nil => exact keeps.refl fs s
  | cons x l ih => exact (h s x).trans (ih (g s x))

@[simp] theorem keeps_foldl {α : Type} (g : State → α → State) (l : List α)
    (h : ∀ t x, keeps fs t (g t x)) : keeps fs s (l.foldl g t) ↔ keeps fs s t :=
  (foldl_keeps g l t h).iff fun _ h => h

/-! ### Primitive updates -/

theorem State.withTrunk_keeps (s : State) (f : Trunk → Trunk) : keeps [.trunk] s (s.withTrunk f) := keeps_of_fields fun g h => by
  cases g <;> first | rfl | exact absurd (by decide) h

@[simp] theorem keeps_withTrunk (f : Trunk → Trunk) (hsub : [.trunk] ⊆ fs) :
    keeps fs s (t.withTrunk f) ↔ keeps fs s t := (State.withTrunk_keeps t f).iff hsub

theorem State.withCommands_keeps (s : State) (f : CommandMemory → CommandMemory) : keeps [.commands] s (s.withCommands f) := keeps_of_fields fun g h => by
  cases g <;> first | rfl | exact absurd (by decide) h

@[simp] theorem keeps_withCommands (f : CommandMemory → CommandMemory) (hsub : [.commands] ⊆ fs) :
    keeps fs s (t.withCommands f) ↔ keeps fs s t := (State.withCommands_keeps t f).iff hsub

theorem State.withBook_keeps (s : State) (f : Book → Book) : keeps [.book] s (s.withBook f) := keeps_of_fields fun g h => by
  cases g <;> first | rfl | exact absurd (by decide) h

@[simp] theorem keeps_withBook (f : Book → Book) (hsub : [.book] ⊆ fs) :
    keeps fs s (t.withBook f) ↔ keeps fs s t := (State.withBook_keeps t f).iff hsub

theorem State.withJournal_keeps (s : State) (f : Journal → Journal) : keeps [.journal] s (s.withJournal f) := keeps_of_fields fun g h => by
  cases g <;> first | rfl | exact absurd (by decide) h

@[simp] theorem keeps_withJournal (f : Journal → Journal) (hsub : [.journal] ⊆ fs) :
    keeps fs s (t.withJournal f) ↔ keeps fs s t := (State.withJournal_keeps t f).iff hsub

theorem State.withLabels_keeps (s : State) (f : Labels → Labels) : keeps [.labels] s (s.withLabels f) := keeps_of_fields fun g h => by
  cases g <;> first | rfl | exact absurd (by decide) h

@[simp] theorem keeps_withLabels (f : Labels → Labels) (hsub : [.labels] ⊆ fs) :
    keeps fs s (t.withLabels f) ↔ keeps fs s t := (State.withLabels_keeps t f).iff hsub

theorem State.withFwd_keeps (s : State) (f : Forwarding → Forwarding) : keeps [.fwd] s (s.withFwd f) := keeps_of_fields fun g h => by
  cases g <;> first | rfl | exact absurd (by decide) h

@[simp] theorem keeps_withFwd (f : Forwarding → Forwarding) (hsub : [.fwd] ⊆ fs) :
    keeps fs s (t.withFwd f) ↔ keeps fs s t := (State.withFwd_keeps t f).iff hsub

theorem State.withLink_keeps (s : State) (f : Link → Link) : keeps [.link] s (s.withLink f) := keeps_of_fields fun g h => by
  cases g <;> first | rfl | exact absurd (by decide) h

@[simp] theorem keeps_withLink (f : Link → Link) (hsub : [.link] ⊆ fs) :
    keeps fs s (t.withLink f) ↔ keeps fs s t := (State.withLink_keeps t f).iff hsub

theorem State.withStaging_keeps (s : State) (f : Staging → Staging) : keeps [.staging] s (s.withStaging f) := keeps_of_fields fun g h => by
  cases g <;> first | rfl | exact absurd (by decide) h

@[simp] theorem keeps_withStaging (f : Staging → Staging) (hsub : [.staging] ⊆ fs) :
    keeps fs s (t.withStaging f) ↔ keeps fs s t := (State.withStaging_keeps t f).iff hsub

theorem State.withUnit_keeps (s : State) (f : ModeUnit → ModeUnit) : keeps [.unit] s (s.withUnit f) := keeps_of_fields fun g h => by
  cases g <;> first | rfl | exact absurd (by decide) h

@[simp] theorem keeps_withUnit (f : ModeUnit → ModeUnit) (hsub : [.unit] ⊆ fs) :
    keeps fs s (t.withUnit f) ↔ keeps fs s t := (State.withUnit_keeps t f).iff hsub

theorem State.withLane_keeps (s : State) (l : LaneNo) (f : Lane → Lane) : keeps [.lanes] s (s.withLane l f) := keeps_of_fields fun g h => by
  cases g <;> first | rfl | exact absurd (by decide) h

@[simp] theorem keeps_withLane (l : LaneNo) (f : Lane → Lane) (hsub : [.lanes] ⊆ fs) :
    keeps fs s (t.withLane l f) ↔ keeps fs s t := (State.withLane_keeps t l f).iff hsub

theorem State.withPeer_keeps (s : State) (n : Station) (f : Peer → Peer) : keeps [.trunk] s (s.withPeer n f) := keeps_of_fields fun g h => by
  cases g <;> first | rfl | exact absurd (by decide) h

@[simp] theorem keeps_withPeer (n : Station) (f : Peer → Peer) (hsub : [.trunk] ⊆ fs) :
    keeps fs s (t.withPeer n f) ↔ keeps fs s t := (State.withPeer_keeps t n f).iff hsub

theorem State.emit_keeps (s : State) (o : Output) : keeps [.out] s (s.emit o) := keeps_of_fields fun g h => by
  cases g <;> first | rfl | exact absurd (by decide) h

@[simp] theorem keeps_emit (o : Output) (hsub : [.out] ⊆ fs) :
    keeps fs s (t.emit o) ↔ keeps fs s t := (State.emit_keeps t o).iff hsub

theorem State.emitAll_keeps (s : State) (os : List Output) : keeps [.out] s (s.emitAll os) := keeps_of_fields fun g h => by
  cases g <;> first | rfl | exact absurd (by decide) h

@[simp] theorem keeps_emitAll (os : List Output) (hsub : [.out] ⊆ fs) :
    keeps fs s (t.emitAll os) ↔ keeps fs s t := (State.emitAll_keeps t os).iff hsub

theorem State.reach_keeps (s : State) (d : Nat) : keeps [.now] s (s.reach d) := keeps_of_fields fun g h => by
  cases g <;> first | rfl | exact absurd (by decide) h

@[simp] theorem keeps_reach (d : Nat) (hsub : [.now] ⊆ fs) :
    keeps fs s (t.reach d) ↔ keeps fs s t := (State.reach_keeps t d).iff hsub

theorem State.bumpBy_keeps (s : State) (c : Count) (n : Nat) : keeps [.counts] s (s.bumpBy c n) := by
  unfold State.bumpBy; split
  · exact keeps.refl _ _
  · refine keeps_of_fields fun g h => ?_
    cases g <;> first | rfl | exact absurd (by decide) h

@[simp] theorem keeps_bumpBy (c : Count) (n : Nat) (hsub : [.counts] ⊆ fs) :
    keeps fs s (t.bumpBy c n) ↔ keeps fs s t := (State.bumpBy_keeps t c n).iff hsub

theorem State.bump_keeps (s : State) (c : Count) : keeps [.counts] s (s.bump c) := State.bumpBy_keeps s c 1

@[simp] theorem keeps_bump (c : Count) (hsub : [.counts] ⊆ fs) :
    keeps fs s (t.bump c) ↔ keeps fs s t := (State.bump_keeps t c).iff hsub

theorem State.drawCycle_keeps (s : State) : keeps [.fresh] s (s.drawCycle.2) := keeps_of_fields fun g h => by
  cases g <;> first | rfl | exact absurd (by decide) h

@[simp] theorem keeps_drawCycle (hsub : [.fresh] ⊆ fs) :
    keeps fs s (t.drawCycle.2) ↔ keeps fs s t := (State.drawCycle_keeps t).iff hsub

end Sys2Proof.Machine
end

