-- ==== Sys2Proof/Laws/BookFrame.lean ====
section
/-! SUPPORT. What each shared operation of the alert list, the trunk queues, the label table, the price book and the journal
may change. -/

namespace Sys2Proof.Machine

open Sys2Proof

variable {fs gs : List Field} {s t u : State}

/-! ### Alerts and the trunk queues -/

theorem keeps_setAlerts (a : AlertList) (h : .alerts ∈ fs) :
    keeps fs s { t with alerts := a } ↔ keeps fs s t :=
  keeps.iff (gs := [.alerts])
    (keeps_of_fields fun g h => by cases g <;> first | rfl | exact absurd (by decide) h)
    (List.cons_subset.2 ⟨h, List.nil_subset _⟩)

theorem keeps_setFwd (w : Forwarding) (h : .fwd ∈ fs) :
    keeps fs s { t with fwd := w } ↔ keeps fs s t :=
  keeps.iff (gs := [.fwd])
    (keeps_of_fields fun g h => by cases g <;> first | rfl | exact absurd (by decide) h)
    (List.cons_subset.2 ⟨h, List.nil_subset _⟩)

theorem State.recordAlert_keeps (s : State) (k : AlertKind) (v : Severity) (x : Subject) (d : Detail) : keeps [.counts, .alerts] s (s.recordAlert k v x d) := by
  unfold State.recordAlert
  refine (keeps_setAlerts _ (by decide)).2 ?_
  split <;> simp

@[simp] theorem keeps_recordAlert (k : AlertKind) (v : Severity) (x : Subject) (d : Detail) (hsub : [.counts, .alerts] ⊆ fs) :
    keeps fs s (t.recordAlert k v x d) ↔ keeps fs s t := (State.recordAlert_keeps t k v x d).iff hsub

theorem State.offer_keeps (s : State) (f : Frame) : keeps [.trunk, .counts] s (s.offer f).2 := by
  unfold State.offer
  dsimp only
  repeat' split
  all_goals simp

@[simp] theorem keeps_offer (f : Frame) (h : [.trunk, .counts] ⊆ fs) : keeps fs s (t.offer f).2 ↔ keeps fs s t :=
  (State.offer_keeps t f).iff h

theorem State.send_keeps (s : State) (f : Frame) : keeps [.trunk, .counts] s (s.send f) := State.offer_keeps s f

@[simp] theorem keeps_send (f : Frame) (hsub : [.trunk, .counts] ⊆ fs) :
    keeps fs s (t.send f) ↔ keeps fs s t := (State.send_keeps t f).iff hsub

/-! ### The label table -/

theorem State.modifyEntry_keeps (s : State) (a : Nat) (f : Entry → Entry) : keeps [.book] s (s.modifyEntry a f) := by
  unfold State.modifyEntry
  simp

@[simp] theorem keeps_modifyEntry (a : Nat) (f : Entry → Entry) (hsub : [.book] ⊆ fs) :
    keeps fs s (t.modifyEntry a f) ↔ keeps fs s t := (State.modifyEntry_keeps t a f).iff hsub

theorem State.countBound_keeps (s : State) (a : Nat) : keeps [.book] s (s.countBound a) := by
  unfold State.countBound
  simp

@[simp] theorem keeps_countBound (a : Nat) (hsub : [.book] ⊆ fs) :
    keeps fs s (t.countBound a) ↔ keeps fs s t := (State.countBound_keeps t a).iff hsub

theorem State.uncountBound_keeps (s : State) (a : Nat) : keeps [.book] s (s.uncountBound a) := by
  unfold State.uncountBound
  simp

@[simp] theorem keeps_uncountBound (a : Nat) (hsub : [.book] ⊆ fs) :
    keeps fs s (t.uncountBound a) ↔ keeps fs s t := (State.uncountBound_keeps t a).iff hsub

theorem State.uncountOpt_keeps (s : State) (a : Option Nat) : keeps [.book] s (s.uncountOpt a) := by
  unfold State.uncountOpt
  repeat' split
  all_goals simp

@[simp] theorem keeps_uncountOpt (a : Option Nat) (hsub : [.book] ⊆ fs) :
    keeps fs s (t.uncountOpt a) ↔ keeps fs s t := (State.uncountOpt_keeps t a).iff hsub

theorem State.putOwned_keeps (s : State) (l : Nat) (o : Owned) : keeps [.labels] s (s.putOwned l o) := by
  unfold State.putOwned
  simp

@[simp] theorem keeps_putOwned (l : Nat) (o : Owned) (hsub : [.labels] ⊆ fs) :
    keeps fs s (t.putOwned l o) ↔ keeps fs s t := (State.putOwned_keeps t l o).iff hsub

theorem State.putHeard_keeps (s : State) (l : Nat) (o : Heard) : keeps [.labels] s (s.putHeard l o) := by
  unfold State.putHeard
  simp

@[simp] theorem keeps_putHeard (l : Nat) (o : Heard) (hsub : [.labels] ⊆ fs) :
    keeps fs s (t.putHeard l o) ↔ keeps fs s t := (State.putHeard_keeps t l o).iff hsub

theorem State.refuseClaim_keeps (s : State) (l : Nat) (c : Station) (y : Option Int) : keeps [.trunk, .counts] s (s.refuseClaim l c y) := by
  unfold State.refuseClaim
  simp

@[simp] theorem keeps_refuseClaim (l : Nat) (c : Station) (y : Option Int) (hsub : [.trunk, .counts] ⊆ fs) :
    keeps fs s (t.refuseClaim l c y) ↔ keeps fs s t := (State.refuseClaim_keeps t l c y).iff hsub

theorem State.retarget_keeps (s : State) (l : Nat) (x : Target) : keeps [.labels, .trunk, .counts] s (s.retarget l x) := by
  unfold State.retarget
  dsimp only
  repeat' split
  all_goals simp

@[simp] theorem keeps_retarget (l : Nat) (x : Target) (hsub : [.labels, .trunk, .counts] ⊆ fs) :
    keeps fs s (t.retarget l x) ↔ keeps fs s t := (State.retarget_keeps t l x).iff hsub

theorem State.mark_keeps (s : State) (a : Nat) (x : Target) : keeps [.labels, .trunk, .counts] s (s.mark a x) := by
  unfold State.mark
  simp

@[simp] theorem keeps_mark (a : Nat) (x : Target) (hsub : [.labels, .trunk, .counts] ⊆ fs) :
    keeps fs s (t.mark a x) ↔ keeps fs s t := (State.mark_keeps t a x).iff hsub

theorem State.unbindOne_keeps (s : State) (a l : Nat) : keeps [.book, .labels, .trunk, .counts] s (s.unbindOne a l) := by
  unfold State.unbindOne
  repeat' split
  all_goals simp

@[simp] theorem keeps_unbindOne (a l : Nat) (hsub : [.book, .labels, .trunk, .counts] ⊆ fs) :
    keeps fs s (t.unbindOne a l) ↔ keeps fs s t := (State.unbindOne_keeps t a l).iff hsub

theorem State.unbindAll_keeps (s : State) (a : Nat) : keeps [.book, .labels, .trunk, .counts] s (s.unbindAll a) := by
  unfold State.unbindAll
  simp

@[simp] theorem keeps_unbindAll (a : Nat) (hsub : [.book, .labels, .trunk, .counts] ⊆ fs) :
    keeps fs s (t.unbindAll a) ↔ keeps fs s t := (State.unbindAll_keeps t a).iff hsub

/-! ### The price book unit -/

theorem State.putEntry_keeps (s : State) (a : Nat) (e : Entry) : keeps [.book] s (s.putEntry a e) := by
  unfold State.putEntry
  simp

@[simp] theorem keeps_putEntry (a : Nat) (e : Entry) (hsub : [.book] ⊆ fs) :
    keeps fs s (t.putEntry a e) ↔ keeps fs s t := (State.putEntry_keeps t a e).iff hsub

theorem State.removeEntry_keeps (s : State) (a : Nat) : keeps [.book] s (s.removeEntry a) := by
  unfold State.removeEntry
  simp

@[simp] theorem keeps_removeEntry (a : Nat) (hsub : [.book] ⊆ fs) :
    keeps fs s (t.removeEntry a) ↔ keeps fs s t := (State.removeEntry_keeps t a).iff hsub

theorem State.complete_keeps (s : State) (a : Nat) (c : Changeover) : keeps [.book, .labels, .trunk, .counts] s (s.complete a c) := by
  unfold State.complete
  dsimp only
  repeat' split
  all_goals simp

@[simp] theorem keeps_complete (a : Nat) (c : Changeover) (hsub : [.book, .labels, .trunk, .counts] ⊆ fs) :
    keeps fs s (t.complete a c) ↔ keeps fs s t := (State.complete_keeps t a c).iff hsub

theorem State.release_keeps (s : State) (a : Nat) (c : Changeover) (n : Station) : keeps [.book, .labels, .trunk, .counts] s (s.release a c n) := by
  unfold State.release
  dsimp only
  split <;> simp

@[simp] theorem keeps_release (a : Nat) (c : Changeover) (n : Station) (hsub : [.book, .labels, .trunk, .counts] ⊆ fs) :
    keeps fs s (t.release a c n) ↔ keeps fs s t := (State.release_keeps t a c n).iff hsub

theorem State.addReport_keeps (s : State) (r : Report) : keeps [.book, .counts] s (s.addReport r) := by
  unfold State.addReport
  repeat' split
  all_goals simp

@[simp] theorem keeps_addReport (r : Report) (hsub : [.book, .counts] ⊆ fs) :
    keeps fs s (t.addReport r) ↔ keeps fs s t := (State.addReport_keeps t r).iff hsub

theorem State.formReports_keeps (s : State) : keeps [.book, .trunk, .counts] s (s.formReports) := by
  unfold State.formReports
  dsimp only
  repeat' split
  all_goals simp

@[simp] theorem keeps_formReports (hsub : [.book, .trunk, .counts] ⊆ fs) :
    keeps fs s (t.formReports) ↔ keeps fs s t := (State.formReports_keeps t).iff hsub

theorem State.localDone_keeps (s : State) (a v : Nat) : keeps [.book, .labels, .trunk, .counts] s (s.localDone a v) := by
  unfold State.localDone
  repeat' split
  all_goals simp

@[simp] theorem keeps_localDone (a v : Nat) (hsub : [.book, .labels, .trunk, .counts] ⊆ fs) :
    keeps fs s (t.localDone a v) ↔ keeps fs s t := (State.localDone_keeps t a v).iff hsub

theorem State.floorReport_keeps (s : State) (a : Nat) : keeps [.book, .labels, .trunk, .counts] s (s.floorReport a) := by
  unfold State.floorReport
  repeat' split
  all_goals simp

@[simp] theorem keeps_floorReport (a : Nat) (hsub : [.book, .labels, .trunk, .counts] ⊆ fs) :
    keeps fs s (t.floorReport a) ↔ keeps fs s t := (State.floorReport_keeps t a).iff hsub

theorem State.floorReportOpt_keeps (s : State) (a : Option Nat) : keeps [.book, .labels, .trunk, .counts] s (s.floorReportOpt a) := by
  unfold State.floorReportOpt
  repeat' split
  all_goals simp

@[simp] theorem keeps_floorReportOpt (a : Option Nat) (hsub : [.book, .labels, .trunk, .counts] ⊆ fs) :
    keeps fs s (t.floorReportOpt a) ↔ keeps fs s t := (State.floorReportOpt_keeps t a).iff hsub

theorem State.applyRecord_keeps (s : State) (r : ChangeRecord) : keeps [.book, .counts, .alerts] s ((s.applyRecord r).2) := by
  unfold State.applyRecord
  dsimp only
  repeat' split
  all_goals simp

@[simp] theorem keeps_applyRecord (r : ChangeRecord) (hsub : [.book, .counts, .alerts] ⊆ fs) :
    keeps fs s ((t.applyRecord r).2) ↔ keeps fs s t := (State.applyRecord_keeps t r).iff hsub

theorem State.applyRecords_keeps (s : State) (rs : List ChangeRecord) : keeps [.book, .counts, .alerts] s (s.applyRecords rs) := by
  unfold State.applyRecords
  simp

@[simp] theorem keeps_applyRecords (rs : List ChangeRecord) (hsub : [.book, .counts, .alerts] ⊆ fs) :
    keeps fs s (t.applyRecords rs) ↔ keeps fs s t := (State.applyRecords_keeps t rs).iff hsub

theorem State.startChangeover_keeps (s : State) (a : Nat) (e : Entry) (p : Change) : keeps [.book, .labels, .trunk, .counts] s (s.startChangeover a e p) := by
  unfold State.startChangeover
  dsimp only
  repeat' split
  all_goals simp

@[simp] theorem keeps_startChangeover (a : Nat) (e : Entry) (p : Change) (hsub : [.book, .labels, .trunk, .counts] ⊆ fs) :
    keeps fs s (t.startChangeover a e p) ↔ keeps fs s t := (State.startChangeover_keeps t a e p).iff hsub

theorem State.effectiveTimeReached_keeps (s : State) (a : Nat) (e : Entry) (p : Change) : keeps [.book, .labels, .trunk, .counts] s (s.effectiveTimeReached a e p) := by
  unfold State.effectiveTimeReached
  repeat' split
  all_goals simp

@[simp] theorem keeps_effectiveTimeReached (a : Nat) (e : Entry) (p : Change) (hsub : [.book, .labels, .trunk, .counts] ⊆ fs) :
    keeps fs s (t.effectiveTimeReached a e p) ↔ keeps fs s t := (State.effectiveTimeReached_keeps t a e p).iff hsub

theorem State.examine_keeps (s : State) (a : Nat) : keeps [.book, .labels, .trunk, .counts] s (s.examine a) := by
  unfold State.examine
  repeat' split
  all_goals simp

@[simp] theorem keeps_examine (a : Nat) (hsub : [.book, .labels, .trunk, .counts] ⊆ fs) :
    keeps fs s (t.examine a) ↔ keeps fs s t := (State.examine_keeps t a).iff hsub

theorem State.setQueryStatus_keeps (s : State) (n : Station) (q : QueryStatus) (a : Nat) : keeps [.book] s (s.setQueryStatus n q a) := by
  unfold State.setQueryStatus
  simp

@[simp] theorem keeps_setQueryStatus (n : Station) (q : QueryStatus) (a : Nat) (hsub : [.book] ⊆ fs) :
    keeps fs s (t.setQueryStatus n q a) ↔ keeps fs s t := (State.setQueryStatus_keeps t n q a).iff hsub

theorem State.queryStation_keeps (s : State) (n : Station) : keeps [.book, .trunk, .counts] s (s.queryStation n) := by
  unfold State.queryStation
  dsimp only
  repeat' split
  all_goals simp

@[simp] theorem keeps_queryStation (n : Station) (hsub : [.book, .trunk, .counts] ⊆ fs) :
    keeps fs s (t.queryStation n) ↔ keeps fs s t := (State.queryStation_keeps t n).iff hsub

theorem State.takeDone_keeps (s : State) (n : Station) (r : Report) : keeps [.book, .labels, .trunk, .counts] s (s.takeDone n r) := by
  unfold State.takeDone
  repeat' split
  all_goals simp

@[simp] theorem keeps_takeDone (n : Station) (r : Report) (hsub : [.book, .labels, .trunk, .counts] ⊆ fs) :
    keeps fs s (t.takeDone n r) ↔ keeps fs s t := (State.takeDone_keeps t n r).iff hsub

theorem State.answerQuery_keeps (s : State) (n : Station) (rs : List Report) : keeps [.trunk, .counts] s (s.answerQuery n rs) := by
  unfold State.answerQuery
  dsimp only
  repeat' split
  all_goals simp

@[simp] theorem keeps_answerQuery (n : Station) (rs : List Report) (hsub : [.trunk, .counts] ⊆ fs) :
    keeps fs s (t.answerQuery n rs) ↔ keeps fs s t := (State.answerQuery_keeps t n rs).iff hsub

theorem State.takePending_keeps (s : State) (n : Station) (r : Report) : keeps [.book] s (s.takePending n r) := by
  unfold State.takePending
  repeat' split
  all_goals simp

@[simp] theorem keeps_takePending (n : Station) (r : Report) (hsub : [.book] ⊆ fs) :
    keeps fs s (t.takePending n r) ↔ keeps fs s t := (State.takePending_keeps t n r).iff hsub

theorem State.listeningCheck_keeps (s : State) (a : Nat) : keeps [.book, .labels, .trunk, .counts] s (s.listeningCheck a) := by
  unfold State.listeningCheck
  repeat' split
  all_goals simp

@[simp] theorem keeps_listeningCheck (a : Nat) (hsub : [.book, .labels, .trunk, .counts] ⊆ fs) :
    keeps fs s (t.listeningCheck a) ↔ keeps fs s t := (State.listeningCheck_keeps t a).iff hsub

theorem State.listeningShelfCheck_keeps (s : State) : keeps [.book, .labels, .trunk, .counts] s (s.listeningShelfCheck) := by
  unfold State.listeningShelfCheck
  simp

@[simp] theorem keeps_listeningShelfCheck (hsub : [.book, .labels, .trunk, .counts] ⊆ fs) :
    keeps fs s (t.listeningShelfCheck) ↔ keeps fs s t := (State.listeningShelfCheck_keeps t).iff hsub

/-! ### The journal unit -/

theorem State.append_keeps (s : State) (r : JournalRecord) : keeps [.journal, .counts, .alerts] s ((s.append r).2) := by
  unfold State.append
  dsimp only
  repeat' split
  all_goals simp

@[simp] theorem keeps_append (r : JournalRecord) (hsub : [.journal, .counts, .alerts] ⊆ fs) :
    keeps fs s ((t.append r).2) ↔ keeps fs s t := (State.append_keeps t r).iff hsub

theorem State.takeBatch_keeps (s : State) (n : Nat) : keeps [.journal] s ((s.takeBatch n).2) := by
  unfold State.takeBatch
  dsimp only
  repeat' split
  all_goals simp

@[simp] theorem keeps_takeBatch (n : Nat) (hsub : [.journal] ⊆ fs) :
    keeps fs s ((t.takeBatch n).2) ↔ keeps fs s t := (State.takeBatch_keeps t n).iff hsub

theorem State.acknowledge_keeps (s : State) (a b : Nat) : keeps [.journal, .counts] s (s.acknowledge a b) := by
  unfold State.acknowledge
  repeat' split
  all_goals simp

@[simp] theorem keeps_acknowledge (a b : Nat) (hsub : [.journal, .counts] ⊆ fs) :
    keeps fs s (t.acknowledge a b) ↔ keeps fs s t := (State.acknowledge_keeps t a b).iff hsub

theorem State.clearSent_keeps (s : State) : keeps [.journal, .counts] s (s.clearSent) := by
  unfold State.clearSent
  dsimp only
  repeat' split
  all_goals simp

@[simp] theorem keeps_clearSent (hsub : [.journal, .counts] ⊆ fs) :
    keeps fs s (t.clearSent) ↔ keeps fs s t := (State.clearSent_keeps t).iff hsub

theorem State.journalLoaded_keeps (s : State) : keeps [.journal, .counts, .alerts] s ((s.journalLoaded).2) := by
  unfold State.journalLoaded
  dsimp only
  repeat' split
  all_goals simp

@[simp] theorem keeps_journalLoaded (hsub : [.journal, .counts, .alerts] ⊆ fs) :
    keeps fs s ((t.journalLoaded).2) ↔ keeps fs s t := (State.journalLoaded_keeps t).iff hsub

end Sys2Proof.Machine
end

