-- ==== Sys2Proof/Laws/ForwardFrame.lean ====
section
/-! SUPPORT. What each shared operation of the forwarding unit may change, and what the held session parcel's do. -/

namespace Sys2Proof.Machine

open Sys2Proof

variable {fs gs : List Field} {s t u : State}

/-! ### The held session parcel -/

/-- The held parcel stands behind what was queued when it was held, and ahead of what was relayed in since (R156). -/
theorem Forwarding.admitHeld_office {w : Forwarding} {h : HeldParcel} {older newer : List Parcel}
    (ho : w.office = older ++ newer) (hn : newer.length = h.relayedSince) :
    (w.admitHeld h).office = older ++ h.parcel :: newer := by
  simp [Forwarding.admitHeld, ho, ← hn]

/-- Nothing but the OFFICE queue and the held parcel changes as it joins. -/
theorem Forwarding.admitHeld_rest (w : Forwarding) (h : HeldParcel) :
    w.admitHeld h = { w with office := (w.admitHeld h).office, heldParcel := none } := rfl

@[simp] theorem Forwarding.countRelayed_none {w : Forwarding} (h : w.heldParcel = none) : w.countRelayed = w := by
  cases w; simp_all [Forwarding.countRelayed]

theorem Forwarding.countRelayed_held {w : Forwarding} {h : HeldParcel} (hh : w.heldParcel = some h) :
    w.countRelayed = { w with heldParcel := some { h with relayedSince := h.relayedSince + 1 } } := by
  simp [Forwarding.countRelayed, hh]

@[simp] theorem Forwarding.countRelayed_office (w : Forwarding) : w.countRelayed.office = w.office := rfl

/-! ### Authorisations and the uplink -/

theorem State.endAuth_keeps (s : State) (l : LaneNo) (f : AuthFlight) (r : LaneReply) : keeps [.lanes, .out] s (s.endAuth l f r) := by
  unfold State.endAuth
  simp

@[simp] theorem keeps_endAuth (l : LaneNo) (f : AuthFlight) (r : LaneReply) (hsub : [.lanes, .out] ⊆ fs) :
    keeps fs s (t.endAuth l f r) ↔ keeps fs s t := (State.endAuth_keeps t l f r).iff hsub

theorem State.lateReply_keeps (s : State) (l : LaneNo) : keeps [.lanes] s (s.lateReply l) := by
  unfold State.lateReply
  simp

@[simp] theorem keeps_lateReply (l : LaneNo) (hsub : [.lanes] ⊆ fs) :
    keeps fs s (t.lateReply l) ↔ keeps fs s t := (State.lateReply_keeps t l).iff hsub

theorem State.authOutcome_keeps (s : State) (l : LaneNo) (n : Nat) (r : LaneReply) : keeps [.lanes, .out] s (s.authOutcome l n r) := by
  unfold State.authOutcome
  repeat' split
  all_goals simp

@[simp] theorem keeps_authOutcome (l : LaneNo) (n : Nat) (r : LaneReply) (hsub : [.lanes, .out] ⊆ fs) :
    keeps fs s (t.authOutcome l n r) ↔ keeps fs s t := (State.authOutcome_keeps t l n r).iff hsub

theorem State.dropPending_keeps (s : State) (l : LaneNo) : keeps [.fwd] s (s.dropPending l) := by
  unfold State.dropPending
  simp

@[simp] theorem keeps_dropPending (l : LaneNo) (hsub : [.fwd] ⊆ fs) :
    keeps fs s (t.dropPending l) ↔ keeps fs s t := (State.dropPending_keeps t l).iff hsub

theorem State.outcomeWithoutEntry_keeps (s : State) (l : LaneNo) : keeps [.lanes, .counts] s (s.outcomeWithoutEntry l) := by
  unfold State.outcomeWithoutEntry
  simp

@[simp] theorem keeps_outcomeWithoutEntry (l : LaneNo) (hsub : [.lanes, .counts] ⊆ fs) :
    keeps fs s (t.outcomeWithoutEntry l) ↔ keeps fs s t := (State.outcomeWithoutEntry_keeps t l).iff hsub

theorem State.pendingOutcome_keeps (s : State) (l : LaneNo) (n : Nat) (r : LaneReply) : keeps [.lanes, .out, .fwd, .counts] s (s.pendingOutcome l n r) := by
  unfold State.pendingOutcome
  repeat' split
  all_goals simp

@[simp] theorem keeps_pendingOutcome (l : LaneNo) (n : Nat) (r : LaneReply) (hsub : [.lanes, .out, .fwd, .counts] ⊆ fs) :
    keeps fs s (t.pendingOutcome l n r) ↔ keeps fs s t := (State.pendingOutcome_keeps t l n r).iff hsub

theorem State.withdrawAuth_keeps (s : State) (l : LaneNo) (n : Nat) : keeps [.fwd] s (s.withdrawAuth l n) := by
  unfold State.withdrawAuth
  repeat' split
  all_goals simp

@[simp] theorem keeps_withdrawAuth (l : LaneNo) (n : Nat) (hsub : [.fwd] ⊆ fs) :
    keeps fs s (t.withdrawAuth l n) ↔ keeps fs s t := (State.withdrawAuth_keeps t l n).iff hsub

theorem State.transmit_keeps (s : State) : keeps [.fwd] s (s.transmit) := by
  unfold State.transmit
  repeat' split
  · simp
  · exact (keeps_setFwd _ (by decide)).2 (keeps.refl _ _)
  · simp

@[simp] theorem keeps_transmit (hsub : [.fwd] ⊆ fs) :
    keeps fs s (t.transmit) ↔ keeps fs s t := (State.transmit_keeps t).iff hsub

theorem State.joinUplink_keeps (s : State) (p : Parcel) : keeps [.fwd] s (s.joinUplink p) := by
  unfold State.joinUplink
  simp

@[simp] theorem keeps_joinUplink (p : Parcel) (hsub : [.fwd] ⊆ fs) :
    keeps fs s (t.joinUplink p) ↔ keeps fs s t := (State.joinUplink_keeps t p).iff hsub

theorem drainRelayBack_keeps (q : List Parcel) (s : State) : keeps [.fwd, .counts, .trunk] s (drainRelayBack q s) := by
  induction q generalizing s with
  | nil => unfold drainRelayBack; simp
  | cons p q ih =>
    unfold drainRelayBack
    dsimp only
    split
    · simp
    split
    · exact (State.bump_keeps s _).mono (by decide) |>.trans (ih _)
    · refine keeps.trans ?_ (ih _)
      split <;> simp

@[simp] theorem keeps_drainRelayBack (q : List Parcel) (h : [.fwd, .counts, .trunk] ⊆ fs) :
    keeps fs s (drainRelayBack q t) ↔ keeps fs s t := (drainRelayBack_keeps q t).iff h

theorem State.sendBack_keeps (s : State) (p : Parcel) : keeps [.fwd, .counts, .trunk] s (s.sendBack p) := by
  unfold State.sendBack
  dsimp only
  repeat' split
  all_goals simp

@[simp] theorem keeps_sendBack (p : Parcel) (hsub : [.fwd, .counts, .trunk] ⊆ fs) :
    keeps fs s (t.sendBack p) ↔ keeps fs s t := (State.sendBack_keeps t p).iff hsub

theorem State.reportTill_keeps (s : State) (p : Parcel) (x : ParcelStatus) : keeps [.lanes, .out, .fwd, .counts, .trunk] s (s.reportTill p x) := by
  unfold State.reportTill
  repeat' split
  all_goals simp

@[simp] theorem keeps_reportTill (p : Parcel) (x : ParcelStatus) (hsub : [.lanes, .out, .fwd, .counts, .trunk] ⊆ fs) :
    keeps fs s (t.reportTill p x) ↔ keeps fs s t := (State.reportTill_keeps t p x).iff hsub

theorem State.offerGuest_keeps (s : State) (p : Parcel) : keeps [.fwd, .counts] s ((s.offerGuest p).2) := by
  unfold State.offerGuest
  repeat' split
  all_goals simp

@[simp] theorem keeps_offerGuest (p : Parcel) (hsub : [.fwd, .counts] ⊆ fs) :
    keeps fs s ((t.offerGuest p).2) ↔ keeps fs s t := (State.offerGuest_keeps t p).iff hsub

theorem State.carryOut_keeps (s : State) (p : Parcel) : keeps [.lanes, .out, .fwd, .counts, .trunk] s (s.carryOut p) := by
  unfold State.carryOut
  dsimp only
  repeat' split
  all_goals simp

@[simp] theorem keeps_carryOut (p : Parcel) (hsub : [.lanes, .out, .fwd, .counts, .trunk] ⊆ fs) :
    keeps fs s (t.carryOut p) ↔ keeps fs s t := (State.carryOut_keeps t p).iff hsub

theorem State.relaySent_keeps (s : State) (b : Bool) : keeps [.counts] s (s.relaySent b) := by
  unfold State.relaySent
  simp

@[simp] theorem keeps_relaySent (b : Bool) (hsub : [.counts] ⊆ fs) :
    keeps fs s (t.relaySent b) ↔ keeps fs s t := (State.relaySent_keeps t b).iff hsub

theorem State.relayLost_keeps (s : State) (b : Bool) (p : Parcel) : keeps [.lanes, .out, .fwd, .counts] s (s.relayLost b p) := by
  unfold State.relayLost
  repeat' split
  all_goals simp

@[simp] theorem keeps_relayLost (b : Bool) (p : Parcel) (hsub : [.lanes, .out, .fwd, .counts] ⊆ fs) :
    keeps fs s (t.relayLost b p) ↔ keeps fs s t := (State.relayLost_keeps t b p).iff hsub

theorem State.addPending_keeps (s : State) (l : LaneNo) (n : Nat) (p : AuthPath) : keeps [.fwd] s (s.addPending l n p) := by
  unfold State.addPending
  simp

@[simp] theorem keeps_addPending (l : LaneNo) (n : Nat) (p : AuthPath) (hsub : [.fwd] ⊆ fs) :
    keeps fs s (t.addPending l n p) ↔ keeps fs s t := (State.addPending_keeps t l n p).iff hsub

theorem State.routeAuth_keeps (s : State) (l : LaneNo) (n : Nat) (p : List Byte) : keeps [.fwd, .counts, .trunk] s ((s.routeAuth l n p).2) := by
  unfold State.routeAuth
  dsimp only
  repeat' split
  all_goals simp

@[simp] theorem keeps_routeAuth (l : LaneNo) (n : Nat) (p : List Byte) (hsub : [.fwd, .counts, .trunk] ⊆ fs) :
    keeps fs s ((t.routeAuth l n p).2) ↔ keeps fs s t := (State.routeAuth_keeps t l n p).iff hsub

/-- The loss of a relayed parcel of another class than TILL is only counted. -/
theorem State.relayLost_counted (s : State) (b : Bool) (p : Parcel) (h : p.cls ≠ .till) :
    s.relayLost b p = s.bump .undeliverable := by
  unfold State.relayLost
  cases hc : p.cls <;> simp_all

theorem State.handSession_keeps (s : State) (p : List Byte) : keeps [.fwd, .counts, .trunk] s ((s.handSession p).2) := by
  unfold State.handSession
  dsimp only
  repeat' split
  all_goals simp
  rw [State.relayLost_counted _ _ _ (by simp [sessionParcel])]
  simp

@[simp] theorem keeps_handSession (p : List Byte) (hsub : [.fwd, .counts, .trunk] ⊆ fs) :
    keeps fs s ((t.handSession p).2) ↔ keeps fs s t := (State.handSession_keeps t p).iff hsub

theorem State.removeSessionParcels_keeps (s : State) : keeps [.fwd] s (s.removeSessionParcels) := by
  unfold State.removeSessionParcels
  simp

@[simp] theorem keeps_removeSessionParcels (hsub : [.fwd] ⊆ fs) :
    keeps fs s (t.removeSessionParcels) ↔ keeps fs s t := (State.removeSessionParcels_keeps t).iff hsub

theorem State.loseTill_keeps (s : State) (ps : List Parcel) : keeps [.lanes, .out, .fwd, .counts, .trunk] s (s.loseTill ps) := by
  unfold State.loseTill
  simp

@[simp] theorem keeps_loseTill (ps : List Parcel) (hsub : [.lanes, .out, .fwd, .counts, .trunk] ⊆ fs) :
    keeps fs s (t.loseTill ps) ↔ keeps fs s t := (State.loseTill_keeps t ps).iff hsub

theorem State.uplinkLost_keeps (s : State) : keeps [.lanes, .out, .fwd, .counts, .trunk] s (s.uplinkLost) := by
  unfold State.uplinkLost
  simp

@[simp] theorem keeps_uplinkLost (hsub : [.lanes, .out, .fwd, .counts, .trunk] ⊆ fs) :
    keeps fs s (t.uplinkLost) ↔ keeps fs s t := (State.uplinkLost_keeps t).iff hsub

/-! ### Guests -/

theorem State.reject_keeps (s : State) (a : Nat) (w : RejectReason) : keeps [.counts, .out] s (s.reject a w) := by
  unfold State.reject
  simp

@[simp] theorem keeps_reject (a : Nat) (w : RejectReason) (hsub : [.counts, .out] ⊆ fs) :
    keeps fs s (t.reject a w) ↔ keeps fs s t := (State.reject_keeps t a w).iff hsub

theorem State.admitGuest_keeps (s : State) (a : Nat) : keeps [.fwd, .counts, .out] s ((s.admitGuest a).2) := by
  unfold State.admitGuest
  repeat' split
  all_goals simp

@[simp] theorem keeps_admitGuest (a : Nat) (hsub : [.fwd, .counts, .out] ⊆ fs) :
    keeps fs s ((t.admitGuest a).2) ↔ keeps fs s t := (State.admitGuest_keeps t a).iff hsub

theorem State.bucketTest_keeps (s : State) (g : Guest) (n : Nat) : keeps [.fwd, .counts] s ((s.bucketTest g n).2) := by
  unfold State.bucketTest
  repeat' split
  all_goals simp

@[simp] theorem keeps_bucketTest (g : Guest) (n : Nat) (hsub : [.fwd, .counts] ⊆ fs) :
    keeps fs s ((t.bucketTest g n).2) ↔ keeps fs s t := (State.bucketTest_keeps t g n).iff hsub

theorem State.routeGuest_keeps (s : State) (a : Nat) (p : List Byte) : keeps [.fwd, .counts, .trunk] s (s.routeGuest a p) := by
  unfold State.routeGuest
  dsimp only
  repeat' split
  · simp
  · rw [State.relayLost_counted]
    · simp
    · exact nofun
  · simp
  · simp

@[simp] theorem keeps_routeGuest (a : Nat) (p : List Byte) (hsub : [.fwd, .counts, .trunk] ⊆ fs) :
    keeps fs s (t.routeGuest a p) ↔ keeps fs s t := (State.routeGuest_keeps t a p).iff hsub

theorem State.guestReply_keeps (s : State) (p : Parcel) : keeps [.fwd, .counts, .out] s (s.guestReply p) := by
  unfold State.guestReply
  dsimp only
  repeat' split
  all_goals simp

@[simp] theorem keeps_guestReply (p : Parcel) (hsub : [.fwd, .counts, .out] ⊆ fs) :
    keeps fs s (t.guestReply p) ↔ keeps fs s t := (State.guestReply_keeps t p).iff hsub

theorem State.guestFrame_keeps (s : State) (a : Nat) (p : List Byte) : keeps [.fwd, .counts, .out, .trunk] s (s.guestFrame a p) := by
  unfold State.guestFrame
  dsimp only
  repeat' split
  all_goals simp

@[simp] theorem keeps_guestFrame (a : Nat) (p : List Byte) (hsub : [.fwd, .counts, .out, .trunk] ⊆ fs) :
    keeps fs s (t.guestFrame a p) ↔ keeps fs s t := (State.guestFrame_keeps t a p).iff hsub

theorem State.guestRollover_keeps (s : State) : keeps [.fwd] s (s.guestRollover) := by
  unfold State.guestRollover
  simp

@[simp] theorem keeps_guestRollover (hsub : [.fwd] ⊆ fs) :
    keeps fs s (t.guestRollover) ↔ keeps fs s t := (State.guestRollover_keeps t).iff hsub

theorem State.fwdModeChanged_keeps (s : State) (m : Mode) : keeps [.fwd, .counts] s (s.fwdModeChanged m) := by
  unfold State.fwdModeChanged
  dsimp only
  repeat' split
  all_goals simp

@[simp] theorem keeps_fwdModeChanged (m : Mode) (hsub : [.fwd, .counts] ⊆ fs) :
    keeps fs s (t.fwdModeChanged m) ↔ keeps fs s t := (State.fwdModeChanged_keeps t m).iff hsub

end Sys2Proof.Machine
end

