-- ==== Sys2Proof/Laws/Maps.lean ====
section
/-! SUPPORT. The laws of the collections keyed by a number: reading after writing, and the canonical form kept by every
operation. -/

namespace Sys2Proof.Machine

open Sys2Proof

variable {α : Type}

/-! ### Reading after writing -/

/-- What a key holds is in the collection. -/
theorem AMap.mem_of_get {m : AMap α} {k : Nat} {v : α} (h : AMap.get m k = some v) : (k, v) ∈ m := by
  induction m with
  | nil => simp [AMap.get] at h
  | cons e m ih =>
    simp only [AMap.get] at h
    split at h
    · rename_i hk
      obtain rfl := Option.some.inj h
      simp [← hk]
    · exact List.mem_cons_of_mem _ (ih h)

theorem AMap.get_put_self (m : AMap α) (k : Nat) (v : α) : AMap.get (AMap.put m k v) k = some v := by
  induction m with
  | nil => simp [AMap.put, AMap.get]
  | cons e m ih =>
    obtain ⟨k', v'⟩ := e
    simp only [AMap.put]
    split
    · simp [AMap.get]
    · split
      · simp [AMap.get]
      · rename_i h
        simp [AMap.get, Ne.symm h, ih]

theorem AMap.get_put_ne (m : AMap α) {k j : Nat} (v : α) (h : j ≠ k) : AMap.get (AMap.put m k v) j = AMap.get m j := by
  induction m with
  | nil => simp [AMap.put, AMap.get, Ne.symm h]
  | cons e m ih =>
    obtain ⟨k', v'⟩ := e
    simp only [AMap.put]
    split
    · simp [AMap.get, Ne.symm h]
    · split
      · rename_i e
        subst e
        simp [AMap.get, Ne.symm h]
      · simp [AMap.get, ih]

theorem AMap.get_put (m : AMap α) (k j : Nat) (v : α) :
    AMap.get (AMap.put m k v) j = if j = k then some v else AMap.get m j := by
  split
  · rename_i h
    rw [h, AMap.get_put_self]
  · rename_i h
    exact AMap.get_put_ne m v h

theorem AMap.get_del (m : AMap α) (k j : Nat) : AMap.get (AMap.del m k) j = if j = k then none else AMap.get m j := by
  induction m with
  | nil => simp [AMap.del, AMap.get]
  | cons e m ih =>
    obtain ⟨k', v'⟩ := e
    simp only [AMap.del] at ih ⊢
    by_cases hk : k' = k
    · subst hk
      simp only [List.filter_cons, bne_self_eq_false, Bool.false_eq_true, if_false, ih, AMap.get]
      split
      · rfl
      · rename_i h
        simp [Ne.symm h]
    · simp only [List.filter_cons, bne_iff_ne.2 hk, if_true, AMap.get, ih]
      by_cases hj : k' = j
      · subst hj
        simp [hk]
      · simp [hj]

theorem AMap.get_modify (m : AMap α) (k j : Nat) (f : α → α) :
    AMap.get (AMap.modify m k f) j = if j = k then (AMap.get m j).map f else AMap.get m j := by
  induction m with
  | nil => simp [AMap.modify, AMap.get]
  | cons e m ih =>
    obtain ⟨k', v'⟩ := e
    simp only [AMap.modify, List.map_cons, AMap.get] at ih ⊢
    by_cases hk : k' = k
    · subst hk
      simp only [if_true, ih]
      by_cases hj : k' = j
      · subst hj
        simp
      · simp [hj, Ne.symm hj]
    · simp only [hk, if_false, ih]
      by_cases hj : k' = j
      · subst hj
        simp [hk]
      · simp [hj]

/-- Changing every value and no key changes what each key holds. -/
theorem AMap.get_map (m : AMap α) (f : α → α) (j : Nat) :
    AMap.get (m.map fun e => (e.1, f e.2)) j = (AMap.get m j).map f := by
  induction m with
  | nil => rfl
  | cons e m ih =>
    obtain ⟨k', v'⟩ := e
    simp only [List.map_cons, AMap.get]
    split
    · rfl
    · exact ih

/-! ### The canonical form -/

/-- The canonical form says that the keys strictly rise. -/
theorem AMap.wf_iff (m : AMap α) : AMap.wf m = true ↔ (m.map (·.1)).Pairwise (· < ·) := by
  induction m with
  | nil => simp [AMap.wf]
  | cons e m ih =>
    obtain ⟨k, v⟩ := e
    cases m with
    | nil => simp [AMap.wf]
    | cons e' m =>
      obtain ⟨k', v'⟩ := e'
      simp only [AMap.wf, Bool.and_eq_true, decide_eq_true_eq, ih]
      simp only [List.map_cons, List.pairwise_cons, List.mem_cons, forall_eq_or_imp]
      constructor
      · rintro ⟨h, h1, h2⟩
        exact ⟨⟨h, fun a ha => Nat.lt_trans h (h1 a ha)⟩, h1, h2⟩
      · rintro ⟨⟨h, -⟩, h1, h2⟩
        exact ⟨h, h1, h2⟩

/-- The keys after a put are the key put and the keys before. -/
theorem AMap.mem_keys_put (m : AMap α) (k : Nat) (v : α) (j : Nat) (h : j ∈ (AMap.put m k v).map (·.1)) :
    j = k ∨ j ∈ m.map (·.1) := by
  induction m with
  | nil => simpa [AMap.put] using h
  | cons e m ih =>
    obtain ⟨k', v'⟩ := e
    simp only [AMap.put] at h
    split at h
    · simpa using h
    · split at h
      · rename_i e
        subst e
        simp only [List.map_cons, List.mem_cons] at h ⊢
        tauto
      · simp only [List.map_cons, List.mem_cons] at h ⊢
        rcases h with h | h
        · exact .inr (.inl h)
        · rcases ih h with h | h
          · exact .inl h
          · exact .inr (.inr h)

theorem AMap.wf_put (m : AMap α) (k : Nat) (v : α) (h : AMap.wf m = true) : AMap.wf (AMap.put m k v) = true := by
  rw [AMap.wf_iff] at h ⊢
  induction m with
  | nil => simp [AMap.put]
  | cons e m ih =>
    obtain ⟨k', v'⟩ := e
    simp only [List.map_cons, List.pairwise_cons] at h
    simp only [AMap.put]
    split
    · rename_i hk
      simp only [List.map_cons, List.pairwise_cons, List.mem_cons, forall_eq_or_imp]
      exact ⟨⟨hk, fun a ha => Nat.lt_trans hk (h.1 a ha)⟩, h⟩
    · split
      · rename_i e
        subst e
        simpa using h
      · rename_i hk hne
        simp only [List.map_cons, List.pairwise_cons]
        refine ⟨fun a ha => ?_, ih h.2⟩
        rcases AMap.mem_keys_put m k v a ha with rfl | ha
        · omega
        · exact h.1 a ha

theorem AMap.wf_del (m : AMap α) (k : Nat) (h : AMap.wf m = true) : AMap.wf (AMap.del m k) = true := by
  rw [AMap.wf_iff] at h ⊢
  exact h.sublist (List.Sublist.map _ List.filter_sublist)

theorem AMap.keys_modify (m : AMap α) (k : Nat) (f : α → α) :
    (AMap.modify m k f).map (·.1) = m.map (·.1) := by
  simp only [AMap.modify, List.map_map]
  refine List.map_congr_left fun e _ => ?_
  simp only [Function.comp_apply]
  split <;> rfl

theorem AMap.wf_modify (m : AMap α) (k : Nat) (f : α → α) (h : AMap.wf m = true) :
    AMap.wf (AMap.modify m k f) = true := by
  rw [AMap.wf_iff] at h ⊢
  rwa [AMap.keys_modify]

theorem AMap.wf_map (m : AMap α) (f : Nat × α → α) (h : AMap.wf m = true) :
    AMap.wf (m.map fun e => (e.1, f e)) = true := by
  rw [AMap.wf_iff] at h ⊢
  simpa [List.map_map, Function.comp_def] using h

/-! ### Sizes -/

/-- A put adds one entry for a key that held nothing, and none for one that held something. -/
theorem AMap.length_put (m : AMap α) (k : Nat) (v : α) (h : AMap.wf m = true) :
    (AMap.put m k v).length = if (AMap.get m k).isSome then m.length else m.length + 1 := by
  rw [AMap.wf_iff] at h
  induction m with
  | nil => simp [AMap.put, AMap.get]
  | cons e m ih =>
    obtain ⟨k', v'⟩ := e
    simp only [List.map_cons, List.pairwise_cons] at h
    simp only [AMap.put, AMap.get]
    split
    · rename_i hk
      have hne : k' ≠ k := by omega
      have hnone : AMap.get m k = none := by
        have : ∀ a ∈ m.map (·.1), k < a := fun a ha => Nat.lt_trans hk (h.1 a ha)
        clear ih h
        induction m with
        | nil => rfl
        | cons e m ih =>
          obtain ⟨j, w⟩ := e
          simp only [List.map_cons, List.mem_cons, forall_eq_or_imp] at this
          simp only [AMap.get, show j ≠ k by omega, if_false]
          exact ih this.2
      simp [hne, hnone]
    · split
      · rename_i e
        subst e
        simp
      · rename_i hne
        simp only [List.length_cons, ih h.2, Ne.symm hne, if_false]
        split <;> rfl

/-! ### The collection as a list of its entries -/

/-- In the canonical form a key holds what its entry says. -/
theorem AMap.get_eq_some_iff {m : AMap α} (h : AMap.wf m = true) {k : Nat} {v : α} :
    AMap.get m k = some v ↔ (k, v) ∈ m := by
  refine ⟨AMap.mem_of_get, fun hm => ?_⟩
  rw [AMap.wf_iff] at h
  induction m with
  | nil => simp at hm
  | cons e m ih =>
    obtain ⟨j, w⟩ := e
    simp only [List.map_cons, List.pairwise_cons] at h
    rcases List.mem_cons.1 hm with he | hm
    · obtain ⟨rfl, rfl⟩ := Prod.mk.inj he
      simp [AMap.get]
    · have : j < k := h.1 k (List.mem_map_of_mem (f := Prod.fst) hm)
      simp [AMap.get, Nat.ne_of_lt this, ih h.2 hm]

/-- Of two puts under one key the second stands. -/
theorem AMap.put_put (m : AMap α) (k : Nat) (v w : α) : AMap.put (AMap.put m k v) k w = AMap.put m k w := by
  induction m with
  | nil => simp [AMap.put]
  | cons e m ih =>
    obtain ⟨j, x⟩ := e
    simp only [AMap.put]
    split
    · simp [AMap.put]
    · split
      · simp [AMap.put]
      · rename_i h1 h2
        simp [AMap.put, h1, h2, ih]

/-- A change of what a key holds puts the changed value, and where the key holds nothing changes nothing. -/
theorem AMap.modify_eq {m : AMap α} (h : AMap.wf m = true) (k : Nat) (f : α → α) :
    AMap.modify m k f = match AMap.get m k with | none => m | some v => AMap.put m k (f v) := by
  rw [AMap.wf_iff] at h
  induction m with
  | nil => rfl
  | cons e m ih =>
    obtain ⟨j, x⟩ := e
    simp only [List.map_cons, List.pairwise_cons] at h
    have ih := ih h.2
    simp only [AMap.modify, List.map_cons, AMap.get] at ih ⊢
    by_cases hj : j = k
    · subst hj
      have hm : (m.map fun e => if e.1 = j then (e.1, f e.2) else e) = m := by
        refine (List.map_congr_left fun e he => ?_).trans (List.map_id' m)
        have : j < e.1 := h.1 e.1 (List.mem_map_of_mem (f := Prod.fst) he)
        simp [Nat.ne_of_gt this]
      simp [AMap.put, hm]
    · simp only [hj, if_false, ih]
      cases hk : AMap.get m k with
      | none => rfl
      | some v =>
        have : j < k := h.1 k (List.mem_map_of_mem (f := Prod.fst) (AMap.mem_of_get hk))
        simp [AMap.put, Nat.not_lt.2 (Nat.le_of_lt this), Ne.symm hj]

/-- Changes of what several keys hold, one after another, as one change of the collection. -/
theorem AMap.foldl_modify (ks : List Nat) (hk : ks.Nodup) (f : α → α) (m : AMap α) :
    ks.foldl (fun m k => AMap.modify m k f) m = m.map fun e => (e.1, if e.1 ∈ ks then f e.2 else e.2) := by
  induction ks generalizing m with
  | nil => simp
  | cons k ks ih =>
    rw [List.nodup_cons] at hk
    rw [List.foldl_cons, ih hk.2]
    simp only [AMap.modify, List.map_map]
    refine List.map_congr_left fun e _ => ?_
    by_cases he : e.1 = k
    · simp [Function.comp_apply, he, hk.1]
    · simp [Function.comp_apply, he]

/-- The keys of the entries that satisfy `p`, in rising order. -/
theorem AMap.keys_filter {m : AMap α} (h : AMap.wf m = true) (p : Nat × α → Bool) :
    ((m.filter p).map (·.1)).Pairwise (· < ·) ∧
      ∀ k, k ∈ (m.filter p).map (·.1) ↔ ∃ v, AMap.get m k = some v ∧ p (k, v) = true := by
  refine ⟨((AMap.wf_iff m).1 h).sublist (List.filter_sublist.map _), fun k => ?_⟩
  simp only [List.mem_map, List.mem_filter, Prod.exists, exists_and_right, exists_eq_right, AMap.get_eq_some_iff h]

end Sys2Proof.Machine
end

