-- ==== Sys2Proof/Laws/SessionFrame.lean ====
section
/-! SUPPORT. What each shared operation of the office link controller and of the mode and event unit may change. -/

namespace Sys2Proof.Machine

open Sys2Proof

variable {fs gs : List Field} {s t u : State}

/-! ### Attempts -/

theorem State.attemptDone_keeps (s : State) : keeps [.link, .counts] s (s.attemptDone) := by
  unfold State.attemptDone
  simp

@[simp] theorem keeps_attemptDone (hsub : [.link, .counts] ⊆ fs) :
    keeps fs s (t.attemptDone) ↔ keeps fs s t := (State.attemptDone_keeps t).iff hsub

theorem State.discardCollecting_keeps (s : State) : keeps [.staging] s (s.discardCollecting) := by
  unfold State.discardCollecting
  repeat' split
  all_goals simp

@[simp] theorem keeps_discardCollecting (hsub : [.staging] ⊆ fs) :
    keeps fs s (t.discardCollecting) ↔ keeps fs s t := (State.discardCollecting_keeps t).iff hsub

theorem State.stopAttempt_keeps (s : State) : keeps [.link, .journal, .counts, .fwd, .staging] s (s.stopAttempt) := by
  unfold State.stopAttempt
  simp

@[simp] theorem keeps_stopAttempt (hsub : [.link, .journal, .counts, .fwd, .staging] ⊆ fs) :
    keeps fs s (t.stopAttempt) ↔ keeps fs s t := (State.stopAttempt_keeps t).iff hsub

theorem State.sessionFailed_keeps (s : State) (r : FailReason) (c : Option Nat) : keeps [.link, .alerts, .counts] s (s.sessionFailed r c) := by
  unfold State.sessionFailed
  simp

@[simp] theorem keeps_sessionFailed (r : FailReason) (c : Option Nat) (hsub : [.link, .alerts, .counts] ⊆ fs) :
    keeps fs s (t.sessionFailed r c) ↔ keeps fs s t := (State.sessionFailed_keeps t r c).iff hsub

theorem State.restOrDone_keeps (s : State) (r : FailReason) : keeps [.link, .alerts, .counts] s (s.restOrDone r) := by
  unfold State.restOrDone
  dsimp only
  repeat' split
  all_goals simp

@[simp] theorem keeps_restOrDone (r : FailReason) (hsub : [.link, .alerts, .counts] ⊆ fs) :
    keeps fs s (t.restOrDone r) ↔ keeps fs s t := (State.restOrDone_keeps t r).iff hsub

theorem State.failAttempt_keeps (s : State) (r : FailReason) : keeps [.link, .journal, .counts, .fwd, .staging, .alerts] s (s.failAttempt r) := by
  unfold State.failAttempt
  simp

@[simp] theorem keeps_failAttempt (r : FailReason) (hsub : [.link, .journal, .counts, .fwd, .staging, .alerts] ⊆ fs) :
    keeps fs s (t.failAttempt r) ↔ keeps fs s t := (State.failAttempt_keeps t r).iff hsub

theorem State.sessionEvent_keeps (s : State) (r : FailReason) : keeps [.link, .journal, .counts, .fwd, .staging, .alerts] s (s.sessionEvent r) := by
  unfold State.sessionEvent
  repeat' split
  all_goals simp

@[simp] theorem keeps_sessionEvent (r : FailReason) (hsub : [.link, .journal, .counts, .fwd, .staging, .alerts] ⊆ fs) :
    keeps fs s (t.sessionEvent r) ↔ keeps fs s t := (State.sessionEvent_keeps t r).iff hsub

theorem State.joinBatch_keeps (s : State) (rs : List JournalRecord) : keeps [.link] s (s.joinBatch rs) := by
  unfold State.joinBatch
  simp

@[simp] theorem keeps_joinBatch (rs : List JournalRecord) (hsub : [.link] ⊆ fs) :
    keeps fs s (t.joinBatch rs) ↔ keeps fs s t := (State.joinBatch_keeps t rs).iff hsub

theorem State.closing_keeps (s : State) (b : List OutMessage) (o : FileOutcome) : keeps [.link] s (s.closing b o) := by
  unfold State.closing
  simp

@[simp] theorem keeps_closing (b : List OutMessage) (o : FileOutcome) (hsub : [.link] ⊆ fs) :
    keeps fs s (t.closing b o) ↔ keeps fs s t := (State.closing_keeps t b o).iff hsub

theorem State.downloadDecision_keeps (s : State) : keeps [.link, .staging] s (s.downloadDecision) := by
  unfold State.downloadDecision
  dsimp only
  repeat' split
  all_goals simp

@[simp] theorem keeps_downloadDecision (hsub : [.link, .staging] ⊆ fs) :
    keeps fs s (t.downloadDecision) ↔ keeps fs s t := (State.downloadDecision_keeps t).iff hsub

theorem State.onQueued_keeps (s : State) (m : OutMessage) : keeps [.link, .counts] s (s.onQueued m) := by
  unfold State.onQueued
  dsimp only
  repeat' split
  all_goals simp

@[simp] theorem keeps_onQueued (m : OutMessage) (hsub : [.link, .counts] ⊆ fs) :
    keeps fs s (t.onQueued m) ↔ keeps fs s t := (State.onQueued_keeps t m).iff hsub

theorem pump_keeps (n : Nat) (s : State) :
    keeps [.link, .journal, .counts, .fwd, .staging, .alerts, .trunk] s (pump n s) := by
  induction n generalizing s with
  | zero => exact keeps.refl _ _
  | succ n ih =>
    unfold pump
    dsimp only
    repeat' split
    all_goals first
      | exact keeps.trans (by simp) (ih _)
      | simp

@[simp] theorem keeps_pump (n : Nat) (h : [.link, .journal, .counts, .fwd, .staging, .alerts, .trunk] ⊆ fs) :
    keeps fs s (pump n t) ↔ keeps fs s t := (pump_keeps n t).iff h

theorem State.pumpSession_keeps (s : State) : keeps [.link, .journal, .counts, .fwd, .staging, .alerts, .trunk] s (s.pumpSession) := pump_keeps _ s

@[simp] theorem keeps_pumpSession (hsub : [.link, .journal, .counts, .fwd, .staging, .alerts, .trunk] ⊆ fs) :
    keeps fs s (t.pumpSession) ↔ keeps fs s t := (State.pumpSession_keeps t).iff hsub

theorem State.toldQueued_keeps (s : State) : keeps [.link, .journal, .counts, .fwd, .staging, .alerts, .trunk] s (s.toldQueued) := by
  unfold State.toldQueued
  repeat' split
  all_goals simp

@[simp] theorem keeps_toldQueued (hsub : [.link, .journal, .counts, .fwd, .staging, .alerts, .trunk] ⊆ fs) :
    keeps fs s (t.toldQueued) ↔ keeps fs s t := (State.toldQueued_keeps t).iff hsub

theorem State.serveHeld_keeps (s : State) : keeps [.link, .journal, .counts, .fwd, .staging, .alerts, .trunk] s (s.serveHeld) := by
  unfold State.serveHeld
  repeat' split
  all_goals simp

@[simp] theorem keeps_serveHeld (hsub : [.link, .journal, .counts, .fwd, .staging, .alerts, .trunk] ⊆ fs) :
    keeps fs s (t.serveHeld) ↔ keeps fs s t := (State.serveHeld_keeps t).iff hsub

theorem State.startAttempt_keeps (s : State) (k : AttemptKind) : keeps [.link, .journal, .counts, .fwd, .staging, .alerts, .trunk] s (s.startAttempt k) := by
  unfold State.startAttempt
  simp

@[simp] theorem keeps_startAttempt (k : AttemptKind) (hsub : [.link, .journal, .counts, .fwd, .staging, .alerts, .trunk] ⊆ fs) :
    keeps fs s (t.startAttempt k) ↔ keeps fs s t := (State.startAttempt_keeps t k).iff hsub

theorem State.testWindowStart_keeps (s : State) : keeps [.link, .journal, .counts, .fwd, .staging, .alerts, .trunk] s (s.testWindowStart) := by
  unfold State.testWindowStart
  dsimp only
  repeat' split
  all_goals simp

@[simp] theorem keeps_testWindowStart (hsub : [.link, .journal, .counts, .fwd, .staging, .alerts, .trunk] ⊆ fs) :
    keeps fs s (t.testWindowStart) ↔ keeps fs s t := (State.testWindowStart_keeps t).iff hsub

theorem State.keyEdge_keeps (s : State) : keeps [.link, .journal, .counts, .fwd, .staging, .alerts, .trunk] s (s.keyEdge) := by
  unfold State.keyEdge
  repeat' split
  all_goals simp

@[simp] theorem keeps_keyEdge (hsub : [.link, .journal, .counts, .fwd, .staging, .alerts, .trunk] ⊆ fs) :
    keeps fs s (t.keyEdge) ↔ keeps fs s t := (State.keyEdge_keeps t).iff hsub

theorem State.earlyStart_keeps (s : State) : keeps [.link, .journal, .counts, .fwd, .staging, .alerts, .trunk] s (s.earlyStart) := by
  unfold State.earlyStart
  repeat' split
  all_goals simp

@[simp] theorem keeps_earlyStart (hsub : [.link, .journal, .counts, .fwd, .staging, .alerts, .trunk] ⊆ fs) :
    keeps fs s (t.earlyStart) ↔ keeps fs s t := (State.earlyStart_keeps t).iff hsub

theorem State.watermarkCrossed_keeps (s : State) : keeps [.link, .journal, .counts, .fwd, .staging, .alerts, .trunk] s (s.watermarkCrossed) := by
  unfold State.watermarkCrossed
  repeat' split
  all_goals simp

@[simp] theorem keeps_watermarkCrossed (hsub : [.link, .journal, .counts, .fwd, .staging, .alerts, .trunk] ⊆ fs) :
    keeps fs s (t.watermarkCrossed) ↔ keeps fs s t := (State.watermarkCrossed_keeps t).iff hsub

theorem State.takeEarlyNotice_keeps (s : State) : keeps [.link, .journal, .counts, .fwd, .staging, .alerts, .trunk] s (s.takeEarlyNotice) := by
  unfold State.takeEarlyNotice
  repeat' split
  all_goals simp

@[simp] theorem keeps_takeEarlyNotice (hsub : [.link, .journal, .counts, .fwd, .staging, .alerts, .trunk] ⊆ fs) :
    keeps fs s (t.takeEarlyNotice) ↔ keeps fs s t := (State.takeEarlyNotice_keeps t).iff hsub

theorem State.judgeHolder_keeps (s : State) : keeps [.link, .journal, .counts, .fwd, .staging, .alerts] s (s.judgeHolder) := by
  unfold State.judgeHolder
  dsimp only
  repeat' split
  all_goals simp

@[simp] theorem keeps_judgeHolder (hsub : [.link, .journal, .counts, .fwd, .staging, .alerts] ⊆ fs) :
    keeps fs s (t.judgeHolder) ↔ keeps fs s t := (State.judgeHolder_keeps t).iff hsub

/-! ### The staging list -/

theorem State.storeRecord_keeps (s : State) (i : Nat) (r : ChangeRecord) : keeps [.staging, .counts] s (s.storeRecord i r) := by
  unfold State.storeRecord
  repeat' split
  all_goals simp

@[simp] theorem keeps_storeRecord (i : Nat) (r : ChangeRecord) (hsub : [.staging, .counts] ⊆ fs) :
    keeps fs s (t.storeRecord i r) ↔ keeps fs s t := (State.storeRecord_keeps t i r).iff hsub

theorem storeRecords_keeps (i : Nat) (rs : List ChangeRecord) (s : State) :
    keeps [.staging, .counts] s (storeRecords i rs s) := by
  induction rs generalizing i s with
  | nil => exact keeps.refl _ _
  | cons r rs ih => exact (State.storeRecord_keeps s i r).trans (ih _ _)

@[simp] theorem keeps_storeRecords (i : Nat) (rs : List ChangeRecord) (h : [.staging, .counts] ⊆ fs) :
    keeps fs s (storeRecords i rs t) ↔ keeps fs s t := (storeRecords_keeps i rs t).iff h

theorem State.freeStaging_keeps (s : State) : keeps [.staging] s (s.freeStaging) := by
  unfold State.freeStaging
  repeat' split
  all_goals simp

@[simp] theorem keeps_freeStaging (hsub : [.staging] ⊆ fs) :
    keeps fs s (t.freeStaging) ↔ keeps fs s t := (State.freeStaging_keeps t).iff hsub

theorem shareFrom_keeps (n : Nat) (s : State) : keeps [.staging, .trunk, .counts] s (shareFrom n s) := by
  induction n generalizing s with
  | zero => exact keeps.refl _ _
  | succ n ih =>
    unfold shareFrom
    dsimp only
    repeat' split
    all_goals first
      | exact keeps.trans (by simp) (ih _)
      | simp

@[simp] theorem keeps_shareFrom (n : Nat) (h : [.staging, .trunk, .counts] ⊆ fs) :
    keeps fs s (shareFrom n t) ↔ keeps fs s t := (shareFrom_keeps n t).iff h

theorem State.shareOn_keeps (s : State) : keeps [.staging, .trunk, .counts] s (s.shareOn) := shareFrom_keeps _ s

@[simp] theorem keeps_shareOn (hsub : [.staging, .trunk, .counts] ⊆ fs) :
    keeps fs s (t.shareOn) ↔ keeps fs s t := (State.shareOn_keeps t).iff hsub

theorem State.shareNext_keeps (s : State) : keeps [.staging, .trunk, .counts] s (s.shareNext) := by
  unfold State.shareNext
  repeat' split
  all_goals simp

@[simp] theorem keeps_shareNext (hsub : [.staging, .trunk, .counts] ⊆ fs) :
    keeps fs s (t.shareNext) ↔ keeps fs s t := (State.shareNext_keeps t).iff hsub

theorem State.releaseComplete_keeps (s : State) : keeps [.book, .link, .staging, .counts] s (s.releaseComplete) := by
  unfold State.releaseComplete
  simp

@[simp] theorem keeps_releaseComplete (hsub : [.book, .link, .staging, .counts] ⊆ fs) :
    keeps fs s (t.releaseComplete) ↔ keeps fs s t := (State.releaseComplete_keeps t).iff hsub

theorem State.beginRelease_keeps (s : State) : keeps [.book, .link, .staging, .trunk, .counts] s (s.beginRelease) := by
  unfold State.beginRelease
  by_cases h : s.staging.count.getD 0 = 0 <;> simp [h]

@[simp] theorem keeps_beginRelease (hsub : [.book, .link, .staging, .trunk, .counts] ⊆ fs) :
    keeps fs s (t.beginRelease) ↔ keeps fs s t := (State.beginRelease_keeps t).iff hsub

/-! ### The mode and event unit -/

theorem State.noticeMode_keeps (s : State) (m : Mode) : keeps [.link, .journal, .counts, .fwd, .staging, .alerts] s (s.noticeMode m) := by
  unfold State.noticeMode
  dsimp only
  repeat' split
  all_goals simp

@[simp] theorem keeps_noticeMode (m : Mode) (hsub : [.link, .journal, .counts, .fwd, .staging, .alerts] ⊆ fs) :
    keeps fs s (t.noticeMode m) ↔ keeps fs s t := (State.noticeMode_keeps t m).iff hsub

theorem State.changeMode_keeps (s : State) (m : Mode) : keeps [.link, .journal, .counts, .fwd, .staging, .alerts, .unit] s (s.changeMode m) := by
  unfold State.changeMode
  dsimp only
  repeat' split
  all_goals simp

@[simp] theorem keeps_changeMode (m : Mode) (hsub : [.link, .journal, .counts, .fwd, .staging, .alerts, .unit] ⊆ fs) :
    keeps fs s (t.changeMode m) ↔ keeps fs s t := (State.changeMode_keeps t m).iff hsub

theorem State.decideMode_keeps (s : State) : keeps [.link, .journal, .counts, .fwd, .staging, .alerts, .unit] s (s.decideMode) := by
  unfold State.decideMode
  dsimp only
  repeat' split
  all_goals simp

@[simp] theorem keeps_decideMode (hsub : [.link, .journal, .counts, .fwd, .staging, .alerts, .unit] ⊆ fs) :
    keeps fs s (t.decideMode) ↔ keeps fs s t := (State.decideMode_keeps t).iff hsub

theorem State.recordSchedule_keeps (s : State) : keeps [.unit, .counts] s (s.recordSchedule) := by
  unfold State.recordSchedule
  dsimp only
  repeat' split
  all_goals simp

@[simp] theorem keeps_recordSchedule (hsub : [.unit, .counts] ⊆ fs) :
    keeps fs s (t.recordSchedule) ↔ keeps fs s t := (State.recordSchedule_keeps t).iff hsub

theorem State.testRollover_keeps (s : State) : keeps [.unit, .fwd] s (s.testRollover) := by
  unfold State.testRollover
  dsimp only
  repeat' split
  all_goals simp

@[simp] theorem keeps_testRollover (hsub : [.unit, .fwd] ⊆ fs) :
    keeps fs s (t.testRollover) ↔ keeps fs s t := (State.testRollover_keeps t).iff hsub

theorem State.afterClock_keeps (s : State) : keeps [.link, .journal, .counts, .fwd, .staging, .alerts, .unit] s (s.afterClock) := by
  unfold State.afterClock
  simp

@[simp] theorem keeps_afterClock (hsub : [.link, .journal, .counts, .fwd, .staging, .alerts, .unit] ⊆ fs) :
    keeps fs s (t.afterClock) ↔ keeps fs s t := (State.afterClock_keeps t).iff hsub

theorem State.takeTime_keeps (s : State) (x : StoreTime) (c : Count) : keeps [.link, .journal, .counts, .fwd, .staging, .alerts, .unit] s (s.takeTime x c) := by
  unfold State.takeTime
  simp

@[simp] theorem keeps_takeTime (x : StoreTime) (c : Count) (hsub : [.link, .journal, .counts, .fwd, .staging, .alerts, .unit] ⊆ fs) :
    keeps fs s (t.takeTime x c) ↔ keeps fs s t := (State.takeTime_keeps t x c).iff hsub

theorem State.timeFromMark_keeps (s : State) (x : StoreTime) : keeps [.link, .journal, .counts, .fwd, .staging, .alerts, .unit] s (s.timeFromMark x) := by
  unfold State.timeFromMark
  repeat' split
  all_goals simp

@[simp] theorem keeps_timeFromMark (x : StoreTime) (hsub : [.link, .journal, .counts, .fwd, .staging, .alerts, .unit] ⊆ fs) :
    keeps fs s (t.timeFromMark x) ↔ keeps fs s t := (State.timeFromMark_keeps t x).iff hsub

theorem State.timeFromAccept_keeps (s : State) (x : StoreTime) : keeps [.link, .journal, .counts, .fwd, .staging, .alerts, .unit] s (s.timeFromAccept x) := by
  unfold State.timeFromAccept
  repeat' split
  all_goals simp

@[simp] theorem keeps_timeFromAccept (x : StoreTime) (hsub : [.link, .journal, .counts, .fwd, .staging, .alerts, .unit] ⊆ fs) :
    keeps fs s (t.timeFromAccept x) ↔ keeps fs s t := (State.timeFromAccept_keeps t x).iff hsub

theorem State.mainsChanged_keeps (s : State) (b : Bool) : keeps [.unit, .counts] s (s.mainsChanged b) := by
  unfold State.mainsChanged
  repeat' split
  all_goals simp

@[simp] theorem keeps_mainsChanged (b : Bool) (hsub : [.unit, .counts] ⊆ fs) :
    keeps fs s (t.mainsChanged b) ↔ keeps fs s t := (State.mainsChanged_keeps t b).iff hsub

theorem State.lineChanged_keeps (s : State) (n : LineNo) (b : Bool) : keeps [.link, .journal, .counts, .fwd, .staging, .alerts, .trunk, .unit] s (s.lineChanged n b) := by
  unfold State.lineChanged
  dsimp only
  repeat' split
  all_goals simp

@[simp] theorem keeps_lineChanged (n : LineNo) (b : Bool) (hsub : [.link, .journal, .counts, .fwd, .staging, .alerts, .trunk, .unit] ⊆ fs) :
    keeps fs s (t.lineChanged n b) ↔ keeps fs s t := (State.lineChanged_keeps t n b).iff hsub

theorem State.readLines_keeps (s : State) : keeps [.unit, .counts] s (s.readLines) := by
  unfold State.readLines
  dsimp only
  repeat' split
  all_goals simp

@[simp] theorem keeps_readLines (hsub : [.unit, .counts] ⊆ fs) :
    keeps fs s (t.readLines) ↔ keeps fs s t := (State.readLines_keeps t).iff hsub

theorem State.endOverride_keeps (s : State) : keeps [.unit, .counts] s (s.endOverride) := by
  unfold State.endOverride
  repeat' split
  all_goals simp

@[simp] theorem keeps_endOverride (hsub : [.unit, .counts] ⊆ fs) :
    keeps fs s (t.endOverride) ↔ keeps fs s t := (State.endOverride_keeps t).iff hsub

/-! ### Messages from head office -/

theorem State.unexpected_keeps (s : State) : keeps [.counts] s (s.unexpected) := by
  unfold State.unexpected
  simp

@[simp] theorem keeps_unexpected (hsub : [.counts] ⊆ fs) :
    keeps fs s (t.unexpected) ↔ keeps fs s t := (State.unexpected_keeps t).iff hsub

theorem State.restartReply_keeps (s : State) : keeps [.link] s (s.restartReply) := by
  unfold State.restartReply
  simp

@[simp] theorem keeps_restartReply (hsub : [.link] ⊆ fs) :
    keeps fs s (t.restartReply) ↔ keeps fs s t := (State.restartReply_keeps t).iff hsub

theorem State.takeAccept_keeps (s : State) (x : StoreTime) (n : Nat) : keeps [.link, .journal, .counts, .fwd, .staging, .alerts, .trunk, .unit] s (s.takeAccept x n) := by
  unfold State.takeAccept
  simp

@[simp] theorem keeps_takeAccept (x : StoreTime) (n : Nat) (hsub : [.link, .journal, .counts, .fwd, .staging, .alerts, .trunk, .unit] ⊆ fs) :
    keeps fs s (t.takeAccept x n) ↔ keeps fs s t := (State.takeAccept_keeps t x n).iff hsub

theorem State.takeRefuse_keeps (s : State) (c : Nat) : keeps [.link, .journal, .counts, .fwd, .staging, .alerts] s (s.takeRefuse c) := by
  unfold State.takeRefuse
  simp

@[simp] theorem keeps_takeRefuse (c : Nat) (hsub : [.link, .journal, .counts, .fwd, .staging, .alerts] ⊆ fs) :
    keeps fs s (t.takeRefuse c) ↔ keeps fs s t := (State.takeRefuse_keeps t c).iff hsub

theorem State.takeBatchTaken_keeps (s : State) (n : Nat) : keeps [.link, .journal, .counts, .fwd, .staging, .alerts, .trunk] s (s.takeBatchTaken n) := by
  unfold State.takeBatchTaken
  dsimp only
  repeat' split
  all_goals simp

@[simp] theorem keeps_takeBatchTaken (n : Nat) (hsub : [.link, .journal, .counts, .fwd, .staging, .alerts, .trunk] ⊆ fs) :
    keeps fs s (t.takeBatchTaken n) ↔ keeps fs s t := (State.takeBatchTaken_keeps t n).iff hsub

theorem State.refuseFile_keeps (s : State) (n : Nat) (b : Bool) : keeps [.link, .journal, .counts, .fwd, .staging, .alerts, .trunk] s (s.refuseFile n b) := by
  unfold State.refuseFile
  simp

@[simp] theorem keeps_refuseFile (n : Nat) (b : Bool) (hsub : [.link, .journal, .counts, .fwd, .staging, .alerts, .trunk] ⊆ fs) :
    keeps fs s (t.refuseFile n b) ↔ keeps fs s t := (State.refuseFile_keeps t n b).iff hsub

theorem State.takeFileStart_keeps (s : State) (n c k : Nat) : keeps [.link, .journal, .counts, .fwd, .staging, .alerts, .trunk] s (s.takeFileStart n c k) := by
  unfold State.takeFileStart
  repeat' split
  all_goals simp

@[simp] theorem keeps_takeFileStart (n c k : Nat) (hsub : [.link, .journal, .counts, .fwd, .staging, .alerts, .trunk] ⊆ fs) :
    keeps fs s (t.takeFileStart n c k) ↔ keeps fs s t := (State.takeFileStart_keeps t n c k).iff hsub

theorem State.formFileBad_keeps (s : State) (n : Nat) : keeps [.link, .counts, .staging, .alerts] s (s.formFileBad n) := by
  unfold State.formFileBad
  simp

@[simp] theorem keeps_formFileBad (n : Nat) (hsub : [.link, .counts, .staging, .alerts] ⊆ fs) :
    keeps fs s (t.formFileBad n) ↔ keeps fs s t := (State.formFileBad_keeps t n).iff hsub

theorem State.fileFailed_keeps (s : State) (n : Nat) : keeps [.link, .journal, .counts, .fwd, .staging, .alerts, .trunk] s (s.fileFailed n) := by
  unfold State.fileFailed
  simp

@[simp] theorem keeps_fileFailed (n : Nat) (hsub : [.link, .journal, .counts, .fwd, .staging, .alerts, .trunk] ⊆ fs) :
    keeps fs s (t.fileFailed n) ↔ keeps fs s t := (State.fileFailed_keeps t n).iff hsub

theorem State.takeFileEnd_keeps (s : State) (n : Nat) : keeps [.link, .journal, .counts, .fwd, .staging, .alerts, .trunk, .book] s (s.takeFileEnd n) := by
  unfold State.takeFileEnd
  repeat' split
  all_goals simp

@[simp] theorem keeps_takeFileEnd (n : Nat) (hsub : [.link, .journal, .counts, .fwd, .staging, .alerts, .trunk, .book] ⊆ fs) :
    keeps fs s (t.takeFileEnd n) ↔ keeps fs s t := (State.takeFileEnd_keeps t n).iff hsub

theorem State.awaited_keeps (s : State) (m : InMessage) : keeps [.link, .journal, .counts, .fwd, .staging, .alerts, .trunk, .unit, .book] s (s.awaited m) := by
  unfold State.awaited
  repeat' split
  all_goals simp

@[simp] theorem keeps_awaited (m : InMessage) (hsub : [.link, .journal, .counts, .fwd, .staging, .alerts, .trunk, .unit, .book] ⊆ fs) :
    keeps fs s (t.awaited m) ↔ keeps fs s t := (State.awaited_keeps t m).iff hsub

theorem State.message_keeps (s : State) (n : Nat) (m : InMessage) : keeps [.link, .journal, .counts, .fwd, .staging, .alerts, .trunk, .unit, .book] s (s.message n m) := by
  unfold State.message
  repeat' split
  all_goals simp

@[simp] theorem keeps_message (n : Nat) (m : InMessage) (hsub : [.link, .journal, .counts, .fwd, .staging, .alerts, .trunk, .unit, .book] ⊆ fs) :
    keeps fs s (t.message n m) ↔ keeps fs s t := (State.message_keeps t n m).iff hsub

theorem State.deliverMessage_keeps (s : State) (n : Nat) (m : InMessage) : keeps [.link, .journal, .counts, .fwd, .staging, .alerts, .trunk, .unit, .book] s (s.deliverMessage n m) := by
  unfold State.deliverMessage
  repeat' split
  all_goals simp

@[simp] theorem keeps_deliverMessage (n : Nat) (m : InMessage) (hsub : [.link, .journal, .counts, .fwd, .staging, .alerts, .trunk, .unit, .book] ⊆ fs) :
    keeps fs s (t.deliverMessage n m) ↔ keeps fs s t := (State.deliverMessage_keeps t n m).iff hsub

theorem State.openWindow_keeps (s : State) : keeps [.link] s (s.openWindow) := by
  unfold State.openWindow
  repeat' split
  all_goals simp

@[simp] theorem keeps_openWindow (hsub : [.link] ⊆ fs) :
    keeps fs s (t.openWindow) ↔ keeps fs s t := (State.openWindow_keeps t).iff hsub

theorem State.testResting_keeps (s : State) : keeps [.link, .alerts, .counts] s (s.testResting) := by
  unfold State.testResting
  dsimp only
  repeat' split
  all_goals simp

@[simp] theorem keeps_testResting (hsub : [.link, .alerts, .counts] ⊆ fs) :
    keeps fs s (t.testResting) ↔ keeps fs s t := (State.testResting_keeps t).iff hsub

end Sys2Proof.Machine
end

