-- ==== Sys2Proof/Laws/Invariants.lean ====
section
/-! SUPPORT. What each shared operation does to a count, and that each shared operation on the journal, the alert list, the
transmit queues and the price book keeps what `Journal.Ok`, `AlertList.Ok`, `Trunk.Bounded` and `Book.Ok` say. -/

namespace Sys2Proof.Machine

open Sys2Proof

/-! ### Counts -/

theorem Count.ctorIdx_inj {a b : Count} (h : a.ctorIdx = b.ctorIdx) : a = b := by
  cases a <;> cases b <;> first | rfl | exact absurd h (by decide)

/-- A count raised by 1, and every other count as it was. -/
theorem State.count_bump (s : State) (c d : Count) :
    (s.bump c).count d = if d = c then min (s.count d + 1) 4294967295 else s.count d := by
  simp only [State.bump, State.bumpBy, Nat.one_ne_zero, if_false, State.count, AMap.get_put]
  by_cases h : d = c
  · subst h
    simp [raise, Config.countMax]
  · have : d.ctorIdx ≠ c.ctorIdx := fun e => h (Count.ctorIdx_inj e)
    simp [h, this]

/-- A reset clears every count (R24, R49, R75, R101, R120, R141, R165, R189, R204, R210). -/
@[simp] theorem State.cleared_count (s : State) (c : Count) : s.cleared.count c = 0 := rfl

/-- Entering STARTING leaves the count of alerts recorded at 1, for the RESTARTED alert, and every other at 0 (R204). -/
theorem State.enterStarting_count (s : State) (r : Cause) (c : Count) :
    (s.enterStarting r).count c = if c = .alertsRecorded then 1 else 0 := by
  show ({ s.cleared with cause := r }.bump .alertsRecorded).count c = _
  rw [State.count_bump]
  rfl

/-- Entering STARTING leaves the RESTARTED alert alone in the list (R204). -/
theorem State.enterStarting_alerts (s : State) (r : Cause) : (s.enterStarting r).alerts = AlertList.initial r := rfl

/-- Of the label radio controller a reset leaves the OWNED entries, each in its state after a reset (R102, R120). -/
theorem State.enterStarting_labels (s : State) (r : Cause) :
    (s.enterStarting r).labels = Labels.initial (s.labels.owned.map fun e => (e.1, e.2.afterReset s.now)) := rfl

@[simp] theorem State.recordAlert_journal (s : State) (k : AlertKind) (v : Severity) (j : Subject) (d : Detail) :
    (s.recordAlert k v j d).journal = s.journal := by
  simp only [State.recordAlert]
  split <;> simp

@[simp] theorem State.recordAlert_book (s : State) (k : AlertKind) (v : Severity) (j : Subject) (d : Detail) :
    (s.recordAlert k v j d).book = s.book := by
  simp only [State.recordAlert]
  split <;> simp

/-! ### The journal -/

theorem Journal.issued_lt {j : Journal} (h : j.Ok) {n : Nat} (hc : j.counter = .next n) :
    ∀ r ∈ j.records, r.serial < n := by
  intro r hr
  have := h.issued r hr
  simpa [hc, SerialCounter.issued] using this

/-- An append keeps the journal: its serial is above every serial held, and the counter has issued it (R67, R68). -/
theorem State.append_journal_ok (s : State) (r : JournalRecord) (h : s.journal.Ok) : (s.append r).2.journal.Ok := by
  unfold State.append
  split
  · simpa using h
  · rename_i n hc
    split
    · simpa using h
    · rename_i hlen
      have key : ({ s.journal with records := s.journal.records ++ [{ r with serial := n, sent := false }]
                                   counter := nextCounter n
                                   high := decide (s.journal.records.length + 1 = s.settings.highWatermark) ||
                                     s.journal.high } : Journal).Ok := by
        have hr := h.counter
        simp only [hc, SerialCounter.inRange] at hr
        refine ⟨?_, ?_, ?_, ?_, h.batches⟩
        · simp only [List.length_append, List.length_cons, List.length_nil]
          omega
        · simp only [List.map_append, List.map_cons, List.map_nil, List.pairwise_append, List.pairwise_cons,
            List.not_mem_nil, false_imp_iff, implies_true, List.Pairwise.nil, and_self, List.mem_singleton, true_and]
          refine ⟨h.rising, ?_⟩
          rintro a ha b rfl
          obtain ⟨x, hx, rfl⟩ := List.mem_map.1 ha
          exact Journal.issued_lt h hc x hx
        · intro x hx
          simp only [List.mem_append, List.mem_singleton] at hx
          have hx' : x.serial ≤ n := by
            rcases hx with hx | rfl
            · exact Nat.le_of_lt (Journal.issued_lt h hc x hx)
            · exact Nat.le_refl n
          simp only [nextCounter]
          split
          · simp only [SerialCounter.issued]
            omega
          · simp only [SerialCounter.issued]
            omega
        · simp only [nextCounter]
          split
          · simp only [SerialCounter.inRange]
            omega
          · trivial
      by_cases hx : s.journal.records.length + 1 = s.settings.highWatermark
      · simpa [hx, State.withJournal] using key
      · simpa [hx, State.withJournal] using key

/-- Marking records sent or unsent changes no serial. -/
theorem Journal.ok_of_marks {j : Journal} (h : j.Ok) (f : JournalRecord → JournalRecord)
    (hf : ∀ r, (f r).serial = r.serial) (out : List BatchMark) (hb : out.length ≤ 2) (high : Bool) :
    ({ j with records := j.records.map f, outstanding := out, high := high } : Journal).Ok := by
  have hm : (j.records.map f).map (·.serial) = j.records.map (·.serial) := by simp [Function.comp_def, hf]
  refine ⟨by simpa using h.size, by simpa [hm, hf, Function.comp_def] using h.rising, ?_, h.counter, hb⟩
  intro r hr
  obtain ⟨x, hx, rfl⟩ := List.mem_map.1 hr
  rw [hf]
  exact h.issued x hx

/-- Removing records from the oldest end keeps the journal (R72). -/
theorem Journal.ok_of_dropWhile {j : Journal} (h : j.Ok) (p : JournalRecord → Bool) (out : List BatchMark)
    (hb : out.length ≤ 2) (high : Bool) :
    ({ j with records := j.records.dropWhile p, outstanding := out, high := high } : Journal).Ok := by
  have hs := List.dropWhile_sublist p (l := j.records)
  exact ⟨Nat.le_trans hs.length_le h.size, h.rising.sublist (hs.map _), fun r hr => h.issued r (hs.subset hr), h.counter, hb⟩

theorem State.clearSent_journal_ok (s : State) (h : s.journal.Ok) : s.clearSent.journal.Ok := by
  have := Journal.ok_of_marks h (fun r => { r with sent := false }) (fun _ => rfl) [] (by simp) s.journal.high
  unfold State.clearSent
  simp only
  split <;> simpa [State.withJournal] using this

theorem State.takeBatch_journal_ok (s : State) (cut : Nat) (h : s.journal.Ok) : (s.takeBatch cut).2.journal.Ok := by
  unfold State.takeBatch
  simp only
  split
  · exact h
  · split
    · exact h
    · rename_i hlen
      refine Journal.ok_of_marks h _ (fun r => ?_) _ ?_ _
      · split <;> rfl
      · simp only [List.length_append, List.length_cons, List.length_nil]
        omega

theorem State.acknowledge_journal_ok (s : State) (first last : Nat) (h : s.journal.Ok) :
    (s.acknowledge first last).journal.Ok := by
  unfold State.acknowledge
  split
  · simpa using h
  · rename_i m rest hout
    split
    · have hb : rest.length ≤ 2 := by
        have := h.batches
        rw [hout] at this
        simp only [List.length_cons] at this
        omega
      simpa [State.withJournal] using Journal.ok_of_dropWhile h (fun r => decide (r.serial ≤ last)) rest hb _
    · simpa using h

/-! ### The alert list -/

/-- Dropping the first alert that satisfies `p`, where there is one, shortens the list by one. -/
theorem length_dropFirst (p : Alert → Bool) (l : List Alert) (h : l.any p = true) :
    (dropFirst p l).length + 1 = l.length := by
  induction l with
  | nil => simp at h
  | cons a l ih =>
    simp only [dropFirst]
    split
    · simp
    · rename_i hp
      simp only [List.any_cons, Bool.or_eq_true] at h
      have := ih (h.resolve_left hp)
      simp only [List.length_cons]
      omega

/-- The alerts after a recording: the alert recorded at the tail, with the next serial (R200). -/
theorem State.recordAlert_alerts (s : State) (k : AlertKind) (v : Severity) (j : Subject) (d : Detail) :
    (s.recordAlert k v j d).alerts =
      { list := (if s.alerts.list.length ≥ 64 then
          (if s.alerts.list.any (·.acked) then dropFirst (·.acked) s.alerts.list else s.alerts.list.drop 1)
          else s.alerts.list) ++
          [{ serial := s.alerts.next, kind := k, severity := v, time := s.unit.clock, subject := j, detail := d
             acked := false }]
        next := if s.alerts.next < 4294967295 then s.alerts.next + 1 else s.alerts.next } := by
  unfold State.recordAlert
  by_cases h : s.alerts.list.length ≥ 64
  · simp only [Config.alertCapacity, h, decide_true, if_true]
    rfl
  · simp only [Config.alertCapacity, h, decide_false, if_false]
    rfl

/-- The alert recorded is in the list. -/
theorem State.recordAlert_mem (s : State) (k : AlertKind) (v : Severity) (j : Subject) (d : Detail) :
    ∃ a ∈ (s.recordAlert k v j d).alerts.list, a.kind = k ∧ a.severity = v ∧ a.subject = j ∧ a.detail = d ∧
      a.acked = false ∧ a.serial = s.alerts.next := by
  rw [State.recordAlert_alerts]
  exact ⟨_, List.mem_append_right _ (List.mem_singleton.2 rfl), rfl, rfl, rfl, rfl, rfl, rfl⟩

theorem State.recordAlert_ok (s : State) (k : AlertKind) (v : Severity) (j : Subject) (d : Detail) (h : s.alerts.Ok) :
    (s.recordAlert k v j d).alerts.Ok := by
  simp only [AlertList.Ok, Config.alertCapacity] at h ⊢
  rw [State.recordAlert_alerts]
  simp only [List.length_append, List.length_cons, List.length_nil]
  split
  · rename_i hfull
    split
    · rename_i ha
      have := length_dropFirst _ _ ha
      omega
    · simp only [List.length_drop]
      omega
  · omega

/-! ### The transmit queues -/

/-- Replacing one queue by one no longer than its capacity keeps every queue within its size. -/
theorem Trunk.setQueue_bounded {t : Trunk} (h : t.Bounded) (c : TrunkClass) (q : List Frame)
    (hq : q.length ≤ Config.queueCapacity c) : (t.setQueue c q).Bounded := by
  intro d
  have hu := h .urgent
  have hn := h .notice
  have hb := h .bulk
  simp only [Trunk.queue] at hu hn hb
  cases c <;> cases d <;> simp only [Trunk.setQueue, Trunk.queue] <;> assumption

/-- The queues of a trunk controller decide whether it is bounded. -/
theorem Trunk.bounded_of_queues {t u : Trunk} (h : t.Bounded) (hu : u.urgent = t.urgent) (hn : u.notice = t.notice)
    (hb : u.bulk = t.bulk) : u.Bounded := by
  intro c
  have := h c
  cases c <;> simp only [Trunk.queue, hu, hn, hb] at this ⊢ <;> exact this

theorem State.offer_bounded (s : State) (f : Frame) (h : s.trunk.Bounded) : (s.offer f).2.trunk.Bounded := by
  unfold State.offer
  simp only
  split
  · simpa using h
  · split
    · rename_i hlen
      refine Trunk.setQueue_bounded h _ _ ?_
      simp only [List.length_append, List.length_cons, List.length_nil]
      omega
    · split
      · simpa using h
      · split
        · split
          · exact Trunk.bounded_of_queues h rfl rfl rfl
          · exact h
        · simp only [State.bump_trunk, State.withTrunk_trunk]
          cases f.body.trunkClass <;> exact Trunk.bounded_of_queues h rfl rfl rfl

theorem Trunk.popAdmit_bounded {t : Trunk} (h : t.Bounded) (c : TrunkClass) : (t.popAdmit c).2.Bounded := by
  have hc := h c
  have hcap : 1 ≤ Config.queueCapacity c := by cases c <;> decide
  have h1 : ({ t.setQueue c ((t.queue c).drop 1) with inAir := none } : Trunk).Bounded := by
    refine Trunk.bounded_of_queues (Trunk.setQueue_bounded h c ((t.queue c).drop 1) ?_) rfl rfl rfl
    simp only [List.length_drop]
    omega
  unfold Trunk.popAdmit
  simp only
  split
  · exact h1
  · rename_i g held hh
    have hq : ({ t.setQueue c ((t.queue c).drop 1) with inAir := none } : Trunk).queue c = (t.queue c).drop 1 := by
      cases c <;> rfl
    have h2 := Trunk.setQueue_bounded h1 c ((t.queue c).drop 1 ++ [g]) (by
      simp only [List.length_append, List.length_drop, List.length_cons, List.length_nil]
      omega)
    rw [hq]
    cases c <;> exact Trunk.bounded_of_queues h2 rfl rfl rfl

/-! ### The price book -/

/-- Entries that all rise, with one put in that rises. -/
theorem AMap.mem_put {α : Type} {m : AMap α} {k : Nat} {v : α} {x : Nat × α} (h : x ∈ AMap.put m k v) :
    x = (k, v) ∨ x ∈ m := by
  induction m with
  | nil => simpa [AMap.put] using h
  | cons e m ih =>
    obtain ⟨k', v'⟩ := e
    simp only [AMap.put] at h
    split at h
    · simpa using h
    · split at h
      · simp only [List.mem_cons] at h ⊢
        tauto
      · simp only [List.mem_cons] at h ⊢
        rcases h with h | h
        · exact .inr (.inl h)
        · rcases ih h with h | h
          · exact .inl h
          · exact .inr (.inr h)

/-- Putting an entry with rising versions keeps the book, where its article has an entry or there is a free place. -/
theorem State.putEntry_ok (s : State) (a : Nat) (e : Entry) (h : s.book.Ok) (he : e.Rising)
    (room : (s.entry a).isSome ∨ s.book.entries.length < 65536) : (s.putEntry a e).book.Ok := by
  refine ⟨AMap.wf_put _ _ _ h.once, ?_, fun x hx => ?_⟩
  · simp only [State.putEntry, State.withBook, AMap.length_put _ _ _ h.once]
    have := h.size
    simp only [Config.bookCapacity] at this ⊢
    split
    · exact this
    · rename_i hn
      rcases room with hr | hr
      · exact absurd hr hn
      · omega
  · rcases AMap.mem_put hx with rfl | hx
    · exact he
    · exact h.rising x hx

theorem State.removeEntry_ok (s : State) (a : Nat) (h : s.book.Ok) : (s.removeEntry a).book.Ok := by
  refine ⟨AMap.wf_del _ _ h.once, ?_, fun x hx => ?_⟩
  · exact Nat.le_trans (List.length_filter_le _ _) h.size
  · exact h.rising x (List.mem_of_mem_filter hx)

/-- A record that is not stale leaves an entry whose versions rise (R4, R6, R7). -/
theorem Entry.take_rising (e : Entry) (c : Change) (h : e.Rising) (hv : e.highest < c.version) : (e.take c).Rising := by
  simp only [Entry.highest, Nat.max_lt] at hv
  unfold Entry.take
  cases hp : e.phase with
  | steady => simpa [Entry.Rising] using hv.1
  | waiting p =>
    cases c.action <;> simpa [Entry.Rising] using hv.1
  | changing g =>
    simp only [Entry.Rising, hp] at h
    have hpend : g.pending.version < c.version := by
      simpa [Entry.pending, hp, versionOf] using hv.2.1
    simp only [Entry.Rising]
    exact ⟨h.1, fun q hq => by cases hq; exact hpend⟩

/-- Applying a change record keeps the book (R2 to R7). -/
theorem State.applyRecord_ok (s : State) (r : ChangeRecord) (h : s.book.Ok) : (s.applyRecord r).2.book.Ok := by
  unfold State.applyRecord
  split
  · simpa using h
  · rename_i c hc
    split
    · rename_i e he
      split
      · simpa using h
      · split
        · simpa using h
        · rename_i hv
          simp only [State.bump_book]
          refine State.putEntry_ok s _ _ h (Entry.take_rising e c ?_ (by omega)) (.inl (by simp [he]))
          exact h.rising _ (AMap.mem_of_get he)
    · split
      · simpa using h
      · split
        · rename_i hroom
          simp only [State.bump_book]
          refine State.putEntry_ok s _ _ h ?_ (.inr hroom)
          have : 1 ≤ c.version := by
            simp only [recordChange] at hc
            split at hc
            · rename_i hr
              simp only [inRange, Bool.and_eq_true, decide_eq_true_eq] at hr
              cases ha : recordAction r <;> simp [ha] at hc
              rw [← hc]
              exact hr.1.2.1
            · simp at hc
          simp only [Entry.Rising, Entry.announced]
          omega
        · simp only
          split
          · simpa using h
          · refine ⟨?_, ?_, ?_⟩
            · simpa [State.withBook] using h.once
            · simpa [State.withBook] using h.size
            · simpa [State.withBook] using h.rising

end Sys2Proof.Machine
end

