-- ==== Sys2Proof/Laws/LabelFrame.lean ====
section
/-! SUPPORT. What each shared operation of the label radio controller may change. -/

namespace Sys2Proof.Machine

open Sys2Proof

variable {fs gs : List Field} {s t u : State}

/-! ### Turns -/

theorem State.takeBattery_keeps (s : State) (l : Nat) (b : Battery) : keeps [.labels, .alerts, .counts] s (s.takeBattery l b) := by
  unfold State.takeBattery
  dsimp only
  repeat' split
  all_goals simp

@[simp] theorem keeps_takeBattery (l : Nat) (b : Battery) (hsub : [.labels, .alerts, .counts] ⊆ fs) :
    keeps fs s (t.takeBattery l b) ↔ keeps fs s t := (State.takeBattery_keeps t l b).iff hsub

theorem State.unanswered_keeps (s : State) (l : Nat) (o : Owned) : keeps [.book, .labels, .trunk, .counts, .alerts] s (s.unanswered l o) := by
  unfold State.unanswered
  dsimp only
  repeat' split
  all_goals simp

@[simp] theorem keeps_unanswered (l : Nat) (o : Owned) (hsub : [.book, .labels, .trunk, .counts, .alerts] ⊆ fs) :
    keeps fs s (t.unanswered l o) ↔ keeps fs s t := (State.unanswered_keeps t l o).iff hsub

theorem State.moveUnanswered_keeps (s : State) (l : Nat) (o : Owned) (m : Move) : keeps [.labels, .trunk, .counts] s (s.moveUnanswered l o m) := by
  unfold State.moveUnanswered
  dsimp only
  repeat' split
  all_goals simp

@[simp] theorem keeps_moveUnanswered (l : Nat) (o : Owned) (m : Move) (hsub : [.labels, .trunk, .counts] ⊆ fs) :
    keeps fs s (t.moveUnanswered l o m) ↔ keeps fs s t := (State.moveUnanswered_keeps t l o m).iff hsub

theorem State.endTurn_keeps (s : State) (l : Nat) : keeps [.book, .labels, .trunk, .counts, .alerts] s (s.endTurn l) := by
  unfold State.endTurn
  repeat' split
  all_goals simp

@[simp] theorem keeps_endTurn (l : Nat) (hsub : [.book, .labels, .trunk, .counts, .alerts] ⊆ fs) :
    keeps fs s (t.endTurn l) ↔ keeps fs s t := (State.endTurn_keeps t l).iff hsub

theorem State.endTurns_keeps (s : State) : keeps [.book, .labels, .trunk, .counts, .alerts] s (s.endTurns) := by
  unfold State.endTurns
  simp

@[simp] theorem keeps_endTurns (hsub : [.book, .labels, .trunk, .counts, .alerts] ⊆ fs) :
    keeps fs s (t.endTurns) ↔ keeps fs s t := (State.endTurns_keeps t).iff hsub

theorem State.cutTurn_keeps (s : State) (l : Nat) : keeps [.labels, .counts] s (s.cutTurn l) := by
  unfold State.cutTurn
  repeat' split
  all_goals simp

@[simp] theorem keeps_cutTurn (l : Nat) (hsub : [.labels, .counts] ⊆ fs) :
    keeps fs s (t.cutTurn l) ↔ keeps fs s t := (State.cutTurn_keeps t l).iff hsub

theorem State.cutTurns_keeps (s : State) : keeps [.labels, .counts] s (s.cutTurns) := by
  unfold State.cutTurns
  simp

@[simp] theorem keeps_cutTurns (hsub : [.labels, .counts] ⊆ fs) :
    keeps fs s (t.cutTurns) ↔ keeps fs s t := (State.cutTurns_keeps t).iff hsub

theorem State.unbindStray_keeps (s : State) (l a : Nat) : keeps [.book, .labels, .trunk, .counts] s (s.unbindStray l a) := by
  unfold State.unbindStray
  repeat' split
  all_goals simp

@[simp] theorem keeps_unbindStray (l a : Nat) (hsub : [.book, .labels, .trunk, .counts] ⊆ fs) :
    keeps fs s (t.unbindStray l a) ↔ keeps fs s t := (State.unbindStray_keeps t l a).iff hsub

theorem State.redirect_keeps (s : State) (l : Nat) : keeps [.book, .labels, .trunk, .counts] s (s.redirect l) := by
  unfold State.redirect
  repeat' split
  all_goals simp

@[simp] theorem keeps_redirect (l : Nat) (hsub : [.book, .labels, .trunk, .counts] ⊆ fs) :
    keeps fs s (t.redirect l) ↔ keeps fs s t := (State.redirect_keeps t l).iff hsub

theorem State.markSent_keeps (s : State) (l d : Nat) (o : Owned) (x : Display) : keeps [.labels] s (s.markSent l d o x) := by
  unfold State.markSent
  simp

@[simp] theorem keeps_markSent (l d : Nat) (o : Owned) (x : Display) (hsub : [.labels] ⊆ fs) :
    keeps fs s (t.markSent l d o x) ↔ keeps fs s t := (State.markSent_keeps t l d o x).iff hsub

theorem State.sendPacket_keeps (s : State) (l d : Nat) (o : Owned) : keeps [.labels, .out, .counts] s (s.sendPacket l d o) := by
  unfold State.sendPacket
  dsimp only
  repeat' split
  all_goals simp

@[simp] theorem keeps_sendPacket (l d : Nat) (o : Owned) (hsub : [.labels, .out, .counts] ⊆ fs) :
    keeps fs s (t.sendPacket l d o) ↔ keeps fs s t := (State.sendPacket_keeps t l d o).iff hsub

theorem State.takeTurn_keeps (s : State) (l : Nat) : keeps [.book, .labels, .trunk, .counts, .out] s (s.takeTurn l) := by
  unfold State.takeTurn
  dsimp only
  repeat' split
  all_goals simp

@[simp] theorem keeps_takeTurn (l : Nat) (hsub : [.book, .labels, .trunk, .counts, .out] ⊆ fs) :
    keeps fs s (t.takeTurn l) ↔ keeps fs s t := (State.takeTurn_keeps t l).iff hsub

theorem State.sendMove_keeps (s : State) (l : Nat) : keeps [.labels, .out] s (s.sendMove l) := by
  unfold State.sendMove
  repeat' split
  all_goals simp

@[simp] theorem keeps_sendMove (l : Nat) (hsub : [.labels, .out] ⊆ fs) :
    keeps fs s (t.sendMove l) ↔ keeps fs s t := (State.sendMove_keeps t l).iff hsub

theorem State.beginSlot_keeps (s : State) : keeps [.book, .labels, .trunk, .counts, .out] s (s.beginSlot) := by
  unfold State.beginSlot
  dsimp only
  repeat' split
  all_goals simp

@[simp] theorem keeps_beginSlot (hsub : [.book, .labels, .trunk, .counts, .out] ⊆ fs) :
    keeps fs s (t.beginSlot) ↔ keeps fs s t := (State.beginSlot_keeps t).iff hsub

/-! ### The label table -/

theorem State.makeRoom_keeps (s : State) : keeps [.labels, .counts] s ((s.makeRoom).2) := by
  unfold State.makeRoom
  repeat' split
  all_goals simp

@[simp] theorem keeps_makeRoom (hsub : [.labels, .counts] ⊆ fs) :
    keeps fs s ((t.makeRoom).2) ↔ keeps fs s t := (State.makeRoom_keeps t).iff hsub

theorem State.countOpt_keeps (s : State) (a : Option Nat) : keeps [.book] s (s.countOpt a) := by
  unfold State.countOpt
  repeat' split
  all_goals simp

@[simp] theorem keeps_countOpt (a : Option Nat) (hsub : [.book] ⊆ fs) :
    keeps fs s (t.countOpt a) ↔ keeps fs s t := (State.countOpt_keeps t a).iff hsub

theorem State.makeOwned_keeps (s : State) (l : Nat) (d : Display) (b : Battery) (a : Option Nat) (h : Hearing) : keeps [.labels, .book] s (s.makeOwned l d b a h) := by
  unfold State.makeOwned
  simp

@[simp] theorem keeps_makeOwned (l : Nat) (d : Display) (b : Battery) (a : Option Nat) (h : Hearing) (hsub : [.labels, .book] ⊆ fs) :
    keeps fs s (t.makeOwned l d b a h) ↔ keeps fs s t := (State.makeOwned_keeps t l d b a h).iff hsub

theorem State.unheard_keeps (s : State) : keeps [.fresh] s ((s.unheard).2) := by
  unfold State.unheard
  simp

@[simp] theorem keeps_unheard (hsub : [.fresh] ⊆ fs) :
    keeps fs s ((t.unheard).2) ↔ keeps fs s t := (State.unheard_keeps t).iff hsub

theorem State.takeIn_keeps (s : State) (l : Nat) (d : Display) (b : Battery) (a : Option Nat) (x : Option Hearing) (c : Count) : keeps [.labels, .book, .counts, .fresh] s ((s.takeIn l d b a x c).2) := by
  unfold State.takeIn
  dsimp only
  repeat' split
  all_goals simp

@[simp] theorem keeps_takeIn (l : Nat) (d : Display) (b : Battery) (a : Option Nat) (x : Option Hearing) (c : Count) (hsub : [.labels, .book, .counts, .fresh] ⊆ fs) :
    keeps fs s ((t.takeIn l d b a x c).2) ↔ keeps fs s t := (State.takeIn_keeps t l d b a x c).iff hsub

theorem State.dropToHeard_keeps (s : State) (l : Nat) (o : Owned) (n : Station) (y : Option Int) : keeps [.book, .labels, .trunk, .counts] s (s.dropToHeard l o n y) := by
  unfold State.dropToHeard
  simp

@[simp] theorem keeps_dropToHeard (l : Nat) (o : Owned) (n : Station) (y : Option Int) (hsub : [.book, .labels, .trunk, .counts] ⊆ fs) :
    keeps fs s (t.dropToHeard l o n y) ↔ keeps fs s t := (State.dropToHeard_keeps t l o n y).iff hsub

theorem State.dropOwned_keeps (s : State) (l : Nat) (n : Station) : keeps [.book, .labels, .trunk, .counts] s (s.dropOwned l n) := by
  unfold State.dropOwned
  dsimp only
  repeat' split
  all_goals simp

@[simp] theorem keeps_dropOwned (l : Nat) (n : Station) (hsub : [.book, .labels, .trunk, .counts] ⊆ fs) :
    keeps fs s (t.dropOwned l n) ↔ keeps fs s t := (State.dropOwned_keeps t l n).iff hsub

theorem State.moveDone_keeps (s : State) (l : Nat) (o : Owned) (m : Move) : keeps [.book, .labels, .trunk, .counts] s (s.moveDone l o m) := by
  unfold State.moveDone
  dsimp only
  repeat' split
  all_goals simp

@[simp] theorem keeps_moveDone (l : Nat) (o : Owned) (m : Move) (hsub : [.book, .labels, .trunk, .counts] ⊆ fs) :
    keeps fs s (t.moveDone l o m) ↔ keeps fs s t := (State.moveDone_keeps t l o m).iff hsub

/-! ### Acknowledgements and office commands -/

theorem State.ackSent_keeps (s : State) (a : AckPacket) (o : Owned) : keeps [.book, .labels, .trunk, .counts, .alerts] s (s.ackSent a o) := by
  unfold State.ackSent
  dsimp only
  repeat' split
  all_goals simp

@[simp] theorem keeps_ackSent (a : AckPacket) (o : Owned) (hsub : [.book, .labels, .trunk, .counts, .alerts] ⊆ fs) :
    keeps fs s (t.ackSent a o) ↔ keeps fs s t := (State.ackSent_keeps t a o).iff hsub

theorem State.ackReport_keeps (s : State) (a : AckPacket) (o : Owned) : keeps [.book, .labels, .trunk, .counts, .alerts] s (s.ackReport a o) := by
  unfold State.ackReport
  dsimp only
  repeat' split
  all_goals simp

@[simp] theorem keeps_ackReport (a : AckPacket) (o : Owned) (hsub : [.book, .labels, .trunk, .counts, .alerts] ⊆ fs) :
    keeps fs s (t.ackReport a o) ↔ keeps fs s t := (State.ackReport_keeps t a o).iff hsub

theorem State.ackMoving_keeps (s : State) (a : AckPacket) (o : Owned) (m : Move) : keeps [.book, .labels, .trunk, .counts, .alerts] s (s.ackMoving a o m) := by
  unfold State.ackMoving
  repeat' split
  all_goals simp

@[simp] theorem keeps_ackMoving (a : AckPacket) (o : Owned) (m : Move) (hsub : [.book, .labels, .trunk, .counts, .alerts] ⊆ fs) :
    keeps fs s (t.ackMoving a o m) ↔ keeps fs s t := (State.ackMoving_keeps t a o m).iff hsub

theorem State.hearAdoptionAck_keeps (s : State) (a : AckPacket) : keeps [.labels] s (s.hearAdoptionAck a) := by
  unfold State.hearAdoptionAck
  split <;> simp

@[simp] theorem keeps_hearAdoptionAck (a : AckPacket) (hsub : [.labels] ⊆ fs) :
    keeps fs s (t.hearAdoptionAck a) ↔ keeps fs s t := (State.hearAdoptionAck_keeps t a).iff hsub

/-- Recording an ACK with its adoption MOVE leaves every entry of the label table. -/
@[simp] theorem State.hearAdoptionAck_owned (s : State) (a : AckPacket) (n : Nat) :
    (s.hearAdoptionAck a).owned n = s.owned n := by
  unfold State.hearAdoptionAck
  split <;> rfl

@[simp] theorem State.hearAdoptionAck_heard (s : State) (a : AckPacket) (n : Nat) :
    (s.hearAdoptionAck a).heard n = s.heard n := by
  unfold State.hearAdoptionAck
  split <;> rfl

/-- An ACK of a label with no OWNED entry is counted as a stray, and changes no entry (R92). -/
theorem State.takeAck_stray (s : State) (a : AckPacket) (h : s.owned a.label = none) :
    s.takeAck a = (s.hearAdoptionAck a).bump .strayAcks := by
  simp [State.takeAck, h]

theorem State.takeAck_keeps (s : State) (a : AckPacket) : keeps [.book, .labels, .trunk, .counts, .alerts] s (s.takeAck a) := by
  unfold State.takeAck
  dsimp only
  repeat' split
  all_goals simp

@[simp] theorem keeps_takeAck (a : AckPacket) (hsub : [.book, .labels, .trunk, .counts, .alerts] ⊆ fs) :
    keeps fs s (t.takeAck a) ↔ keeps fs s t := (State.takeAck_keeps t a).iff hsub

theorem State.bindLabel_keeps (s : State) (l a : Nat) (e : Entry) (o : Owned) : keeps [.book, .labels, .trunk, .counts] s (s.bindLabel l a e o) := by
  unfold State.bindLabel
  dsimp only
  repeat' split
  all_goals simp

@[simp] theorem keeps_bindLabel (l a : Nat) (e : Entry) (o : Owned) (hsub : [.book, .labels, .trunk, .counts] ⊆ fs) :
    keeps fs s (t.bindLabel l a e o) ↔ keeps fs s t := (State.bindLabel_keeps t l a e o).iff hsub

theorem State.actBind_keeps (s : State) (l a : Nat) : keeps [.book, .labels, .trunk, .counts, .fresh] s ((State.actBind l a s).2) := by
  unfold State.actBind
  dsimp only
  repeat' split
  all_goals simp

@[simp] theorem keeps_actBind (l a : Nat) (hsub : [.book, .labels, .trunk, .counts, .fresh] ⊆ fs) :
    keeps fs s ((State.actBind l a t).2) ↔ keeps fs s t := (State.actBind_keeps t l a).iff hsub

theorem State.unbindLabel_keeps (s : State) (l : Nat) (o : Owned) : keeps [.book, .labels, .trunk, .counts] s (s.unbindLabel l o) := by
  unfold State.unbindLabel
  simp

@[simp] theorem keeps_unbindLabel (l : Nat) (o : Owned) (hsub : [.book, .labels, .trunk, .counts] ⊆ fs) :
    keeps fs s (t.unbindLabel l o) ↔ keeps fs s t := (State.unbindLabel_keeps t l o).iff hsub

theorem State.actUnbind_keeps (s : State) (l : Nat) : keeps [.book, .labels, .trunk, .counts] s ((State.actUnbind l s).2) := by
  unfold State.actUnbind
  dsimp only
  repeat' split
  all_goals simp

@[simp] theorem keeps_actUnbind (l : Nat) (hsub : [.book, .labels, .trunk, .counts] ⊆ fs) :
    keeps fs s ((State.actUnbind l t).2) ↔ keeps fs s t := (State.actUnbind_keeps t l).iff hsub

theorem State.actReadLabel_keeps (s : State) (l : Nat) : keeps [] s ((State.actReadLabel l s).2) := by
  unfold State.actReadLabel
  repeat' split
  all_goals simp

@[simp] theorem keeps_actReadLabel (l : Nat) (hsub : [] ⊆ fs) :
    keeps fs s ((State.actReadLabel l t).2) ↔ keeps fs s t := (State.actReadLabel_keeps t l).iff hsub

/-! ### Shared labels -/

theorem State.judgeReference_keeps (s : State) : keeps [.labels] s (s.judgeReference) := by
  unfold State.judgeReference
  simp

@[simp] theorem keeps_judgeReference (hsub : [.labels] ⊆ fs) :
    keeps fs s (t.judgeReference) ↔ keeps fs s t := (State.judgeReference_keeps t).iff hsub

theorem State.ageClaims_keeps (s : State) : keeps [.labels] s (s.ageClaims) := by
  unfold State.ageClaims
  simp

@[simp] theorem keeps_ageClaims (hsub : [.labels] ⊆ fs) :
    keeps fs s (t.ageClaims) ↔ keeps fs s t := (State.ageClaims_keeps t).iff hsub

theorem State.sendMark_keeps (s : State) : keeps [.trunk, .counts] s (s.sendMark) := by
  unfold State.sendMark
  dsimp only
  repeat' split
  all_goals simp

@[simp] theorem keeps_sendMark (hsub : [.trunk, .counts] ⊆ fs) :
    keeps fs s (t.sendMark) ↔ keeps fs s t := (State.sendMark_keeps t).iff hsub

theorem State.nextSlot_keeps (s : State) (d : Nat) : keeps [.book, .labels, .trunk, .counts, .out] s (s.nextSlot d) := by
  unfold State.nextSlot
  dsimp only
  repeat' split
  all_goals simp

@[simp] theorem keeps_nextSlot (d : Nat) (hsub : [.book, .labels, .trunk, .counts, .out] ⊆ fs) :
    keeps fs s (t.nextSlot d) ↔ keeps fs s t := (State.nextSlot_keeps t d).iff hsub

theorem State.takeMark_keeps (s : State) (n l : Nat) (x : Option StoreTime) : keeps [.book, .labels, .trunk, .counts, .out, .unit, .link, .journal, .fwd, .staging, .alerts] s (s.takeMark n l x) := by
  unfold State.takeMark
  dsimp only
  repeat' split
  all_goals simp

@[simp] theorem keeps_takeMark (n l : Nat) (x : Option StoreTime) (hsub : [.book, .labels, .trunk, .counts, .out, .unit, .link, .journal, .fwd, .staging, .alerts] ⊆ fs) :
    keeps fs s (t.takeMark n l x) ↔ keeps fs s t := (State.takeMark_keeps t n l x).iff hsub

theorem State.judgeMark_keeps (s : State) (c : Station) (n l : Nat) (x : Option StoreTime) : keeps [.book, .labels, .trunk, .counts, .out, .unit, .link, .journal, .fwd, .staging, .alerts] s (s.judgeMark c n l x) := by
  unfold State.judgeMark
  repeat' split
  all_goals simp

@[simp] theorem keeps_judgeMark (c : Station) (n l : Nat) (x : Option StoreTime) (hsub : [.book, .labels, .trunk, .counts, .out, .unit, .link, .journal, .fwd, .staging, .alerts] ⊆ fs) :
    keeps fs s (t.judgeMark c n l x) ↔ keeps fs s t := (State.judgeMark_keeps t c n l x).iff hsub

theorem State.presenceOwn_keeps (s : State) (p : PresencePacket) (o : Owned) : keeps [.book, .labels, .trunk, .counts, .alerts] s (s.presenceOwn p o) := by
  unfold State.presenceOwn
  cases h : o.state <;> simp

@[simp] theorem keeps_presenceOwn (p : PresencePacket) (o : Owned) (hsub : [.book, .labels, .trunk, .counts, .alerts] ⊆ fs) :
    keeps fs s (t.presenceOwn p o) ↔ keeps fs s t := (State.presenceOwn_keeps t p o).iff hsub

theorem State.claim_keeps (s : State) (l : Nat) (h : Heard) : keeps [.labels, .trunk, .counts] s (s.claim l h) := by
  unfold State.claim
  dsimp only
  repeat' split
  all_goals simp

@[simp] theorem keeps_claim (l : Nat) (h : Heard) (hsub : [.labels, .trunk, .counts] ⊆ fs) :
    keeps fs s (t.claim l h) ↔ keeps fs s t := (State.claim_keeps t l h).iff hsub

theorem State.presenceOwned_keeps (s : State) (p : PresencePacket) (o : Owned) : keeps [.book, .labels, .trunk, .counts, .alerts] s (s.presenceOwned p o) := by
  unfold State.presenceOwned
  repeat' split
  all_goals simp

@[simp] theorem keeps_presenceOwned (p : PresencePacket) (o : Owned) (hsub : [.book, .labels, .trunk, .counts, .alerts] ⊆ fs) :
    keeps fs s (t.presenceOwned p o) ↔ keeps fs s t := (State.presenceOwned_keeps t p o).iff hsub

theorem State.presenceHeard_keeps (s : State) (p : PresencePacket) (h : Heard) : keeps [.book, .labels, .trunk, .counts, .fresh] s (s.presenceHeard p h) := by
  unfold State.presenceHeard
  repeat' split
  all_goals simp

@[simp] theorem keeps_presenceHeard (p : PresencePacket) (h : Heard) (hsub : [.book, .labels, .trunk, .counts, .fresh] ⊆ fs) :
    keeps fs s (t.presenceHeard p h) ↔ keeps fs s t := (State.presenceHeard_keeps t p h).iff hsub

theorem State.answerOrphan_keeps (s : State) (p : PresencePacket) : keeps [.labels, .out] s (s.answerOrphan p) := by
  unfold State.answerOrphan
  repeat' split
  all_goals simp

@[simp] theorem keeps_answerOrphan (p : PresencePacket) (hsub : [.labels, .out] ⊆ fs) :
    keeps fs s (t.answerOrphan p) ↔ keeps fs s t := (State.answerOrphan_keeps t p).iff hsub

theorem State.newHeard_keeps (s : State) (p : PresencePacket) : keeps [.labels, .counts] s ((s.newHeard p).2) := by
  unfold State.newHeard
  dsimp only
  repeat' split
  all_goals simp

@[simp] theorem keeps_newHeard (p : PresencePacket) (hsub : [.labels, .counts] ⊆ fs) :
    keeps fs s ((t.newHeard p).2) ↔ keeps fs s t := (State.newHeard_keeps t p).iff hsub

theorem State.takePresence_keeps (s : State) (p : PresencePacket) : keeps [.book, .labels, .trunk, .counts, .alerts, .out, .fresh] s (s.takePresence p) := by
  unfold State.takePresence
  dsimp only
  repeat' split
  all_goals simp

@[simp] theorem keeps_takePresence (p : PresencePacket) (hsub : [.book, .labels, .trunk, .counts, .alerts, .out, .fresh] ⊆ fs) :
    keeps fs s (t.takePresence p) ↔ keeps fs s t := (State.takePresence_keeps t p).iff hsub

theorem State.announceAdopted_keeps (s : State) (l : Nat) : keeps [.trunk, .counts] s (s.announceAdopted l) := by
  unfold State.announceAdopted
  repeat' split
  all_goals simp

@[simp] theorem keeps_announceAdopted (l : Nat) (hsub : [.trunk, .counts] ⊆ fs) :
    keeps fs s (t.announceAdopted l) ↔ keeps fs s t := (State.announceAdopted_keeps t l).iff hsub

theorem State.setOwner_keeps (s : State) (l : Nat) (n : Station) : keeps [.labels] s (s.setOwner l n) := by
  unfold State.setOwner
  repeat' split
  all_goals simp

@[simp] theorem keeps_setOwner (l : Nat) (n : Station) (hsub : [.labels] ⊆ fs) :
    keeps fs s (t.setOwner l n) ↔ keeps fs s t := (State.setOwner_keeps t l n).iff hsub

theorem State.adoptedElsewhere_keeps (s : State) (l : Nat) (n : Station) : keeps [.book, .labels, .trunk, .counts] s (s.adoptedElsewhere l n) := by
  unfold State.adoptedElsewhere
  repeat' split
  all_goals simp

@[simp] theorem keeps_adoptedElsewhere (l : Nat) (n : Station) (hsub : [.book, .labels, .trunk, .counts] ⊆ fs) :
    keeps fs s (t.adoptedElsewhere l n) ↔ keeps fs s t := (State.adoptedElsewhere_keeps t l n).iff hsub

theorem State.endAdoption_keeps (s : State) (a : Adoption) : keeps [.book, .labels, .trunk, .counts, .fresh] s (s.endAdoption a) := by
  unfold State.endAdoption
  dsimp only
  repeat' split
  all_goals simp

@[simp] theorem keeps_endAdoption (a : Adoption) (hsub : [.book, .labels, .trunk, .counts, .fresh] ⊆ fs) :
    keeps fs s (t.endAdoption a) ↔ keeps fs s t := (State.endAdoption_keeps t a).iff hsub

theorem State.takeClaim_keeps (s : State) (c : Station) (l n : Nat) (y : Int) : keeps [.labels, .trunk, .counts] s (s.takeClaim c l n y) := by
  unfold State.takeClaim
  dsimp only
  repeat' split
  all_goals simp

@[simp] theorem keeps_takeClaim (c : Station) (l n : Nat) (y : Int) (hsub : [.labels, .trunk, .counts] ⊆ fs) :
    keeps fs s (t.takeClaim c l n y) ↔ keeps fs s t := (State.takeClaim_keeps t c l n y).iff hsub

theorem State.takeRefusal_keeps (s : State) (c : Station) (l : Nat) (y : Option Int) : keeps [.labels] s (s.takeRefusal c l y) := by
  unfold State.takeRefusal
  repeat' split
  all_goals simp

@[simp] theorem keeps_takeRefusal (c : Station) (l : Nat) (y : Option Int) (hsub : [.labels] ⊆ fs) :
    keeps fs s (t.takeRefusal c l y) ↔ keeps fs s t := (State.takeRefusal_keeps t c l y).iff hsub

theorem State.takeHandover_keeps (s : State) (r : Handover) : keeps [.labels, .book, .counts, .fresh] s (s.takeHandover r) := by
  unfold State.takeHandover
  repeat' split
  all_goals simp

@[simp] theorem keeps_takeHandover (r : Handover) (hsub : [.labels, .book, .counts, .fresh] ⊆ fs) :
    keeps fs s (t.takeHandover r) ↔ keeps fs s t := (State.takeHandover_keeps t r).iff hsub

end Sys2Proof.Machine
end

