-- ==== Sys2Proof/Laws/Lanes.lean ====
section
/-! SUPPORT. Lane records read after they are written, and what a lane request can do. -/

namespace Sys2Proof.Machine

open Sys2Proof

@[simp] theorem State.lane_withLane (s : State) (l : LaneNo) (f : Lane → Lane) : (s.withLane l f).lane l = f (s.lane l) := by
  simp only [State.lane, State.withLane, Vector.get_eq_getElem, Vector.getElem_set_self]

theorem State.lane_withLane_ne (s : State) {l m : LaneNo} (h : m ≠ l) (f : Lane → Lane) :
    (s.withLane l f).lane m = s.lane m := by
  have : l.val ≠ m.val := fun e => h (Fin.ext e.symm)
  simp only [State.lane, State.withLane, Vector.get_eq_getElem, Vector.getElem_set_ne _ _ this]

/-- Two changes of one lane record are one change. -/
@[simp] theorem State.withLane_withLane (s : State) (l : LaneNo) (f g : Lane → Lane) :
    (s.withLane l f).withLane l g = s.withLane l fun x => g (f x) := by
  simp only [State.withLane, Vector.get_eq_getElem, Vector.getElem_set_self, Vector.set_set]

/-- Changing a lane record and putting something on a port may be done in either order. -/
theorem State.emit_withLane (s : State) (o : Output) (l : LaneNo) (f : Lane → Lane) :
    (s.emit o).withLane l f = (s.withLane l f).emit o := rfl

@[simp] theorem State.lane_emit (s : State) (o : Output) (l : LaneNo) : (s.emit o).lane l = s.lane l := rfl

/-- A lane record put back as it stands changes nothing. -/
theorem State.withLane_self (s : State) (l : LaneNo) (f : Lane → Lane) (h : f (s.lane l) = s.lane l) : s.withLane l f = s := by
  have : s.lanes.set l.val (f (s.lanes.get l)) l.isLt = s.lanes := by
    have h' : f (s.lanes.get l) = s.lanes.get l := h
    rw [h', Vector.get_eq_getElem]
    exact Vector.set_getElem_self _
  simp only [State.withLane, this]

/-- Only what a change makes of the lane's own record counts. -/
theorem State.withLane_congr (s : State) (l : LaneNo) {f g : Lane → Lane} (h : f (s.lane l) = g (s.lane l)) :
    s.withLane l f = s.withLane l g := by
  have h' : f (s.lanes.get l) = g (s.lanes.get l) := h
  simp only [State.withLane, h']

theorem Lane.savedFor_none {x : Lane} {b : Bool} {k : RequestKind} (h : ∀ r, x.last ≠ some (b, k, r)) :
    x.savedFor b k = none := by
  unfold Lane.savedFor
  split
  · rfl
  · rename_i b' k' r e
    split
    · rename_i e'
      exact absurd (by rw [e, e'.1, e'.2]) (h r)
    · rfl

theorem Lane.savedFor_some {x : Lane} {b : Bool} {k : RequestKind} {r : LaneReply} (h : x.last = some (b, k, r)) :
    x.savedFor b k = some r := by simp [Lane.savedFor, h]

/-- What a new request is acted on from: the lane is UP with its timer restarted, and the basket's last-activity time is
set (R27, R33). -/
theorem State.touch_goodFrame (s : State) (l : LaneNo) :
    (s.goodFrame l).touch l = s.withLane l fun x =>
      { x with state := .up, timer := some (s.now + Config.seconds 10), basket := x.basket.map (·.active s.now) } := by
  rw [State.goodFrame, State.touch, State.withLane_withLane]
  rfl

theorem State.Serves.request {s : State} {l : LaneNo} (h : s.Serves l) (bit : Bool) (k : RequestKind) (act : State → Acted) :
    s.request l bit k act =
      (let s1 := s.goodFrame l
       let x := s1.lane l
       if x.restart then s1.answer l bit k (.restarted x.lastClosed)
       else match x.savedFor bit k with
         | some r => s1.emit (.laneReply l bit r)
         | none => if x.flight.isSome then s1.emit (.laneReply l bit .wait) else s1.newRequest l bit k act) := by
  have hp : (s.part == .starting) = false ∧ s.part ≠ .halted := by
    have := h.serving
    cases hs : s.part <;> simp_all [State.serving, State.working]
  simp [State.request, h.live, h.enabled, hp.1, hp.2] <;> rfl

/-- A new request is acted on from `touch_goodFrame`'s state, and its reply, if it has one, is sent and saved (R33). -/
theorem State.TakesNew.request {s : State} {l : LaneNo} {bit : Bool} {k : RequestKind} (h : s.TakesNew l bit k)
    (act : State → Acted) : s.request l bit k act = (s.goodFrame l).newRequest l bit k act := by
  have h1 : ((s.goodFrame l).lane l).restart = false := by simpa [State.goodFrame] using h.told
  have h2 : ((s.goodFrame l).lane l).savedFor bit k = none :=
    Lane.savedFor_none (by simpa [State.goodFrame] using h.notRepeat)
  have h3 : ((s.goodFrame l).lane l).flight = none := by simpa [State.goodFrame] using h.idle
  rw [h.serves.request]
  simp [h1, h2, h3]

@[simp] theorem Basket.active_id (b : Basket) (n : Nat) : (b.active n).id = b.id := rfl
@[simp] theorem Basket.active_lines (b : Basket) (n : Nat) : (b.active n).lines = b.lines := rfl
@[simp] theorem Basket.active_terms (b : Basket) (n : Nat) : (b.active n).terms = b.terms := rfl
@[simp] theorem Basket.active_running (b : Basket) (n : Nat) : (b.active n).running = b.running := rfl
@[simp] theorem Basket.active_result (b : Basket) (n : Nat) : (b.active n).result = b.result := rfl
@[simp] theorem Basket.active_lastActivity (b : Basket) (n : Nat) : (b.active n).lastActivity = n := rfl
@[simp] theorem State.entry_withLane (s : State) (l : LaneNo) (f : Lane → Lane) (a : Nat) :
    (s.withLane l f).entry a = s.entry a := rfl

/-- The basket a new request finds is the lane's own, with its last-activity time set. -/
@[simp] theorem State.basket_touched (s : State) (l : LaneNo) :
    (((s.goodFrame l).touch l).lane l).basket = (s.lane l).basket.map (·.active s.now) := by
  simp [State.touch_goodFrame]

/-- The reply of a new request, after `f` has been done to the lane record. -/
theorem State.answer_touched (s : State) (l : LaneNo) (bit : Bool) (k : RequestKind) (r : LaneReply) (f : Lane → Lane) :
    (((s.goodFrame l).touch l).withLane l f).answer l bit k r = s.served l bit k r f := by
  simp [State.touch_goodFrame, State.answer, State.served]

/-- The reply of a new request that does nothing more to the lane record. -/
theorem State.answer_touched_id (s : State) (l : LaneNo) (bit : Bool) (k : RequestKind) (r : LaneReply) :
    ((s.goodFrame l).touch l).answer l bit k r = s.served l bit k r fun x => x := by
  simp [State.touch_goodFrame, State.answer, State.served]

/-- A new request whose act gives reply `r` and state `t`. -/
theorem State.TakesNew.request_reply {s : State} {l : LaneNo} {bit : Bool} {k : RequestKind} (h : s.TakesNew l bit k)
    {act : State → Acted} {r : LaneReply} {t : State} (ha : act ((s.goodFrame l).touch l) = (some r, t)) :
    s.request l bit k act = t.answer l bit k r := by
  rw [h.request, State.newRequest, ha]

/-- A new request whose act gives state `t` and no reply yet. -/
theorem State.TakesNew.request_none {s : State} {l : LaneNo} {bit : Bool} {k : RequestKind} (h : s.TakesNew l bit k)
    {act : State → Acted} {t : State} (ha : act ((s.goodFrame l).touch l) = (none, t)) : s.request l bit k act = t := by
  rw [h.request, State.newRequest, ha]

end Sys2Proof.Machine
end

