-- ==== Sys2Proof/Laws/Lists.lean ====
section
/-! SUPPORT. What the operations that go through a list of labels, records or entries do as a whole: a slot cut short, the
records of a file frame, the entries of a shelf query, and the turns of a slot. -/

namespace Sys2Proof.Machine

open Sys2Proof

/-! ### A count raised several times, and a slot cut short (R97) -/

/-- A count raised twice is raised by the sum. -/
theorem State.bumpBy_bumpBy (s : State) (c : Count) (a b : Nat) : (s.bumpBy c a).bumpBy c b = s.bumpBy c (a + b) := by
  by_cases ha : a = 0
  · simp [State.bumpBy, ha]
  by_cases hb : b = 0
  · simp [State.bumpBy, hb]
  simp only [State.bumpBy, ha, hb, if_false, State.count, AMap.get_put_self, AMap.put_put, Nat.add_eq_zero_iff,
    and_self, Option.getD_some, raise]
  congr 2
  simp only [Config.countMax]
  omega

/-- A label's entry after its turn is cut short (R97). -/
def Owned.cut (o : Owned) : Owned :=
  { o with state := match o.state with
      | .sent due => .updateDue due
      | .moving m => .moving { m with inAir := false }
      | x => x }

/-- The label is SENT. -/
def Owned.isSent (o : Owned) : Bool := match o.state with
  | .sent _ => true
  | _ => false

/-- A count and the label table change apart. -/
theorem State.bumpBy_withLabels (s : State) (c : Count) (n : Nat) (f : Labels → Labels) :
    (s.withLabels f).bumpBy c n = (s.bumpBy c n).withLabels f := by
  unfold State.bumpBy
  split <;> rfl

/-- One turn cut short (R97). -/
theorem State.cutTurn_eq (s : State) (n : Nat) (h : AMap.wf s.labels.owned = true) :
    s.cutTurn n = (s.bumpBy .attemptsCutShort (if (s.owned n).any (·.isSent) then 1 else 0)).withLabels fun l =>
      { l with owned := AMap.modify l.owned n Owned.cut } := by
  rw [← State.bumpBy_withLabels]
  cases ho : s.owned n with
  | none =>
    have ho' : AMap.get s.labels.owned n = none := ho
    simp [State.cutTurn, ho, State.bumpBy, State.withLabels, AMap.modify_eq h, ho']
  | some o =>
    have ho' : AMap.get s.labels.owned n = some o := ho
    have same : o.cut = o → AMap.put s.labels.owned n o.cut = s.labels.owned := by
      intro hc
      have := AMap.modify_eq h n (id : Owned → Owned)
      simpa [ho', hc, AMap.modify] using this.symm
    simp only [State.cutTurn, ho, Option.any_some, State.withLabels, AMap.modify_eq h, ho', State.putOwned]
    obtain ⟨_, _, st, _⟩ := o
    cases st <;> simp_all [Owned.isSent, Owned.cut, State.bump, State.bumpBy]

/-- A slot cut short: every OWNED entry is cut, and each SENT one counted (R97). -/
theorem State.cutTurns_eq (s : State) (h : AMap.wf s.labels.owned = true) :
    s.cutTurns = (s.bumpBy .attemptsCutShort (s.labels.owned.filter (·.2.isSent)).length).withLabels fun l =>
      { l with owned := l.owned.map fun e => (e.1, e.2.cut) } := by
  have fold : ∀ (ns : List Nat) (t : State), ns.Nodup → AMap.wf t.labels.owned = true →
      ns.foldl (fun t n => t.cutTurn n) t =
        (t.bumpBy .attemptsCutShort (ns.countP fun n => (t.owned n).any (·.isSent))).withLabels fun l =>
          { l with owned := ns.foldl (fun m n => AMap.modify m n Owned.cut) l.owned } := by
    intro ns
    induction ns with
    | nil => intro t _ _; simp [State.bumpBy, State.withLabels]
    | cons n ns ih =>
      intro t hn hw
      rw [List.nodup_cons] at hn
      have ho : ∀ m ∈ ns, (t.cutTurn n).owned m = t.owned m := by
        intro m hm
        rw [State.cutTurn_eq t n hw, State.owned]
        simp only [State.withLabels_labels, State.bumpBy_labels, AMap.get_modify]
        rw [if_neg (by rintro rfl; exact hn.1 hm)]
        rfl
      rw [List.foldl_cons, ih _ hn.2 (by
        rw [State.cutTurn_eq t n hw]
        simpa using AMap.wf_modify _ n Owned.cut hw)]
      rw [List.countP_congr (q := fun n => (t.owned n).any (·.isSent)) (fun m hm => by rw [ho m hm])]
      rw [State.cutTurn_eq t n hw, State.bumpBy_withLabels, State.bumpBy_bumpBy, List.countP_cons, Nat.add_comm]
      rfl
  have keys := AMap.keys_filter h fun e => match e.2.state with
    | .showing => false
    | .updateDue _ => false
    | .sent _ => true
    | .moving m => m.inAir
    | .lost => false
  have hns : s.inTurn.Nodup := keys.1.imp Nat.ne_of_lt
  have member : ∀ e ∈ s.labels.owned, e.1 ∉ s.inTurn → e.2.cut = e.2 := by
    intro e he hn
    have : ¬ _ := fun x => hn ((keys.2 e.1).2 ⟨e.2, (AMap.get_eq_some_iff h).2 he, x⟩)
    obtain ⟨_, _, _, st, _⟩ := e
    cases st with
    | moving m => cases m; simp_all [Owned.cut]
    | _ => simp_all [Owned.cut]
  have count : s.inTurn.countP (fun n => (s.owned n).any (·.isSent)) = (s.labels.owned.filter (·.2.isSent)).length := by
    rw [State.inTurn, List.countP_map, List.countP_filter, ← List.countP_eq_length_filter]
    refine List.countP_congr fun e he => ?_
    have : s.owned e.1 = some e.2 := (AMap.get_eq_some_iff h).2 he
    simp only [Function.comp_apply, this, Option.any_some, Bool.and_eq_true, Owned.isSent]
    cases e.2.state <;> simp
  rw [State.cutTurns, fold _ _ hns h, count]
  simp only [AMap.foldl_modify _ hns, State.withLabels, State.bumpBy_labels]
  congr 2
  refine List.map_congr_left fun e he => ?_
  split
  · rfl
  · rw [member e he ‹_›]


/-! ### The records of a file frame (R179, R186) -/

/-- The record `x.1`, at the place that gives the index `x.2`, is to be stored (R179). -/
def Staging.fits (g : Staging) (x : ChangeRecord × Nat) : Bool :=
  decide (x.1.index = x.2 ∧ x.1.index < g.count.getD 0 ∧ x.1.fileSerial = g.serial)

/-- Each record that fits is stored under its index, no other index is touched, and each record that does not fit is
counted. -/
theorem storeRecords_spec (first : Nat) (rs : List ChangeRecord) (s : State) :
    ∃ m, storeRecords first rs s =
        (s.bumpBy .foreignRecords ((rs.zipIdx first).filter fun x => !s.staging.fits x).length).withStaging
          (fun g => { g with records := m }) ∧
      (∀ x ∈ rs.zipIdx first, s.staging.fits x = true → AMap.get m x.2 = some x.1) ∧
      (∀ j, (∀ x ∈ rs.zipIdx first, s.staging.fits x = true → x.2 ≠ j) → AMap.get m j = AMap.get s.staging.records j) ∧
      (AMap.wf s.staging.records = true → AMap.wf m = true) := by
  induction rs generalizing first s with
  | nil => exact ⟨s.staging.records, by simp [storeRecords, State.bumpBy, State.withStaging], by simp, by simp, id⟩
  | cons r rs ih =>
    have above : ∀ x ∈ rs.zipIdx (first + 1), first < x.2 := fun x hx => by
      have := (List.mem_zipIdx hx).1
      omega
    by_cases hr : s.staging.fits (r, first) = true
    · have hs : s.storeRecord first r = s.withStaging fun g => { g with records := AMap.put g.records first r } := by
        have h := of_decide_eq_true hr
        rw [State.storeRecord, if_pos h, h.1]
      obtain ⟨m, he, hg, hn, hw⟩ := ih (first + 1) (s.storeRecord first r)
      have hfit : (s.storeRecord first r).staging.fits = s.staging.fits := by rw [hs]; rfl
      rw [hfit] at he hg hn
      simp only [hs, State.withStaging_staging] at he hn hw
      refine ⟨m, ?_, ?_, ?_, fun h => hw (AMap.wf_put _ _ _ h)⟩
      · rw [storeRecords, hs, he, List.zipIdx_cons, List.filter_cons, if_neg (by simp [hr])]
        unfold State.bumpBy
        split <;> rfl
      · intro x hx hf
        rcases List.mem_cons.1 (List.zipIdx_cons ▸ hx) with rfl | hx
        · rw [hn first fun x hx _ => Nat.ne_of_gt (above x hx), AMap.get_put_self]
        · exact hg x hx hf
      · intro j hj
        rw [hn j fun x hx hf => hj x (by simp [List.zipIdx_cons, hx]) hf, AMap.get_put_ne]
        exact fun e => hj (r, first) (by simp [List.zipIdx_cons]) hr e.symm
    · have hs : s.storeRecord first r = s.bump .foreignRecords :=
        if_neg fun h => hr (decide_eq_true h)
      obtain ⟨m, he, hg, hn, hw⟩ := ih (first + 1) (s.bump .foreignRecords)
      simp only [State.bump_staging] at he hg hn hw
      refine ⟨m, ?_, ?_, ?_, hw⟩
      · rw [storeRecords, hs, he, List.zipIdx_cons, List.filter_cons, if_pos (by simp [hr]), State.bump, State.bumpBy_bumpBy,
          List.length_cons, Nat.add_comm 1]
      · intro x hx hf
        rcases List.mem_cons.1 (List.zipIdx_cons ▸ hx) with rfl | hx
        · exact absurd hf hr
        · exact hg x hx hf
      · intro j hj
        exact hn j fun x hx hf => hj x (by simp [List.zipIdx_cons, hx]) hf

/-! ### The entries of a shelf query (R15) -/

/-- Greatest age first, then lowest article code (R15). -/
def queryBefore (x y : Nat × Nat × Nat) : Prop := y.1 < x.1 ∨ (y.1 = x.1 ∧ x.2.1 < y.2.1)

/-- Insertion adds the item and nothing else. -/
theorem mem_insertQuery (x y : Nat × Nat × Nat) (l : List (Nat × Nat × Nat)) :
    y ∈ insertQuery x l ↔ y = x ∨ y ∈ l := by
  induction l with
  | nil => simp [insertQuery]
  | cons z l ih =>
    simp only [insertQuery]
    split
    · simp
    · simp [ih, or_left_comm]

/-- Insertion keeps the order of R15. -/
theorem insertQuery_pairwise (x : Nat × Nat × Nat) (l : List (Nat × Nat × Nat)) (h : l.Pairwise queryBefore)
    (hx : ∀ y ∈ l, y.2.1 ≠ x.2.1) : (insertQuery x l).Pairwise queryBefore := by
  induction l with
  | nil => simp [insertQuery]
  | cons z l ih =>
    simp only [List.pairwise_cons, List.mem_cons, forall_eq_or_imp] at h hx
    simp only [insertQuery]
    split
    · rename_i hz
      refine List.pairwise_cons.2 ⟨fun y hy => ?_, List.pairwise_cons.2 h⟩
      rcases List.mem_cons.1 hy with rfl | hy
      · exact hz
      · have := h.1 y hy
        simp only [queryBefore] at *
        omega
    · rename_i hz
      refine List.pairwise_cons.2 ⟨fun y hy => ?_, ih h.2 hx.2⟩
      rcases (mem_insertQuery x y l).1 hy with rfl | hy
      · have := hx.1
        simp only [queryBefore] at *
        omega
      · exact h.1 y hy

/-- The late entries in the order of R15. -/
def lateEntries (n : Station) (m : AMap Entry) : List (Nat × Nat × Nat) :=
  (queryable n m).foldl (fun l x => insertQuery x l) []

/-- The late entries: CHANGING for 60 s or more and holding the station out (R15). -/
theorem mem_queryable (n : Station) (m : List (Nat × Entry)) (x : Nat × Nat × Nat) :
    x ∈ queryable n m ↔ ∃ e c, (x.2.1, e) ∈ m ∧ e.phase = .changing c ∧ 60 ≤ c.age ∧ holdsOut n c.holdout = true ∧
      x.1 = c.age ∧ x.2.2 = c.pending.version := by
  induction m with
  | nil => simp [queryable]
  | cons y m ih =>
    obtain ⟨a, e⟩ := y
    obtain ⟨g, b, v⟩ := x
    simp only [queryable]
    split
    · rename_i hp
      rw [ih]
      constructor
      · rintro ⟨e', c, hm, h⟩
        exact ⟨e', c, List.mem_cons_of_mem _ hm, h⟩
      · rintro ⟨e', c, hm, hc, h⟩
        rcases List.mem_cons.1 hm with he | hm
        · cases he; simp [hp] at hc
        · exact ⟨e', c, hm, hc, h⟩
    · rename_i hp
      rw [ih]
      constructor
      · rintro ⟨e', c, hm, h⟩
        exact ⟨e', c, List.mem_cons_of_mem _ hm, h⟩
      · rintro ⟨e', c, hm, hc, h⟩
        rcases List.mem_cons.1 hm with he | hm
        · cases he; simp [hp] at hc
        · exact ⟨e', c, hm, hc, h⟩
    · rename_i c hp
      split
      · rename_i h60
        rw [List.mem_cons, ih]
        constructor
        · rintro (he | ⟨e', c', hm, h⟩)
          · cases he
            exact ⟨e, c, by simp, hp, h60.1, h60.2, rfl, rfl⟩
          · exact ⟨e', c', List.mem_cons_of_mem _ hm, h⟩
        · rintro ⟨e', c', hm, hc, h1, h2, h3, h4⟩
          rcases List.mem_cons.1 hm with he | hm
          · cases he
            rw [hp] at hc
            cases hc
            simp_all
          · exact .inr ⟨e', c', hm, hc, h1, h2, h3, h4⟩
      · rename_i h60
        rw [ih]
        constructor
        · rintro ⟨e', c', hm, h⟩
          exact ⟨e', c', List.mem_cons_of_mem _ hm, h⟩
        · rintro ⟨e', c', hm, hc, h1, h2, h3, h4⟩
          rcases List.mem_cons.1 hm with he | hm
          · cases he
            rw [hp] at hc
            cases hc
            exact absurd ⟨h1, h2⟩ h60
          · exact ⟨e', c', hm, hc, h1, h2, h3, h4⟩

/-- An article is late once. -/
theorem queryable_articles (n : Station) (m : AMap Entry) (h : AMap.wf m = true) :
    ((queryable n m).map (·.2.1)).Pairwise (· ≠ ·) := by
  rw [AMap.wf_iff] at h
  have sub : ∀ m : List (Nat × Entry), ((queryable n m).map (·.2.1)).Sublist (m.map (·.1)) := by
    intro m
    induction m with
    | nil => simp [queryable]
    | cons y m ih =>
      obtain ⟨a, e⟩ := y
      simp only [queryable]
      split
      · exact ih.cons _
      · exact ih.cons _
      · split
        · exact ih.cons_cons _
        · exact ih.cons _
  exact (h.imp Nat.ne_of_lt).sublist (sub m)

/-- The late entries stand in the order of R15, each once. -/
theorem lateEntries_spec (n : Station) (m : AMap Entry) (h : AMap.wf m = true) :
    (lateEntries n m).Pairwise queryBefore ∧ ∀ x, x ∈ lateEntries n m ↔ x ∈ queryable n m := by
  have key : ∀ (l acc : List (Nat × Nat × Nat)), acc.Pairwise queryBefore → (l.map (·.2.1)).Pairwise (· ≠ ·) →
      (∀ x ∈ l, ∀ y ∈ acc, y.2.1 ≠ x.2.1) →
        (l.foldl (fun l x => insertQuery x l) acc).Pairwise queryBefore ∧
          ∀ x, x ∈ l.foldl (fun l x => insertQuery x l) acc ↔ x ∈ l ∨ x ∈ acc := by
    intro l
    induction l with
    | nil => intro acc h _ _; simpa using h
    | cons z l ih =>
      intro acc hacc hl hd
      simp only [List.map_cons, List.pairwise_cons, List.mem_map, forall_exists_index, and_imp,
        forall_apply_eq_imp_iff₂] at hl
      obtain ⟨h1, h2⟩ := ih (insertQuery z acc) (insertQuery_pairwise z acc hacc (hd z (by simp))) hl.2 (by
        intro x hx y hy
        rcases (mem_insertQuery z y acc).1 hy with rfl | hy
        · exact hl.1 x hx
        · exact hd x (by simp [hx]) y hy)
      refine ⟨h1, fun x => ?_⟩
      rw [List.foldl_cons, h2, mem_insertQuery, List.mem_cons, or_left_comm, or_assoc]
  simpa [lateEntries] using key (queryable n m) [] List.Pairwise.nil (queryable_articles n m h) (by simp)

/-- An entry with the query status of a station set in its holdout set, where it has one (R15). -/
def Entry.queryStatus (n : Station) (q : QueryStatus) (e : Entry) : Entry :=
  match e.phase with
  | .steady => e
  | .waiting _ => e
  | .changing c => { e with phase := .changing { c with holdout := setStatus n q c.holdout } }

/-- The query status of several articles' entries set one after another (R15). -/
theorem State.foldl_setQueryStatus (s : State) (n : Station) (q : QueryStatus) (as : List Nat) (h : as.Nodup) :
    as.foldl (fun s a => s.setQueryStatus n q a) s = s.withBook fun b => { b with
      entries := b.entries.map fun e => (e.1, if e.1 ∈ as then e.2.queryStatus n q else e.2) } := by
  have fold : ∀ (as : List Nat) (t : State), as.foldl (fun s a => s.setQueryStatus n q a) t =
      t.withBook fun b => { b with entries := as.foldl (fun m a => AMap.modify m a (Entry.queryStatus n q)) b.entries } := by
    intro as
    induction as with
    | nil => intro t; rfl
    | cons a as ih =>
      intro t
      rw [List.foldl_cons, ih]
      rfl
  rw [fold]
  simp only [AMap.foldl_modify _ h]

/-- The shelf query of a station that is due one (R15): of the late entries in their order, up to 64. -/
theorem State.queryStation_due (s : State) (n : Station) (hw : AMap.wf s.book.entries = true) (hn : n ≠ s.self)
    (ha : (s.peer n).state = .alive) (hk : (s.peer n).kind = some .controller)
    (ht : ∀ t, AMap.get s.book.queryTimes n.val = some t → t + Config.seconds 60 ≤ s.now)
    (hl : lateEntries n s.book.entries ≠ []) :
    let qs := (lateEntries n s.book.entries).take Config.reportCapacity
    s.queryStation n =
      (s.send (Frame.new (some n) (.shelfQuery (qs.map fun q => ⟨q.2.1, q.2.2⟩)) .shelfQuestion)).withBook fun b =>
        { b with
          entries := b.entries.map fun e => (e.1, if e.1 ∈ qs.map (·.2.1) then e.2.queryStatus n .queried else e.2)
          queryTimes := AMap.put b.queryTimes n.val s.now } := by
  intro qs
  have hdue : (AMap.get s.book.queryTimes n.val).all (fun t => decide (t + Config.seconds 60 ≤ s.now)) = true := by
    rw [Option.all_eq_true]
    exact fun t hg => decide_eq_true (ht t hg)
  have hne : qs ≠ [] := by simpa [qs, Config.reportCapacity] using hl
  have hnd : (qs.map (·.2.1)).Nodup := by
    have hp : (lateEntries n s.book.entries).Pairwise fun x y => x.2.1 ≠ y.2.1 := by
      have perm : (lateEntries n s.book.entries).Perm (queryable n s.book.entries) := by
        have step : ∀ x l, (insertQuery x l).Perm (x :: l) := by
          intro x l
          induction l with
          | nil => exact List.Perm.refl _
          | cons y l ih =>
            simp only [insertQuery]
            split
            · exact List.Perm.refl _
            · exact (ih.cons y).trans (List.Perm.swap x y l)
        have fold : ∀ l acc : List (Nat × Nat × Nat), (l.foldl (fun l x => insertQuery x l) acc).Perm (l ++ acc) := by
          intro l
          induction l with
          | nil => intro acc; exact List.Perm.refl _
          | cons x l ih =>
            intro acc
            exact (ih _).trans (((step x acc).append_left l).trans List.perm_middle)
        simpa [lateEntries] using fold (queryable n s.book.entries) []
      exact (perm.pairwise_iff fun h => Ne.symm h).2 (List.pairwise_map.1 (queryable_articles n _ hw))
    exact List.pairwise_map.2 (hp.sublist (List.take_sublist _ _))
  unfold State.queryStation
  dsimp only
  rw [if_pos ⟨hn, ha, hk, hdue, hne⟩]
  change (qs.foldl (fun s q => s.setQueryStatus n .queried q.2.1)
    (s.send (Frame.new (some n) (.shelfQuery (qs.map fun q => ⟨q.2.1, q.2.2⟩)) .shelfQuestion))).withBook _ = _
  have := State.foldl_setQueryStatus (s.send (Frame.new (some n) (.shelfQuery (qs.map fun q => ⟨q.2.1, q.2.2⟩)) .shelfQuestion)) n .queried
    (qs.map (·.2.1)) hnd
  rw [List.foldl_map] at this
  rw [this]
  rfl

/-! ### The turns of a slot (R80, R88) -/

/-- Insertion adds the item and nothing else. -/
theorem mem_insertDue (x y : Nat × Nat) (l : List (Nat × Nat)) : y ∈ insertDue x l ↔ y = x ∨ y ∈ l := by
  induction l with
  | nil => simp [insertDue]
  | cons z l ih =>
    simp only [insertDue]
    split
    · simp
    · simp [ih, or_left_comm]

/-- By due time and then by label address, strictly (R80). -/
def dueSooner (x y : Nat × Nat) : Prop := x.1 < y.1 ∨ (x.1 = y.1 ∧ x.2 < y.2)

/-- Insertion keeps the order of R80. -/
theorem insertDue_pairwise (x : Nat × Nat) (l : List (Nat × Nat)) (h : l.Pairwise dueSooner)
    (hx : ∀ y ∈ l, y.2 ≠ x.2) : (insertDue x l).Pairwise dueSooner := by
  induction l with
  | nil => simp [insertDue]
  | cons z l ih =>
    simp only [List.pairwise_cons, List.mem_cons, forall_eq_or_imp] at h hx
    simp only [insertDue, dueBefore, Bool.or_eq_true, Bool.and_eq_true, decide_eq_true_eq]
    split
    · rename_i hz
      refine List.pairwise_cons.2 ⟨fun y hy => ?_, List.pairwise_cons.2 h⟩
      have := hx.1
      rcases List.mem_cons.1 hy with rfl | hy
      · simp only [dueSooner]
        omega
      · have := h.1 y hy
        simp only [dueSooner] at *
        omega
    · rename_i hz
      refine List.pairwise_cons.2 ⟨fun y hy => ?_, ih h.2 hx.2⟩
      rcases (mem_insertDue x y l).1 hy with rfl | hy
      · have := hx.1
        simp only [dueSooner] at *
        omega
      · exact h.1 y hy

/-- The update list holds the UPDATE-DUE labels, each once, by due time and then by address (R80). -/
theorem updateList_spec (m : AMap Owned) (h : AMap.wf m = true) :
    (updateList m).Pairwise dueSooner ∧
      ∀ x, x ∈ updateList m ↔ ∃ o, (x.2, o) ∈ m ∧ o.state = .updateDue x.1 := by
  rw [AMap.wf_iff] at h
  induction m with
  | nil => simp [updateList]
  | cons e m ih =>
    obtain ⟨k, o⟩ := e
    simp only [List.map_cons, List.pairwise_cons] at h
    obtain ⟨h1, h2⟩ := ih h.2
    have skip : (∀ d, o.state ≠ .updateDue d) → ∀ x : Nat × Nat, x ∈ updateList m ↔
        ∃ p, (x.2, p) ∈ (k, o) :: m ∧ p.state = .updateDue x.1 := by
      intro hs x
      rw [h2]
      constructor
      · rintro ⟨p, hp, hd⟩
        exact ⟨p, List.mem_cons_of_mem _ hp, hd⟩
      · rintro ⟨p, hp, hd⟩
        rcases List.mem_cons.1 hp with he | hp
        · cases he
          exact absurd hd (hs _)
        · exact ⟨p, hp, hd⟩
    simp only [updateList]
    split
    · rename_i d hd
      refine ⟨insertDue_pairwise _ _ h1 fun y hy => ?_, fun x => ?_⟩
      · obtain ⟨p, hp, -⟩ := (h2 y).1 hy
        exact Nat.ne_of_gt (h.1 y.2 (List.mem_map_of_mem (f := Prod.fst) hp))
      · rw [mem_insertDue, h2]
        constructor
        · rintro (rfl | ⟨p, hp, hx⟩)
          · exact ⟨o, by simp, hd⟩
          · exact ⟨p, List.mem_cons_of_mem _ hp, hx⟩
        · rintro ⟨p, hp, hx⟩
          rcases List.mem_cons.1 hp with he | hp
          · obtain ⟨a, b⟩ := x
            cases he
            rw [hd] at hx
            cases hx
            exact .inl rfl
          · exact .inr ⟨p, hp, hx⟩
    all_goals
      rename_i hs
      exact ⟨h1, skip (by simp [hs])⟩

/-- A change of the OWNED entries that makes none UPDATE-DUE and changes no due time leaves the update list. -/
theorem updateList_map (m : List (Nat × Owned)) (f : Nat × Owned → Owned)
    (hf : ∀ e ∈ m, ∀ d, (f e).state = .updateDue d ↔ e.2.state = .updateDue d) :
    updateList (m.map fun e => (e.1, f e)) = updateList m := by
  induction m with
  | nil => rfl
  | cons e m ih =>
    have h := hf e (by simp)
    have ih := ih fun x hx => hf x (by simp [hx])
    simp only [List.map_cons, updateList, ih]
    cases hs : e.2.state with
    | updateDue d => rw [(h d).2 hs]
    | _ =>
      cases ht : (f e).state with
      | updateDue d => exact absurd ((h d).1 ht) (by simp [hs])
      | _ => rfl

/-- A MOVE attempt leaves the update list and the addresses of the labels. -/
theorem State.sendMove_updates (s : State) (n : Nat) (h : AMap.wf s.labels.owned = true) :
    (s.sendMove n).updates = s.updates ∧ AMap.wf (s.sendMove n).labels.owned = true := by
  unfold State.sendMove
  split
  · exact ⟨rfl, h⟩
  · rename_i o ho
    split
    · rename_i m hm
      have ho' : AMap.get s.labels.owned n = some o := ho
      have hp := AMap.modify_eq h n fun _ => { o with state := .moving { m with inAir := true } }
      simp only [ho'] at hp
      refine ⟨?_, by simpa [State.putOwned] using AMap.wf_put _ _ _ h⟩
      have := updateList_map s.labels.owned (fun e => if e.1 = n then { o with state := .moving { m with inAir := true } } else e.2) (by
        intro e he d
        split
        · rename_i hk
          have : AMap.get s.labels.owned e.1 = some e.2 := (AMap.get_eq_some_iff h).2 he
          rw [hk, ho'] at this
          cases this
          simp [hm]
        · rfl)
      simp only [State.updates, State.putOwned, State.emit_labels, State.withLabels_labels, ← hp, AMap.modify, ← this]
      congr 1
      refine List.map_congr_left fun e _ => ?_
      split <;> simp_all
    all_goals exact ⟨rfl, h⟩

end Sys2Proof.Machine
end

