-- ==== Sys2Proof/Laws/Messages.lean ====
section
/-! SUPPORT. How the session hands over its messages: a message that waits holds up those formed later, and one that
finds room joins the OFFICE queue; what a file that fails its check leaves of the session. -/

namespace Sys2Proof.Machine

open Sys2Proof

variable {s : State} {m : OutMessage}

/-! ### Messages in hand (R172) -/

theorem Link.inHand_waiting {l : Link} (h : l.waiting = true) : l.inHand = l.toSend := by simp [Link.inHand, h]

theorem Link.inHand_free {l : Link} (h : l.waiting = false) : l.inHand = [] := by simp [Link.inHand, h]

/-- What a session that becomes CLOSING has left to hand over (R181). -/
theorem State.closing_toSend (s : State) (before : List OutMessage) (o : FileOutcome) :
    (s.closing before o).link.toSend = s.link.inHand ++ before ++ [.sessionEnd s.link.acked o] := rfl

/-- While a message waits, none is handed over (R172). -/
theorem pump_waiting (h : s.link.waiting = true) : ∀ n, pump n s = s
  | 0 => rfl
  | n + 1 => by simp [pump, h]

theorem State.pumpSession_waiting (h : s.link.waiting = true) : s.pumpSession = s := pump_waiting h _

/-! ### Messages that find room (R156, R172) -/

theorem State.Carries.head {ms : List OutMessage} (h : s.Carries (m :: ms)) : s.Carries [m] := by
  refine ⟨h.up, h.sending, ?_⟩
  have := h.room
  simp only [List.map_cons, List.sum_cons, List.map_nil, List.sum_nil] at this ⊢
  omega

/-- The messages after the first still find room once it has joined the queue. -/
theorem State.Carries.tail {ms : List OutMessage} (h : s.Carries (m :: ms)) (t : State) (ht : t.fwd = s.carried [m]) :
    t.Carries ms := by
  have := h.room
  refine ⟨by rw [ht]; exact h.up, by rw [ht]; exact h.sending, ?_⟩
  simp only [State.officeBytes, State.carried, State.parcelOf, ht, List.map_append, List.map_cons, List.map_nil,
    List.sum_append, List.sum_cons, List.sum_nil] at this ⊢
  omega

/-- A message that finds room joins the OFFICE queue at once. -/
theorem State.handSession_carries (h : s.Carries [m]) :
    s.handSession (messageBytes m) = (.queued, { s with fwd := s.carried [m] }) := by
  have hroom := h.room
  have hup := h.up
  obtain ⟨x, hx⟩ := Option.ne_none_iff_exists'.mp h.sending
  simp only [State.officeBytes, List.map_cons, List.map_nil, List.sum_cons, List.sum_nil, Nat.add_zero] at hroom
  simp [State.handSession, State.withFwd, State.joinUplink, State.transmit, Forwarding.fits, Forwarding.queue,
    Forwarding.setQueue, sessionParcel, bytesOf, Config.uplinkCapacity, hup, hx, hroom, State.carried, State.parcelOf]

/-- The message in front is handed over and the session goes on with the next. -/
theorem pump_carries {ms : List OutMessage} {n : Nat} (hp : s.link.state.inProgress = true) (hw : s.link.waiting = false)
    (hs : s.link.toSend = m :: ms) (h : s.Carries [m]) :
    pump (n + 1) s = pump n (({ s with fwd := s.carried [m] } : State).onQueued m) := by
  simp [pump, hp, hw, hs, State.handSession_carries h]

/-- The session hands over the message in front and has fuel left for all that can follow it. -/
theorem State.pumpSession_carries {ms : List OutMessage} (hp : s.link.state.inProgress = true)
    (hw : s.link.waiting = false) (hs : s.link.toSend = m :: ms) (h : s.Carries [m]) :
    ∃ n, ms.length + 16 ≤ n ∧ s.pumpSession = pump n (({ s with fwd := s.carried [m] } : State).onQueued m) := by
  obtain ⟨n, hn⟩ : ∃ n, s.pumpFuel = n + 1 := ⟨s.pumpFuel - 1, by simp only [State.pumpFuel]; omega⟩
  refine ⟨n, ?_, by rw [State.pumpSession, hn, pump_carries hp hw hs h]⟩
  simp only [State.pumpFuel, hs, List.length_cons] at hn
  omega

/-- With its last message QUEUED a session in DOWNLOADING awaits the answer. -/
theorem pump_empty {n : Nat} (hd : s.link.state = .downloading) (hs : s.link.toSend = []) : pump n s = s := by
  cases n <;> simp [pump, hd, hs]

/-- With no attempt in progress nothing is handed over. -/
theorem pump_over {n : Nat} (h : s.link.state.inProgress = false) : pump n s = s := by
  cases n <;> simp [pump, h]

/-! ### A file that fails its check (R180) -/

/-- The session a failed file leaves: its FILE-BAD stands behind every message in hand. -/
theorem State.formFileBad_link (s : State) (serial : Nat) : (s.formFileBad serial).link = { s.link with
    resendUsed := true
    toSend := s.link.inHand ++ [.fileBad serial s.staging.records.length s.link.resendUsed]
    replyTimer := if s.link.resendUsed then none else some (s.now + Config.seconds 30) } := by
  have h : (s.recordAlert .fileBad .warn (.file serial) .nothing).link = s.link :=
    State.recordAlert_keeps s _ _ _ _ .link (by decide)
  simp [State.formFileBad, h]

theorem State.formFileBad_staging (s : State) (serial : Nat) : (s.formFileBad serial).staging =
    if s.link.resendUsed then Staging.empty else { s.staging with count := none, check := none, records := [] } := by
  have h : (s.recordAlert .fileBad .warn (.file serial) .nothing).staging = s.staging :=
    State.recordAlert_keeps s _ _ _ _ .staging (by decide)
  simp [State.formFileBad, h]

theorem State.formFileBad_fwd (s : State) (serial : Nat) : (s.formFileBad serial).fwd = s.fwd :=
  State.formFileBad_keeps s serial .fwd (by decide)

theorem State.formFileBad_alert (s : State) (serial : Nat) :
    ∃ a ∈ (s.formFileBad serial).alerts.list, a.kind = .fileBad ∧ a.severity = .warn ∧ a.subject = .file serial := by
  simp [State.formFileBad, State.recordAlert]

/-- While a message waits, a failed file's FILE-BAD stands behind it. -/
theorem State.fileFailed_waiting (h : s.link.waiting = true) (serial : Nat) :
    s.fileFailed serial = s.formFileBad serial :=
  State.pumpSession_waiting (by simpa [State.formFileBad_link] using h)

end Sys2Proof.Machine
end

