-- ==== Sys2Proof/Laws/PartFrame.lean ====
section
/-! SUPPORT. What each shared operation of the trunk controller, the office commands, the lanes and the start-up may
change. -/

namespace Sys2Proof.Machine

open Sys2Proof

variable {fs gs : List Field} {s t u : State}

/-! ### The reset -/

/-- The fields that a reset, or a reply on a lane, may change. -/
def resetOutFields : List Field := .out :: resetFields


theorem State.cleared_keeps (s : State) : keeps [.part, .listenTimer, .cause, .settings, .clamped, .counts, .trunk, .commands, .book, .lanes, .journal, .labels, .fwd, .link, .staging, .unit, .alerts] s (s.cleared) := keeps_of_fields fun g h => by
  cases g <;> first | rfl | exact absurd (by decide) h

@[simp] theorem keeps_cleared (hsub : [.part, .listenTimer, .cause, .settings, .clamped, .counts, .trunk, .commands, .book, .lanes, .journal, .labels, .fwd, .link, .staging, .unit, .alerts] ⊆ fs) :
    keeps fs s (t.cleared) ↔ keeps fs s t := (State.cleared_keeps t).iff hsub

theorem keeps_setCause (c : Cause) (h : .cause ∈ fs) :
    keeps fs s { t with cause := c } ↔ keeps fs s t :=
  keeps.iff (gs := [.cause])
    (keeps_of_fields fun g h => by cases g <;> first | rfl | exact absurd (by decide) h)
    (List.cons_subset.2 ⟨h, List.nil_subset _⟩)

theorem keeps_setPart (p : PartState) (h : .part ∈ fs) :
    keeps fs s { t with part := p } ↔ keeps fs s t :=
  keeps.iff (gs := [.part])
    (keeps_of_fields fun g h => by cases g <;> first | rfl | exact absurd (by decide) h)
    (List.cons_subset.2 ⟨h, List.nil_subset _⟩)

theorem State.enterStarting_keeps (s : State) (c : Cause) : keeps [.part, .listenTimer, .cause, .settings, .clamped, .counts, .trunk, .commands, .book, .lanes, .journal, .labels, .fwd, .link, .staging, .unit, .alerts] s (s.enterStarting c) := by
  unfold State.enterStarting
  refine ((State.recordAlert_keeps _ _ _ _ _).iff (by decide)).2 ?_
  exact (keeps_setCause _ (by decide)).2 (State.cleared_keeps s)

@[simp] theorem keeps_enterStarting (c : Cause) (hsub : [.part, .listenTimer, .cause, .settings, .clamped, .counts, .trunk, .commands, .book, .lanes, .journal, .labels, .fwd, .link, .staging, .unit, .alerts] ⊆ fs) :
    keeps fs s (t.enterStarting c) ↔ keeps fs s t := (State.enterStarting_keeps t c).iff hsub

/-! ### Outcomes -/

theorem State.tell_keeps (s : State) (b : Bool) (f : Frame) : keeps [.book, .trunk, .counts, .lanes, .out, .fwd] s (s.tell b f) := by
  unfold State.tell
  repeat' split
  all_goals simp

@[simp] theorem keeps_tell (b : Bool) (f : Frame) (hsub : [.book, .trunk, .counts, .lanes, .out, .fwd] ⊆ fs) :
    keeps fs s (t.tell b f) ↔ keeps fs s t := (State.tell_keeps t b f).iff hsub

theorem State.notifyQueued_keeps (s : State) (f : Frame) : keeps [.link, .journal, .counts, .fwd, .staging, .alerts, .trunk] s (s.notifyQueued f) := by
  unfold State.notifyQueued
  repeat' split
  all_goals simp

@[simp] theorem keeps_notifyQueued (f : Frame) (hsub : [.link, .journal, .counts, .fwd, .staging, .alerts, .trunk] ⊆ fs) :
    keeps fs s (t.notifyQueued f) ↔ keeps fs s t := (State.notifyQueued_keeps t f).iff hsub

theorem serveKept_keeps (b : Sender) (c : TrunkClass) (n : Nat) (s : State) : keeps [.counts, .trunk] s (serveKept b c n s).2 := by
  induction n generalizing s with
  | zero => exact keeps.refl _ _
  | succ n ih =>
    unfold serveKept
    dsimp only
    repeat' split
    all_goals first
      | exact keeps.trans (by simp) (ih _)
      | simp

@[simp] theorem keeps_serveKept (b : Sender) (c : TrunkClass) (n : Nat) (hsub : [.counts, .trunk] ⊆ fs) :
    keeps fs s (serveKept b c n t).2 ↔ keeps fs s t := (serveKept_keeps b c n t).iff hsub

theorem State.afterQueued_keeps (s : State) (c : TrunkClass) (g : Frame) : keeps [.link, .journal, .counts, .fwd, .staging, .alerts, .trunk] s (s.afterQueued c g) := by
  unfold State.afterQueued
  dsimp only
  repeat' split
  all_goals simp

@[simp] theorem keeps_afterQueued (c : TrunkClass) (g : Frame) (hsub : [.link, .journal, .counts, .fwd, .staging, .alerts, .trunk] ⊆ fs) :
    keeps fs s (t.afterQueued c g) ↔ keeps fs s t := (State.afterQueued_keeps t c g).iff hsub

theorem State.outcome_keeps (s : State) (c : TrunkClass) (f : Frame) (b : Bool) : keeps [.part, .listenTimer, .cause, .settings, .clamped, .counts, .trunk, .commands, .book, .lanes, .journal, .labels, .fwd, .link, .staging, .unit, .alerts, .out] s (s.outcome c f b) := by
  unfold State.outcome
  dsimp only
  repeat' split
  all_goals simp

@[simp] theorem keeps_outcome (c : TrunkClass) (f : Frame) (b : Bool) (hsub : [.part, .listenTimer, .cause, .settings, .clamped, .counts, .trunk, .commands, .book, .lanes, .journal, .labels, .fwd, .link, .staging, .unit, .alerts, .out] ⊆ fs) :
    keeps fs s (t.outcome c f b) ↔ keeps fs s t := (State.outcome_keeps t c f b).iff hsub

theorem State.attemptEnd_keeps (s : State) (c : TrunkClass) (f : Frame) (q : List Frame) (a b : Bool) : keeps [.part, .listenTimer, .cause, .settings, .clamped, .counts, .trunk, .commands, .book, .lanes, .journal, .labels, .fwd, .link, .staging, .unit, .alerts, .out] s (s.attemptEnd c f q a b) := by
  unfold State.attemptEnd
  dsimp only
  repeat' split
  all_goals simp

@[simp] theorem keeps_attemptEnd (c : TrunkClass) (f : Frame) (q : List Frame) (a b : Bool) (hsub : [.part, .listenTimer, .cause, .settings, .clamped, .counts, .trunk, .commands, .book, .lanes, .journal, .labels, .fwd, .link, .staging, .unit, .alerts, .out] ⊆ fs) :
    keeps fs s (t.attemptEnd c f q a b) ↔ keeps fs s t := (State.attemptEnd_keeps t c f q a b).iff hsub

/-! ### Part states and the peer table -/

theorem State.endListening_keeps (s : State) : keeps [.book, .labels, .trunk, .counts, .link, .journal, .fwd, .staging, .alerts] s (s.endListening) := by
  unfold State.endListening
  simp

@[simp] theorem keeps_endListening (hsub : [.book, .labels, .trunk, .counts, .link, .journal, .fwd, .staging, .alerts] ⊆ fs) :
    keeps fs s (t.endListening) ↔ keeps fs s t := (State.endListening_keeps t).iff hsub

theorem State.loseKept_keeps (s : State) (q : List Frame) : keeps [.book, .trunk, .counts, .lanes, .out, .fwd] s (s.loseKept q) := by
  unfold State.loseKept
  exact foldl_keeps _ _ _ fun t x => by simp

@[simp] theorem keeps_loseKept (q : List Frame) (hsub : [.book, .trunk, .counts, .lanes, .out, .fwd] ⊆ fs) :
    keeps fs s (t.loseKept q) ↔ keeps fs s t := (State.loseKept_keeps t q).iff hsub

theorem State.dropAll_keeps (s : State) : keeps [.part, .listenTimer, .cause, .settings, .clamped, .counts, .trunk, .commands, .book, .lanes, .journal, .labels, .fwd, .link, .staging, .unit, .alerts, .out] s (s.dropAll) := by
  unfold State.dropAll
  dsimp only
  repeat' split
  all_goals simp

@[simp] theorem keeps_dropAll (hsub : [.part, .listenTimer, .cause, .settings, .clamped, .counts, .trunk, .commands, .book, .lanes, .journal, .labels, .fwd, .link, .staging, .unit, .alerts, .out] ⊆ fs) :
    keeps fs s (t.dropAll) ↔ keeps fs s t := (State.dropAll_keeps t).iff hsub

theorem State.clash_keeps (s : State) : keeps [.part, .listenTimer, .cause, .settings, .clamped, .counts, .trunk, .commands, .book, .lanes, .journal, .labels, .fwd, .link, .staging, .unit, .alerts, .out] s (s.clash) := by
  have key : ∀ u : State, keeps resetOutFields s u →
      keeps resetOutFields s (if u.part = .starting then u
        else if s.part = .listening then u.endListening else u.judgeReference.judgeHolder) := fun u hu => by
    split
    · exact hu
    split
    · exact hu.trans ((State.endListening_keeps u).mono (by decide))
    · exact (hu.trans ((State.judgeReference_keeps u).mono (by decide))).trans
        ((State.judgeHolder_keeps _).mono (by decide))
  unfold State.clash
  refine (key _ ?_).mono (by decide)
  exact (keeps_dropAll (by decide)).2 ((keeps_setPart _ (by decide)).2
    ((keeps_withTrunk _ (by decide)).2 ((keeps_recordAlert _ _ _ _ (by decide)).2 (keeps.refl _ _))))

@[simp] theorem keeps_clash (hsub : [.part, .listenTimer, .cause, .settings, .clamped, .counts, .trunk, .commands, .book, .lanes, .journal, .labels, .fwd, .link, .staging, .unit, .alerts, .out] ⊆ fs) :
    keeps fs s (t.clash) ↔ keeps fs s t := (State.clash_keeps t).iff hsub

theorem State.hear_keeps (s : State) (n : Station) (f : Peer → Peer) : keeps [.labels, .trunk, .link, .journal, .counts, .fwd, .staging, .alerts] s (s.hear n f) := by
  unfold State.hear
  dsimp only
  repeat' split
  all_goals simp

@[simp] theorem keeps_hear (n : Station) (f : Peer → Peer) (hsub : [.labels, .trunk, .link, .journal, .counts, .fwd, .staging, .alerts] ⊆ fs) :
    keeps fs s (t.hear n f) ↔ keeps fs s t := (State.hear_keeps t n f).iff hsub

theorem State.assertTaken_keeps (s : State) : keeps [.out] s (s.assertTaken) := by
  unfold State.assertTaken
  repeat' split
  all_goals simp

@[simp] theorem keeps_assertTaken (hsub : [.out] ⊆ fs) :
    keeps fs s (t.assertTaken) ↔ keeps fs s t := (State.assertTaken_keeps t).iff hsub

theorem State.ownBeacon_keeps (s : State) : keeps [.part, .listenTimer, .cause, .settings, .clamped, .counts, .trunk, .commands, .book, .lanes, .journal, .labels, .fwd, .link, .staging, .unit, .alerts, .out] s (s.ownBeacon) := by
  unfold State.ownBeacon
  repeat' split
  all_goals simp

@[simp] theorem keeps_ownBeacon (hsub : [.part, .listenTimer, .cause, .settings, .clamped, .counts, .trunk, .commands, .book, .lanes, .journal, .labels, .fwd, .link, .staging, .unit, .alerts, .out] ⊆ fs) :
    keeps fs s (t.ownBeacon) ↔ keeps fs s t := (State.ownBeacon_keeps t).iff hsub

theorem State.queueBeacon_keeps (s : State) : keeps [.trunk, .counts] s (s.queueBeacon) := by
  unfold State.queueBeacon
  dsimp only
  repeat' split
  all_goals simp

@[simp] theorem keeps_queueBeacon (hsub : [.trunk, .counts] ⊆ fs) :
    keeps fs s (t.queueBeacon) ↔ keeps fs s t := (State.queueBeacon_keeps t).iff hsub

/-- A received frame changes what hearing it, counting it and delivering it change. -/
theorem State.receive_keeps (s : State) (f : FrameHead) (a b : Bool) (p : Peer → Peer) (d : State → State)
    (hd : ∀ t, keeps fs t (d t))
    (hsub : [.labels, .trunk, .link, .journal, .counts, .fwd, .staging, .alerts, .out] ⊆ fs) :
    keeps fs s (s.receive f a b p d) := by
  simp only [List.cons_subset, List.nil_subset, and_true] at hsub
  unfold State.receive
  dsimp only
  have hear : ∀ t, keeps fs t (t.hear f.src p) := fun t => (State.hear_keeps t _ _).mono (by simp [hsub])
  have taken : ∀ t : State, keeps fs t t.assertTaken := fun t => (State.assertTaken_keeps t).mono (by simp [hsub])
  have bump : ∀ (t : State) c, keeps fs t (t.bump c) := fun t c => (State.bump_keeps t c).mono (by simp [hsub])
  split
  · exact keeps.refl _ _
  split
  · exact bump _ _
  split
  · exact (hear _).trans (bump _ _)
  · split
    · split
      · exact ((hear _).trans (taken _)).trans (hd _)
      · exact ((hear _).trans (taken _)).trans (bump _ _)
    · exact hear _
  · split
    · exact ((hear _).trans (taken _)).trans (hd _)
    · exact ((hear _).trans (taken _)).trans (bump _ _)

/-! ### Frames for the office link controller -/

theorem State.takeAnnounce_keeps (s : State) (n : Station) (a c k : Nat) : keeps [.staging, .link, .counts] s (s.takeAnnounce n a c k) := by
  unfold State.takeAnnounce
  dsimp only
  repeat' split
  all_goals simp

@[simp] theorem keeps_takeAnnounce (n : Station) (a c k : Nat) (hsub : [.staging, .link, .counts] ⊆ fs) :
    keeps fs s (t.takeAnnounce n a c k) ↔ keeps fs s t := (State.takeAnnounce_keeps t n a c k).iff hsub

theorem State.takeFileFrame_keeps (s : State) (n : Station) (a i : Nat) (rs : List ChangeRecord) : keeps [.staging, .counts] s (s.takeFileFrame n a i rs) := by
  unfold State.takeFileFrame
  repeat' split
  all_goals simp

@[simp] theorem keeps_takeFileFrame (n : Station) (a i : Nat) (rs : List ChangeRecord) (hsub : [.staging, .counts] ⊆ fs) :
    keeps fs s (t.takeFileFrame n a i rs) ↔ keeps fs s t := (State.takeFileFrame_keeps t n a i rs).iff hsub

theorem State.dropTrunkFile_keeps (s : State) : keeps [.staging, .counts, .link] s (s.dropTrunkFile) := by
  unfold State.dropTrunkFile
  simp

@[simp] theorem keeps_dropTrunkFile (hsub : [.staging, .counts, .link] ⊆ fs) :
    keeps fs s (t.dropTrunkFile) ↔ keeps fs s t := (State.dropTrunkFile_keeps t).iff hsub

theorem State.takeFileClose_keeps (s : State) (n : Station) (a c k : Nat) : keeps [.book, .link, .staging, .trunk, .counts] s (s.takeFileClose n a c k) := by
  unfold State.takeFileClose
  repeat' split
  all_goals simp

@[simp] theorem keeps_takeFileClose (n : Station) (a c k : Nat) (hsub : [.book, .link, .staging, .trunk, .counts] ⊆ fs) :
    keeps fs s (t.takeFileClose n a c k) ↔ keeps fs s t := (State.takeFileClose_keeps t n a c k).iff hsub

/-! ### Relays and the uplink -/

theorem State.deliverBack_keeps (s : State) (p : Parcel) : keeps [.link, .journal, .counts, .fwd, .staging, .alerts, .trunk, .unit, .book, .lanes, .out] s (s.deliverBack p) := by
  unfold State.deliverBack
  repeat' split
  all_goals simp

@[simp] theorem keeps_deliverBack (p : Parcel) (hsub : [.link, .journal, .counts, .fwd, .staging, .alerts, .trunk, .unit, .book, .lanes, .out] ⊆ fs) :
    keeps fs s (t.deliverBack p) ↔ keeps fs s t := (State.deliverBack_keeps t p).iff hsub

theorem State.takeRelay_keeps (s : State) (p : Parcel) : keeps [.link, .journal, .counts, .fwd, .staging, .alerts, .trunk, .unit, .book, .lanes, .out] s (s.takeRelay p) := by
  unfold State.takeRelay
  repeat' split
  all_goals simp

@[simp] theorem keeps_takeRelay (p : Parcel) (hsub : [.link, .journal, .counts, .fwd, .staging, .alerts, .trunk, .unit, .book, .lanes, .out] ⊆ fs) :
    keeps fs s (t.takeRelay p) ↔ keeps fs s t := (State.takeRelay_keeps t p).iff hsub

theorem State.uplinkUp_keeps (s : State) : keeps [.link, .journal, .counts, .fwd, .staging, .alerts] s (s.uplinkUp) := by
  unfold State.uplinkUp
  simp

@[simp] theorem keeps_uplinkUp (hsub : [.link, .journal, .counts, .fwd, .staging, .alerts] ⊆ fs) :
    keeps fs s (t.uplinkUp) ↔ keeps fs s t := (State.uplinkUp_keeps t).iff hsub

theorem State.uplinkDown_keeps (s : State) : keeps [.link, .journal, .counts, .fwd, .staging, .alerts, .lanes, .out, .trunk] s (s.uplinkDown) := by
  unfold State.uplinkDown
  simp

@[simp] theorem keeps_uplinkDown (hsub : [.link, .journal, .counts, .fwd, .staging, .alerts, .lanes, .out, .trunk] ⊆ fs) :
    keeps fs s (t.uplinkDown) ↔ keeps fs s t := (State.uplinkDown_keeps t).iff hsub

theorem State.recordSent_keeps (s : State) (p : Parcel) : keeps [.fwd] s (s.recordSent p) := by
  unfold State.recordSent
  repeat' split
  all_goals simp

@[simp] theorem keeps_recordSent (p : Parcel) (hsub : [.fwd] ⊆ fs) :
    keeps fs s (t.recordSent p) ↔ keeps fs s t := (State.recordSent_keeps t p).iff hsub

/-! ### Office commands -/

theorem State.giveReply_keeps (s : State) (n : Station) (r : OfficeReply) (b : Bool) : keeps [.part, .listenTimer, .cause, .settings, .clamped, .counts, .trunk, .commands, .book, .lanes, .journal, .labels, .fwd, .link, .staging, .unit, .alerts] s (s.giveReply n r b) := by
  unfold State.giveReply
  dsimp only
  repeat' split
  all_goals simp

@[simp] theorem keeps_giveReply (n : Station) (r : OfficeReply) (b : Bool) (hsub : [.part, .listenTimer, .cause, .settings, .clamped, .counts, .trunk, .commands, .book, .lanes, .journal, .labels, .fwd, .link, .staging, .unit, .alerts] ⊆ fs) :
    keeps fs s (t.giveReply n r b) ↔ keeps fs s t := (State.giveReply_keeps t n r b).iff hsub

theorem State.remember_keeps (s : State) (n : Station) (r : OfficeReply) : keeps [.commands] s (s.remember n r) := by
  unfold State.remember
  simp

@[simp] theorem keeps_remember (n : Station) (r : OfficeReply) (hsub : [.commands] ⊆ fs) :
    keeps fs s (t.remember n r) ↔ keeps fs s t := (State.remember_keeps t n r).iff hsub

theorem State.command_keeps (s : State) (h : OfficeHead) (k : Nat) (b : Bool) (act : State → OfficeOutcome × State)
    (ha : ∀ t, keeps fs t (act t).2) (hsub : resetFields ⊆ fs) : keeps fs s (s.command h k b act) := by
  have reply : ∀ (t : State) n r b, keeps fs t (t.giveReply n r b) := fun t n r b => (State.giveReply_keeps t n r b).mono hsub
  have bump : ∀ (t : State) c, keeps fs t (t.bump c) := fun t c => (State.bump_keeps t c).mono fun x hx => hsub (by
    simp only [List.mem_singleton] at hx; subst hx; decide)
  unfold State.command
  split
  · exact bump _ _
  split
  · exact (bump _ _).trans (reply _ _ _ _)
  · unfold State.actOn
    dsimp only
    refine ((ha s).trans ?_).trans (reply _ _ _ _)
    exact (State.remember_keeps _ _ _).mono fun x hx => hsub (by simp only [List.mem_singleton] at hx; subst hx; decide)

/-- The reply of a command other than RESTART only queues or loses a frame. -/
theorem State.giveReply_keeps_plain (s : State) (n : Station) (r : OfficeReply) :
    keeps [.trunk, .counts] s (s.giveReply n r false) := by
  unfold State.giveReply
  dsimp only
  repeat' split
  all_goals first | simp | contradiction

/-- A command other than RESTART changes what its act changes, the command memory, and what its reply changes. -/
theorem State.command_keeps_plain (s : State) (h : OfficeHead) (k : Nat) (act : State → OfficeOutcome × State)
    (ha : ∀ t, keeps fs t (act t).2) (hsub : [.commands, .trunk, .counts] ⊆ fs) :
    keeps fs s (s.command h k false act) := by
  simp only [List.cons_subset, List.nil_subset, and_true] at hsub
  have reply : ∀ (t : State) n r, keeps fs t (t.giveReply n r false) := fun t n r =>
    (State.giveReply_keeps_plain t n r).mono (by simp [hsub])
  have bump : ∀ (t : State) c, keeps fs t (t.bump c) := fun t c => (State.bump_keeps t c).mono (by simp [hsub])
  unfold State.command
  split
  · exact bump _ _
  split
  · exact (bump _ _).trans (reply _ _ _)
  · unfold State.actOn
    dsimp only
    exact ((ha s).trans ((State.remember_keeps _ _ _).mono (by simp [hsub]))).trans (reply _ _ _)

/-- An OFFICE frame of another kind than RESTART changes what its reception, its act and its reply change. -/
theorem State.office_keeps (s : State) (h : OfficeHead) (k : Nat) (act : State → OfficeOutcome × State)
    (ha : ∀ t, keeps fs t (act t).2) (hsub : officeFields ⊆ fs) : keeps fs s (s.office h k act) := by
  have h1 : ∀ {l : List Field}, l ⊆ officeFields → l ⊆ fs := fun hl x hx => hsub (hl hx)
  exact State.receive_keeps s _ _ _ _ _ (fun t => State.command_keeps_plain t h k act ha (h1 (by decide))) (h1 (by decide))

theorem State.actSpot_keeps (s : State) (r : ChangeRecord) : keeps [.book, .counts, .alerts, .trunk] s ((State.actSpot r s).2) := by
  unfold State.actSpot
  dsimp only
  repeat' split
  all_goals simp

@[simp] theorem keeps_actSpot (r : ChangeRecord) (hsub : [.book, .counts, .alerts, .trunk] ⊆ fs) :
    keeps fs s ((State.actSpot r t).2) ↔ keeps fs s t := (State.actSpot_keeps t r).iff hsub

theorem State.actReadEntry_keeps (s : State) (a : Nat) : keeps [] s ((State.actReadEntry a s).2) := by
  unfold State.actReadEntry
  split <;> simp

@[simp] theorem keeps_actReadEntry (a : Nat) (hsub : [] ⊆ fs) :
    keeps fs s ((State.actReadEntry a t).2) ↔ keeps fs s t := (State.actReadEntry_keeps t a).iff hsub

theorem State.actRunSession_keeps (s : State) : keeps [.link, .journal, .counts, .fwd, .staging, .alerts, .trunk] s ((State.actRunSession s).2) := by
  unfold State.actRunSession
  repeat' split
  all_goals simp

@[simp] theorem keeps_actRunSession (hsub : [.link, .journal, .counts, .fwd, .staging, .alerts, .trunk] ⊆ fs) :
    keeps fs s ((State.actRunSession t).2) ↔ keeps fs s t := (State.actRunSession_keeps t).iff hsub

theorem State.actRestart_keeps (s : State) : keeps [.commands] s ((State.actRestart s).2) := by
  unfold State.actRestart
  simp

@[simp] theorem keeps_actRestart (hsub : [.commands] ⊆ fs) :
    keeps fs s ((State.actRestart t).2) ↔ keeps fs s t := (State.actRestart_keeps t).iff hsub

theorem State.actReadCounts_keeps (s : State) (g : Nat) : keeps [] s ((State.actReadCounts g s).2) := by
  unfold State.actReadCounts
  repeat' split
  all_goals simp

@[simp] theorem keeps_actReadCounts (g : Nat) (hsub : [] ⊆ fs) :
    keeps fs s ((State.actReadCounts g t).2) ↔ keeps fs s t := (State.actReadCounts_keeps t g).iff hsub

theorem State.actSetMode_keeps (s : State) (n : Nat) : keeps [.link, .journal, .counts, .fwd, .staging, .alerts, .unit] s ((State.actSetMode n s).2) := by
  unfold State.actSetMode
  dsimp only
  repeat' split
  all_goals simp

@[simp] theorem keeps_actSetMode (n : Nat) (hsub : [.link, .journal, .counts, .fwd, .staging, .alerts, .unit] ⊆ fs) :
    keeps fs s ((State.actSetMode n t).2) ↔ keeps fs s t := (State.actSetMode_keeps t n).iff hsub

theorem State.actSetTime_keeps (s : State) (x : StoreTime) : keeps [.link, .journal, .counts, .fwd, .staging, .alerts, .unit] s ((State.actSetTime x s).2) := by
  unfold State.actSetTime
  repeat' split
  all_goals simp

@[simp] theorem keeps_actSetTime (x : StoreTime) (hsub : [.link, .journal, .counts, .fwd, .staging, .alerts, .unit] ⊆ fs) :
    keeps fs s ((State.actSetTime x t).2) ↔ keeps fs s t := (State.actSetTime_keeps t x).iff hsub

theorem State.actReadAlerts_keeps (s : State) (n : Nat) : keeps [] s ((State.actReadAlerts n s).2) := by
  unfold State.actReadAlerts
  simp

@[simp] theorem keeps_actReadAlerts (n : Nat) (hsub : [] ⊆ fs) :
    keeps fs s ((State.actReadAlerts n t).2) ↔ keeps fs s t := (State.actReadAlerts_keeps t n).iff hsub

theorem State.actAckAlert_keeps (s : State) (n : Nat) : keeps [.alerts] s ((State.actAckAlert n s).2) := by
  unfold State.actAckAlert
  dsimp only
  split
  · exact (keeps_setAlerts _ (by decide)).2 (keeps.refl _ _)
  · simp

@[simp] theorem keeps_actAckAlert (n : Nat) (hsub : [.alerts] ⊆ fs) :
    keeps fs s ((State.actAckAlert n t).2) ↔ keeps fs s t := (State.actAckAlert_keeps t n).iff hsub

/-! ### Lanes -/

theorem State.goodFrame_keeps (s : State) (l : LaneNo) : keeps [.lanes] s (s.goodFrame l) := by
  unfold State.goodFrame
  simp

@[simp] theorem keeps_goodFrame (l : LaneNo) (hsub : [.lanes] ⊆ fs) :
    keeps fs s (t.goodFrame l) ↔ keeps fs s t := (State.goodFrame_keeps t l).iff hsub

theorem State.answer_keeps (s : State) (l : LaneNo) (b : Bool) (k : RequestKind) (r : LaneReply) : keeps [.lanes, .out] s (s.answer l b k r) := by
  unfold State.answer
  simp

@[simp] theorem keeps_answer (l : LaneNo) (b : Bool) (k : RequestKind) (r : LaneReply) (hsub : [.lanes, .out] ⊆ fs) :
    keeps fs s (t.answer l b k r) ↔ keeps fs s t := (State.answer_keeps t l b k r).iff hsub

theorem State.touch_keeps (s : State) (l : LaneNo) : keeps [.lanes] s (s.touch l) := by
  unfold State.touch
  simp

@[simp] theorem keeps_touch (l : LaneNo) (hsub : [.lanes] ⊆ fs) :
    keeps fs s (t.touch l) ↔ keeps fs s t := (State.touch_keeps t l).iff hsub

theorem State.setBasket_keeps (s : State) (l : LaneNo) (b : Option Basket) : keeps [.lanes] s (s.setBasket l b) := by
  unfold State.setBasket
  simp

@[simp] theorem keeps_setBasket (l : LaneNo) (b : Option Basket) (hsub : [.lanes] ⊆ fs) :
    keeps fs s (t.setBasket l b) ↔ keeps fs s t := (State.setBasket_keeps t l b).iff hsub

theorem State.discardFrame_keeps (s : State) (l : LaneNo) (w : LaneFault) : keeps [.lanes] s (s.discardFrame l w) := by
  unfold State.discardFrame
  repeat' split
  all_goals simp

@[simp] theorem keeps_discardFrame (l : LaneNo) (w : LaneFault) (hsub : [.lanes] ⊆ fs) :
    keeps fs s (t.discardFrame l w) ↔ keeps fs s t := (State.discardFrame_keeps t l w).iff hsub

theorem State.request_keeps (s : State) (l : LaneNo) (b : Bool) (k : RequestKind) (act : State → Acted)
    (ha : ∀ t, keeps fs t (act t).2) (hsub : [.lanes, .out] ⊆ fs) : keeps fs s (s.request l b k act) := by
  have good : ∀ t : State, keeps fs t (t.goodFrame l) := fun t => (State.goodFrame_keeps t l).mono (by simp_all)
  have answer : ∀ (t : State) r, keeps fs t (t.answer l b k r) := fun t r => (State.answer_keeps t l b k r).mono hsub
  have emit : ∀ (t : State) o, keeps fs t (t.emit o) := fun t o => (State.emit_keeps t o).mono (by simp_all)
  have touch : ∀ t : State, keeps fs t (t.touch l) := fun t => (State.touch_keeps t l).mono (by simp_all)
  unfold State.request
  dsimp only
  split
  · exact keeps.refl _ _
  split
  · exact (good _).trans (emit _ _)
  split
  · exact keeps.refl _ _
  refine (good s).trans ?_
  split
  · exact answer _ _
  split
  · exact emit _ _
  split
  · exact emit _ _
  unfold State.newRequest
  dsimp only
  refine (touch _).trans ?_
  split
  · exact ha _
  · exact (ha _).trans (answer _ _)

theorem State.actOpen_keeps (s : State) (l : LaneNo) : keeps [.lanes] s ((State.actOpen l s).2) := by
  unfold State.actOpen
  dsimp only
  repeat' split
  all_goals simp

@[simp] theorem keeps_actOpen (l : LaneNo) (hsub : [.lanes] ⊆ fs) :
    keeps fs s ((State.actOpen l t).2) ↔ keeps fs s t := (State.actOpen_keeps t l).iff hsub

theorem State.actItem_keeps (s : State) (l : LaneNo) (a q : Nat) (m : Option Nat) : keeps [.lanes] s ((State.actItem l a q m s).2) := by
  unfold State.actItem
  dsimp only
  repeat' split
  all_goals simp

@[simp] theorem keeps_actItem (l : LaneNo) (a q : Nat) (m : Option Nat) (hsub : [.lanes] ⊆ fs) :
    keeps fs s ((State.actItem l a q m t).2) ↔ keeps fs s t := (State.actItem_keeps t l a q m).iff hsub

theorem State.actVoid_keeps (s : State) (l : LaneNo) (n : Nat) : keeps [.lanes] s ((State.actVoid l n s).2) := by
  unfold State.actVoid
  repeat' split
  all_goals simp

@[simp] theorem keeps_actVoid (l : LaneNo) (n : Nat) (hsub : [.lanes] ⊆ fs) :
    keeps fs s ((State.actVoid l n t).2) ↔ keeps fs s t := (State.actVoid_keeps t l n).iff hsub

theorem State.actTotal_keeps (s : State) (l : LaneNo) : keeps [.lanes] s ((State.actTotal l s).2) := by
  unfold State.actTotal
  dsimp only
  repeat' split
  all_goals simp

@[simp] theorem keeps_actTotal (l : LaneNo) (hsub : [.lanes] ⊆ fs) :
    keeps fs s ((State.actTotal l t).2) ↔ keeps fs s t := (State.actTotal_keeps t l).iff hsub

theorem State.actClose_keeps (s : State) (l : LaneNo) (x : Tender) : keeps [.lanes, .link, .journal, .counts, .fwd, .staging, .alerts, .trunk] s ((State.actClose l x s).2) := by
  unfold State.actClose
  dsimp only
  repeat' split
  all_goals simp

@[simp] theorem keeps_actClose (l : LaneNo) (x : Tender) (hsub : [.lanes, .link, .journal, .counts, .fwd, .staging, .alerts, .trunk] ⊆ fs) :
    keeps fs s ((State.actClose l x t).2) ↔ keeps fs s t := (State.actClose_keeps t l x).iff hsub

theorem State.actCancel_keeps (s : State) (l : LaneNo) : keeps [.lanes, .counts] s ((State.actCancel l s).2) := by
  unfold State.actCancel
  repeat' split
  all_goals simp

@[simp] theorem keeps_actCancel (l : LaneNo) (hsub : [.lanes, .counts] ⊆ fs) :
    keeps fs s ((State.actCancel l t).2) ↔ keeps fs s t := (State.actCancel_keeps t l).iff hsub

theorem State.actLookup_keeps (s : State) (a : Nat) : keeps [] s ((State.actLookup a s).2) := by
  unfold State.actLookup
  split <;> simp

@[simp] theorem keeps_actLookup (a : Nat) (hsub : [] ⊆ fs) :
    keeps fs s ((State.actLookup a t).2) ↔ keeps fs s t := (State.actLookup_keeps t a).iff hsub

theorem State.actAuth_keeps (s : State) (l : LaneNo) (b : Bool) (p : List Byte) : keeps [.lanes, .fwd, .counts, .trunk] s ((State.actAuth l b p s).2) := by
  unfold State.actAuth
  dsimp only
  repeat' split
  all_goals simp

@[simp] theorem keeps_actAuth (l : LaneNo) (b : Bool) (p : List Byte) (hsub : [.lanes, .fwd, .counts, .trunk] ⊆ fs) :
    keeps fs s ((State.actAuth l b p t).2) ↔ keeps fs s t := (State.actAuth_keeps t l b p).iff hsub

/-! ### Start-up -/

theorem keeps_setLanes (x : Vector Lane 16) (h : .lanes ∈ fs) :
    keeps fs s { t with lanes := x } ↔ keeps fs s t :=
  keeps.iff (gs := [.lanes])
    (keeps_of_fields fun g h => by cases g <;> first | rfl | exact absurd (by decide) h)
    (List.cons_subset.2 ⟨h, List.nil_subset _⟩)

theorem State.settleLanes_keeps (s : State) : keeps [.lanes] s (s.settleLanes) := (keeps_setLanes _ (by decide)).2 (keeps.refl _ _)

@[simp] theorem keeps_settleLanes (hsub : [.lanes] ⊆ fs) :
    keeps fs s (t.settleLanes) ↔ keeps fs s t := (State.settleLanes_keeps t).iff hsub

theorem State.ownLabels_keeps (s : State) : keeps [.labels] s (s.ownLabels) := by
  unfold State.ownLabels
  simp

@[simp] theorem keeps_ownLabels (hsub : [.labels] ⊆ fs) :
    keeps fs s (t.ownLabels) ↔ keeps fs s t := (State.ownLabels_keeps t).iff hsub

theorem State.settleJournal_keeps (s : State) : keeps [.link, .journal, .counts, .fwd, .staging, .alerts, .trunk] s (s.settleJournal) := by
  unfold State.settleJournal
  dsimp only
  repeat' split
  all_goals simp

@[simp] theorem keeps_settleJournal (hsub : [.link, .journal, .counts, .fwd, .staging, .alerts, .trunk] ⊆ fs) :
    keeps fs s (t.settleJournal) ↔ keeps fs s t := (State.settleJournal_keeps t).iff hsub

theorem State.prepare_keeps (s : State) : keeps [.link, .journal, .counts, .fwd, .staging, .alerts, .trunk, .lanes, .labels, .unit] s (s.prepare) := by
  unfold State.prepare
  simp

@[simp] theorem keeps_prepare (hsub : [.link, .journal, .counts, .fwd, .staging, .alerts, .trunk, .lanes, .labels, .unit] ⊆ fs) :
    keeps fs s (t.prepare) ↔ keeps fs s t := (State.prepare_keeps t).iff hsub

end Sys2Proof.Machine
end

