-- ==== Sys2Proof/Laws/Reception.lean ====
section
/-! SUPPORT. What a received trunk frame leaves for the block it is delivered to, and what an OFFICE command that is obeyed
comes to, said once for every command that arrives in a frame. -/

namespace Sys2Proof.Machine

open Sys2Proof

/-! ### What hearing a frame leaves alone (R135, R136) -/

theorem State.heardFrom_keeps (s : State) (n : Station) (upd : Peer → Peer) : keeps hearFields s (s.heardFrom n upd) := by
  unfold State.heardFrom
  simp [hearFields]

@[simp] theorem State.heardFrom_settings (s : State) (n : Station) (u : Peer → Peer) :
    (s.heardFrom n u).settings = s.settings := s.heardFrom_keeps n u .settings (by decide)
@[simp] theorem State.heardFrom_part (s : State) (n : Station) (u : Peer → Peer) :
    (s.heardFrom n u).part = s.part := s.heardFrom_keeps n u .part (by decide)
@[simp] theorem State.heardFrom_now (s : State) (n : Station) (u : Peer → Peer) :
    (s.heardFrom n u).now = s.now := s.heardFrom_keeps n u .now (by decide)
@[simp] theorem State.heardFrom_unit (s : State) (n : Station) (u : Peer → Peer) :
    (s.heardFrom n u).unit = s.unit := s.heardFrom_keeps n u .unit (by decide)
@[simp] theorem State.heardFrom_book (s : State) (n : Station) (u : Peer → Peer) :
    (s.heardFrom n u).book = s.book := s.heardFrom_keeps n u .book (by decide)
@[simp] theorem State.heardFrom_lanes (s : State) (n : Station) (u : Peer → Peer) :
    (s.heardFrom n u).lanes = s.lanes := s.heardFrom_keeps n u .lanes (by decide)
@[simp] theorem State.heardFrom_commands (s : State) (n : Station) (u : Peer → Peer) :
    (s.heardFrom n u).commands = s.commands := s.heardFrom_keeps n u .commands (by decide)
@[simp] theorem State.heardFrom_fresh (s : State) (n : Station) (u : Peer → Peer) :
    (s.heardFrom n u).fresh = s.fresh := s.heardFrom_keeps n u .fresh (by decide)

@[simp] theorem State.heardFrom_canSend (s : State) (n : Station) (u : Peer → Peer) :
    (s.heardFrom n u).canSend = s.canSend := by simp [State.canSend]
@[simp] theorem State.heardFrom_self (s : State) (n : Station) (u : Peer → Peer) :
    (s.heardFrom n u).self = s.self := by simp [State.self]
@[simp] theorem State.heardFrom_entry (s : State) (n : Station) (u : Peer → Peer) (a : Nat) :
    (s.heardFrom n u).entry a = s.entry a := by simp [State.entry]
@[simp] theorem State.heardFrom_lane (s : State) (n : Station) (u : Peer → Peer) (l : LaneNo) :
    (s.heardFrom n u).lane l = s.lane l := by simp [State.lane]

/-- Hearing a frame judges the reference and changes nothing else of the label table (R103). -/
theorem State.heardFrom_labels (s : State) (n : Station) (u : Peer → Peer) :
    ∃ r a, (s.heardFrom n u).labels = { s.labels with reference := r, aligned := a } := by
  have h1 : ∀ t : State, t.assertTaken.labels = t.labels := fun t => t.assertTaken_keeps .labels (by decide)
  have h2 : ∀ t : State, t.judgeHolder.labels = t.labels := fun t => t.judgeHolder_keeps .labels (by decide)
  simp only [State.heardFrom, h1, State.hear]
  split
  · rw [h2]
    exact ⟨_, _, rfl⟩
  · exact ⟨s.labels.reference, s.labels.aligned, rfl⟩

@[simp] theorem State.heardFrom_owned (s : State) (n : Station) (u : Peer → Peer) (label : Nat) :
    (s.heardFrom n u).owned label = s.owned label := by
  obtain ⟨r, a, h⟩ := s.heardFrom_labels n u
  simp only [State.owned, h]

@[simp] theorem State.heardFrom_heard (s : State) (n : Station) (u : Peer → Peer) (label : Nat) :
    (s.heardFrom n u).heard label = s.heard label := by
  obtain ⟨r, a, h⟩ := s.heardFrom_labels n u
  simp only [State.heard, h]

theorem State.hear_settings (s : State) (n : Station) (u : Peer → Peer) : (s.hear n u).settings = s.settings := by
  have : keeps hearFields s (s.hear n u) := by simp [hearFields]
  exact this .settings (by decide)

/-! ### A frame for this part, or for ALL (R131, R132) -/

theorem State.receive_station {s : State} {f : FrameHead} (h : s.Hears f.src) (hd : f.dest = .station s.settings.station)
    (ok : Bool) (upd : Peer → Peer) (d : State → State) :
    s.receive f false ok upd d =
      if ok then d (s.heardFrom f.src upd) else (s.heardFrom f.src upd).bump .malformedFrames := by
  have hs : (s.hear f.src upd).self = s.settings.station := by simp only [State.self, State.hear_settings]
  simp only [State.receive, h.live, h.serving, Bool.and_self, Bool.not_true, Bool.false_eq_true, if_false, h.other, hd, hs,
    if_true, Bool.not_false, Bool.true_and, State.heardFrom]

theorem State.receive_all {s : State} {f : FrameHead} (h : s.Hears f.src) (hd : f.dest = .all)
    (ok : Bool) (upd : Peer → Peer) (d : State → State) :
    s.receive f true ok upd d =
      if ok then d (s.heardFrom f.src upd) else (s.heardFrom f.src upd).bump .malformedFrames := by
  simp only [State.receive, h.live, h.serving, Bool.and_self, Bool.not_true, Bool.false_eq_true, if_false, h.other, hd,
    Bool.true_and, State.heardFrom]

/-- A frame from a part that does not serve is not received (R131 step 1). -/
theorem State.receive_not_serving {s : State} (h : (s.live && s.serving) = false) (f : FrameHead) (toAll ok : Bool)
    (upd : Peer → Peer) (d : State → State) : s.receive f toAll ok upd d = s := by
  simp [State.receive, h]

/-- A frame of this station's own number updates no slot and is delivered to no block (R131 step 3). -/
theorem State.receive_own {s : State} {f : FrameHead} (hl : s.live = true) (hs : s.serving = true)
    (h : f.src = s.settings.station) (toAll ok : Bool) (upd : Peer → Peer) (d : State → State) :
    s.receive f toAll ok upd d = s.bump .ownNumberFrames := by
  simp [State.receive, hl, hs, h]

/-! ### An OFFICE command that is obeyed (R209) -/

theorem State.office_obeyed {s : State} {h : OfficeHead} (ob : s.Obeys h) (kind : Nat) (act : State → OfficeOutcome × State) :
    s.office h kind act =
      (act (s.heardFrom h.src id)).2.replied h kind (act (s.heardFrom h.src id)).1 := by
  have hnone : (s.heardFrom h.src id).commands.savedFor h.src h.tag = none := by
    simp only [State.heardFrom_commands, CommandMemory.savedFor]
    split
    · rfl
    · rename_i r hr
      simp [ob.notRepeat r hr]
  have hr := fun d => State.receive_station (f := ⟨h.src, h.dest⟩) ob.hears ob.dest true id d
  simp only [State.heardFrom_commands] at hnone
  simp only [State.office, State.receivePlain, hr, if_true, State.command, State.heardFrom_commands, ob.starting,
    Bool.false_eq_true, if_false, hnone, State.actOn, State.replied]

end Sys2Proof.Machine
end

