-- ==== Sys2Proof/WellFormed.lean ====
section
/-! DEFINITION. Well-formed commands: the operands fit the bytes that carry them (12) and name what exists. -/

namespace Sys2Proof

/-- A number fits `n` bytes (R212). -/
def fits (n v : Nat) : Bool := decide (v < 256 ^ n)

/-- A radio level fits 2 bytes in two's complement (12.1). -/
def levelFits (x : Int) : Bool := decide (-32768 ≤ x) && decide (x ≤ 32767)

/-- A store time fits its 6 bytes and is not the value UNSET (12.1). -/
def timeFits (t : StoreTime) : Bool := fits 2 t.day && fits 4 t.sec && t.sec != 4294967295

/-- A destination that names no station is 16..254 (12.2). -/
def destOk : Dest → Bool
  | .station _ => true
  | .all => true
  | .nobody n => decide (16 ≤ n) && decide (n ≤ 254)

/-- The head of an OFFICE frame (12.7). -/
def officeOk (h : OfficeHead) : Bool := destOk h.dest && fits 2 h.tag

/-- A change record fits its 33 bytes (12.4). -/
def recordFits (r : ChangeRecord) : Bool :=
  fits 6 r.article && fits 4 r.version && fits 1 r.changeCode && fits 1 r.kindCode && fits 4 r.price && fits 1 r.groupSize
    && fits 4 r.groupPrice && fits 2 r.effective.day && fits 4 r.effective.sec && fits 4 r.fileSerial && fits 2 r.index

/-- The records of a PRICE-CHANGE frame or a FILE-PART fit it: at most 46 of 33 bytes beside the heading (12.2, 12.8). -/
def recordsFit (rs : List ChangeRecord) : Bool := decide (rs.length ≤ 46) && rs.all recordFits

/-- The reports of a frame fit its 1,536 bytes (12.2). -/
def reportsFit (rs : List Report) : Bool :=
  decide (rs.length ≤ 153) && rs.all fun r => fits 6 r.article && fits 4 r.version

/-- A display fits its bytes; an absent article is sent as 0 (12.2). -/
def displayFits (d : Display) : Bool := fits 4 d.version && d.article.all fun a => fits 6 a && a != 0

/-- A parcel fits its layout (12.2). -/
def parcelFits (p : Parcel) : Bool := fits 2 p.tag && p.guest.all (fits 6) && decide (p.payload.length ≤ 1536)

/-- A beacon fits its 13 bytes; an office beacon has no part state and no mode (12.2). -/
def beaconFits (b : Beacon) : Bool :=
  fits 1 b.labelChannel && fits 4 b.offer && fits 4 b.heldSerial &&
    (match b.kind with
     | .controller => b.part.isSome && b.mode.isSome
     | .office => b.part.isNone && b.mode.isNone)

/-- The presence packet fits its bytes (12.9). -/
def presenceFits (p : PresencePacket) : Bool := fits 4 p.label && displayFits p.display && levelFits p.level

/-- The acknowledgement fits its bytes (12.9). -/
def ackFits (a : AckPacket) : Bool := fits 4 a.label && fits 4 a.version && levelFits a.level

/-- The operands of a command fit what carries them. -/
def Instr.wf : Instr → Bool
  | .powerOn => true
  | .resetLineAsserted => true
  | .resetLineReleased => true
  | .profileLoad image => image.all fun b => b.length == 52
  | .listeningTimerExpiry => true
  | .secondTimerExpiry => true
  | .changeoverDeadline a => fits 6 a
  | .releaseRecord => true
  | .spotPrice h r => officeOk h && recordFits r
  | .readEntry h a => officeOk h && fits 6 a
  | .bind h l a => officeOk h && fits 4 l && fits 6 a
  | .unbind h l => officeOk h && fits 4 l
  | .readLabel h l => officeOk h && fits 4 l
  | .setMode h c => officeOk h && fits 1 c
  | .setTime h t => officeOk h && timeFits t
  | .runSession h => officeOk h
  | .readAlerts h n => officeOk h && fits 4 n
  | .ackAlert h n => officeOk h && fits 4 n
  | .readCounts h g => officeOk h && fits 1 g
  | .restart h => officeOk h
  | .officeBadCommand h k => officeOk h && fits 1 k
  | .laneFrameBad _ _ => true
  | .laneTimeout _ => true
  | .openBasket _ _ => true
  | .item _ _ a q m => fits 6 a && fits 4 q && m.all fun n => decide (n < 255)
  | .void _ _ n => fits 2 n
  | .total _ _ => true
  | .close _ _ _ => true
  | .cancel _ _ => true
  | .lookup _ _ a => fits 6 a
  | .auth _ _ p => decide (p.length ≤ 595)
  | .authTimeout _ => true
  | .basketAbandon _ => true
  | .slotEnd => true
  | .claimExpiry l => fits 4 l
  | .ackReceived a => ackFits a
  | .presenceReceived p => presenceFits p
  | .presenceWindowEnd => true
  | .cycleMarkReceived f n l t => destOk f.dest && fits 4 n && fits 2 l && t.all timeFits
  | .labelClaimReceived f l _ c x => destOk f.dest && fits 4 l && fits 1 c && levelFits x
  | .labelRefuseReceived f l x => destOk f.dest && fits 4 l && x.all levelFits
  | .labelHandoverReceived f r => destOk f.dest && fits 4 r.label && displayFits r.display && r.bound.all (fits 6)
  | .labelAdoptedReceived f l _ d => destOk f.dest && fits 4 l && displayFits d
  | .beaconTimerExpiry => true
  | .beaconReceived f b => destOk f.dest && beaconFits b
  | .peerSilent _ => true
  | .trunkFrameBegin _ => true
  | .trunkAttemptEnd _ _ => true
  | .trunkFrameBadCheck => true
  | .trunkFrameOtherDest f _ => destOk f.dest && f.dest != .all
  | .officeReplyReceived f => destOk f.dest
  | .priceChangeReceived f rs => destOk f.dest && recordsFit rs
  | .filePriceChangeReceived f s i rs => destOk f.dest && fits 4 s && fits 2 i && recordsFit rs
  | .fileAnnounceReceived f s c k => destOk f.dest && fits 4 s && fits 2 c && fits 4 k
  | .fileCloseReceived f s c k => destOk f.dest && fits 4 s && fits 2 c && fits 4 k
  | .trunkCollectionTimeout => true
  | .shelfDoneReceived f rs => destOk f.dest && reportsFit rs
  | .shelfQueryReceived f rs => destOk f.dest && reportsFit rs
  | .shelfPendingReceived f rs => destOk f.dest && reportsFit rs
  | .relayReceived f p => destOk f.dest && parcelFits p
  | .uplinkCarrierChange _ => true
  | .uplinkSendEnd => true
  | .uplinkParcelReceived p => parcelFits p
  | .guestFrameReceived g _ _ => fits 6 g
  | .guestRefillTimer => true
  | .sessionSecondTimer => true
  | .restTimerExpiry => true
  | .sessionReplyTimeout => true
  | .accept t time n => fits 2 t && timeFits time && fits 4 n
  | .defer t => fits 2 t
  | .refuse t r => fits 2 t && fits 1 r
  | .batchTaken t s => fits 2 t && fits 2 s
  | .fileStart t s c k => fits 2 t && fits 4 s && fits 2 c && fits 4 k
  | .filePart t s i rs => fits 2 t && fits 4 s && fits 2 i && recordsFit rs
  | .fileEnd t s => fits 2 t && fits 4 s
  | .noResend t s => fits 2 t && fits 4 s
  | .clockTimerExpiry => true
  | .eventLineChange _ _ => true
  | .mainsRiseTimeout => true
  | .mainsFallTimeout => true
  | .powerLoss => true
  | .malformedFrameReceived f => destOk f.dest

end Sys2Proof
end

