-- ==== Sys2Proof/Tests/Slice0.lean ====
section
/-! SUPPORT. Tests on small states. Their expected values come from the manual's worked examples and tables, or by
hand from its rules; each test's comment names its source. The witnesses at the end show, for each statement with
hypotheses, concrete states and operands that meet them. -/

namespace Sys2Proof.Tests

open Sys2Proof Sys2Proof.Machine

/-! ### Small states -/

/-- The state after a command. -/
def after (c : Instr) (s : State) : State :=
  match exec c s with
  | .next t => t
  | .fault _ => s
  | .refused _ => s

/-- A controller peer that is ALIVE, with a last beacon of the given label service and offer. -/
def peerOf (labels : Bool) (offer : Nat) : Peer :=
  { state := .alive, kind := some .controller, labelService := labels, timer := some 4000000
    beacon := some { kind := .controller, part := some .running, mode := some .late, labelService := labels
                     labelChannel := 1, offer := offer, heldSerial := 0 } }

/-- Settings of the test station 3: sixteen lanes, label service, an uplink of 2,000 kbit/s, guest service. -/
def fitted : Settings :=
  { Settings.none with station := 3, laneCount := 16, labelService := true, labelChannel := 2, uplinkPresent := true
                       uplinkRate := 2000, guestService := true, cashStep := 5 }

/-- The peer table of the worked example of 1.8. -/
def peers18 : Vector Peer 16 :=
  (((Trunk.initial.peers.set 5 (peerOf true 0)).set 7 (peerOf false 2000)).set 9 (peerOf true 0)).set 12
    { peerOf true 0 with state := .silent, timer := none }

/-- Station 3 RUNNING, with the peers of the worked example of 1.8: 5 and 9 ALIVE with label service, 12 SILENT with
label service, 7 ALIVE without. Its lanes have been told RESTARTED. -/
def base : State :=
  { State.reset with
    part := .running, settings := fitted, counts := []
    trunk := { Trunk.initial with peers := peers18 }
    lanes := Vector.replicate 16 { Lane.initial 0 with restart := false, state := .up } }

/-- The store of 3.7: article 1 EACH at 249, 2 WEIGHED and CHANGING, 3 MULTI and CHANGING; 4 is WAITING with no current
terms, and 5 is CHANGING to a WITHDRAW. -/
def changing (v : Nat) (a : Action) (hold : List Holdout) : Phase :=
  .changing { pending := ⟨v, a, ⟨0, 0⟩, 0⟩, queued := none, holdout := hold, deadline := .countdown 21600, age := 0 }
def entryA : Entry := { kind := .each, current := some ⟨249, 0, 0⟩, version := 1200, phase := .steady, bound := 0 }
def entryB : Entry :=
  { kind := .weighed, current := some ⟨1899, 0, 0⟩, version := 7, bound := 0
    phase := changing 8 (.set .weighed ⟨1749, 0, 0⟩) [⟨5, .none⟩] }
def entryC : Entry :=
  { kind := .multi, current := some ⟨120, 3, 300⟩, version := 9, bound := 0
    phase := changing 10 (.set .multi ⟨110, 2, 200⟩) [⟨5, .none⟩, ⟨9, .none⟩] }
def entryD : Entry :=
  { kind := .each, current := none, version := 0, phase := .waiting ⟨3, .set .each ⟨50, 0, 0⟩, ⟨0, 0⟩, 0⟩, bound := 0 }
def entryE : Entry :=
  { kind := .each, current := some ⟨80, 0, 0⟩, version := 2, phase := changing 3 .withdraw [⟨3, .none⟩], bound := 0 }
def store : AMap Entry := [(1, entryA), (2, entryB), (3, entryC), (4, entryD), (5, entryE)]

/-- The terms records that 3.7's scans take. -/
def termsA : TermsRecord := ⟨1, .each, ⟨249, 0, 0⟩, 1200, none⟩
def termsB : TermsRecord := ⟨2, .weighed, ⟨1899, 0, 0⟩, 7, some (⟨1749, 0, 0⟩, 8)⟩
def termsC : TermsRecord := ⟨3, .multi, ⟨120, 3, 300⟩, 9, some (⟨110, 2, 200⟩, 10)⟩

/-- The five lines of 3.7's basket. -/
def lines37 : List Line :=
  [⟨1, .each, 2, 0, 498, false, 1200, none⟩, ⟨2, .weighed, 734, 0, 1284, false, 7, some 8⟩,
   ⟨3, .multi, 4, 0, 440, false, 9, some 10⟩, ⟨3, .multi, 1, 50, 55, false, 9, some 10⟩,
   ⟨1, .each, 1, 0, 249, false, 1200, none⟩]
/-- 3.7's basket after its fifth line. -/
def sale : Basket :=
  { id := 318, lines := lines37, terms := [termsA, termsB, termsC], running := 2526, lastActivity := 0, result := none }
/-- The same basket TOTALLED, as 3.7 and 2.6 give the total result. -/
def totalled : Basket := { sale with result := some { total := 2486, reduction := 40, changeover := true } }

/-- The book of 3.7 and a basket on lane 4. -/
def shop (b : Option Basket) : State :=
  ({ base with book := { base.book with entries := store } }.withLane 4 fun x =>
    { x with basket := b, basketId := 318, authCount := 11, lastClosed := 90412 })

/-- An AUTH of lane 4 in flight, sent over this station's own uplink (2.6). -/
def authing : State :=
  ((shop (some totalled)).withLane 4 fun x =>
    { x with authCount := 12, flight := some ⟨12, false, 20000000⟩
             last := some (true, .total, .totalOk 2486 40 true) }).withFwd fun w =>
      { w with up := true, pendingTable := [(4, ⟨12, .local true⟩)] }

def replyParcel : Parcel :=
  { cls := .till, origin := 3, port := .lane 4, tag := 12, guest := none, status := .data, payload := [1, 2, 3] }

/-! ### Well-formed commands: an ill-formed term for each check -/

def head3 : OfficeHead := { src := 14, dest := .station 3, tag := 40 }
def fromFive : FrameHead := { src := 5, dest := .station 3 }
def toAll : FrameHead := { src := 5, dest := .all }
def change1 : ChangeRecord :=
  { article := 1, version := 1310, changeCode := 1, kindCode := 1, price := 229, groupSize := 0, groupPrice := 0
    effective := ⟨412, 25200⟩, fileSerial := 0, index := 0 }
def ackOf (n v : Nat) : AckPacket := { common := false, label := n, owner := 3, version := v, level := -270, battery := .good }
def presenceOf (n : Nat) (x : Int) : PresencePacket :=
  { label := n, owner := 4, display := ⟨.price, some 1, 905⟩, battery := .good, orphan := false, level := x }
def beacon5 : Beacon :=
  { kind := .controller, part := some .running, mode := some .late, labelService := true, labelChannel := 1, offer := 0
    heldSerial := 312 }

theorem test_wf_image : (Instr.profileLoad (some [1, 2])).wf = false := by decide
theorem test_wf_article : (Instr.lookup 4 true 281474976710656).wf = false := by decide
theorem test_wf_dest : (Instr.readEntry { head3 with dest := .nobody 255 } 1).wf = false := by decide
theorem test_wf_tag : (Instr.runSession { head3 with tag := 65536 }).wf = false := by decide
theorem test_wf_record : (Instr.spotPrice head3 { change1 with price := 4294967296 }).wf = false := by decide
theorem test_wf_records : (Instr.priceChangeReceived toAll (List.replicate 47 change1)).wf = false := by decide
theorem test_wf_reports : (Instr.shelfDoneReceived toAll [⟨281474976710656, 1⟩]).wf = false := by decide
theorem test_wf_time : (Instr.setTime head3 ⟨0, 4294967295⟩).wf = false := by decide
theorem test_wf_level : (Instr.labelRefuseReceived fromFive 1 (some (-32769))).wf = false := by decide
theorem test_wf_display : (Instr.labelAdoptedReceived toAll 1 5 ⟨.price, some 0, 1⟩).wf = false := by decide
theorem test_wf_parcel : (Instr.uplinkParcelReceived { replyParcel with tag := 65536 }).wf = false := by decide
theorem test_wf_beacon : (Instr.beaconReceived toAll { beacon5 with part := none }).wf = false := by decide
theorem test_wf_presence : (Instr.presenceReceived (presenceOf 4294967296 0)).wf = false := by decide
theorem test_wf_ack : (Instr.ackReceived (ackOf 1 4294967296)).wf = false := by decide
theorem test_wf_markdown : (Instr.item 4 true 1 1 (some 255)).wf = false := by decide
theorem test_wf_overheard : (Instr.trunkFrameOtherDest toAll .other).wf = false := by decide
theorem test_wf_ok : (Instr.spotPrice head3 change1).wf = true ∧ (Instr.presenceReceived (presenceOf 1 (-260))).wf = true := by
  decide
/-- The table gives no row any bits. -/
theorem test_decode : decodeTableWord 0 0 = none ∧ decodeTableWord 16 5 = none := by decide

/-! ### Pricing (3.7, 3.8) -/

theorem test_line_weighed : lineAmount termsB 734 0 = 1284 := by decide
theorem test_line_markdown : lineAmount termsC 1 50 = 55 := by decide
/-- 3.8: E at 2,250 a kilogram, 1,222 g, ends in exactly 500 and rounds up. -/
theorem test_line_half : baseAmount .weighed ⟨2250, 0, 0⟩ 1222 = 2750 := by decide
/-- 3.8: F is tested against the line limit after its markdown. -/
theorem test_line_limit : priceLine ⟨6, .each, ⟨4999999, 0, 0⟩, 1, none⟩ 2 10 3050 = some (8999998, 9003048) ∧
    priceLine ⟨6, .each, ⟨4999999, 0, 0⟩, 1, none⟩ 3 0 3050 = none := by decide
theorem test_total_37 : priceTotal sale = (2486, 40) := by decide
/-- 3.8: the group price of D is capped, and G's charge is the pending cost 1,140. -/
theorem test_deals_38 :
    let g := [⟨7, .multi, 5, 0, 1200, false, 1, some 2⟩, ⟨7, .multi, 1, 0, 240, false, 1, some 2⟩]
    dealReduction [⟨4, .multi, 3, 0, 300, false, 1, none⟩, ⟨4, .multi, 2, 0, 200, false, 1, none⟩]
      ⟨4, .multi, ⟨100, 4, 450⟩, 1, none⟩ = 0 ∧
    dealReduction g ⟨7, .multi, ⟨250, 2, 400⟩, 1, some (⟨240, 3, 570⟩, 2)⟩ = 300 := by decide
/-- 3.7 and 3.8: cash steps of 5 and 10; R63's greatest amount. -/
theorem test_cash : amountDue 5 2486 .cash = 2485 ∧ amountDue 10 9004088 .cash = 9004090 ∧
    amountDue 10 99999999 .cash = 100000000 ∧ amountDue 5 2486 .card = 2486 := by decide

/-! ### Lanes (2.6, 2.7) -/

/-- 2.7's quantity 1 of 4006381333931 has no part here; line 2 of 3.7 is appended with both versions. -/
theorem test_item : ((after (.item 4 true 2 734 none) (shop (some { sale with lines := [], terms := [], running := 498 }))).lane
    4).basket.map (fun b => (b.lines, b.terms, b.running)) =
      some ([⟨2, .weighed, 734, 0, 1284, false, 7, some 8⟩], [termsB], 1782) := by decide
/-- R37 test 2: an article with no current terms is NOT-FOR-SALE. -/
theorem test_item_not_for_sale : (after (.item 4 true 4 1 none) (shop (some sale))).out = [.laneReply 4 true .notForSale] := by
  decide
theorem test_open : (after (.openBasket 4 true) (shop none)).out = [.laneReply 4 true (.ok (some 319))] := by decide
theorem test_open_again : (after (.openBasket 4 true) (shop (some sale))).out = [.laneReply 4 true (.basketOpen 318)] := by
  decide
/-- 3.7 with line 2 voided: 2,526 less 1,284. -/
theorem test_void : (after (.void 4 true 2) (shop (some sale))).out = [.laneReply 4 true (.voidOk 1242)] := by decide
theorem test_void_none : (after (.void 4 true 6) (shop (some sale))).out = [.laneReply 4 true .noSuchLine] := by decide
theorem test_total : (after (.total 4 true) (shop (some sale))).out = [.laneReply 4 true (.totalOk 2486 40 true)] := by
  decide
/-- 3.7: CLOSE with CASH and a cash step of 5 is due 2,485; the journal's next serial is the record's. -/
theorem test_close : (after (.close 4 true .cash) (shop (some totalled))).out = [.laneReply 4 true (.closed 1 2485)] := by
  decide
theorem test_close_untotalled : (after (.close 4 true .cash) (shop (some sale))).out = [.laneReply 4 true .notTotalled] := by
  decide
theorem test_cancel : ((after (.cancel 4 true) (shop (some sale))).lane 4).basket = none := by decide
/-- R22: PRICE of article 2 carries both prices and the changeover flag. -/
theorem test_lookup : (after (.lookup 4 true 2) (shop none)).out =
    [.laneReply 4 true (.price ⟨.weighed, .changing, true, some ⟨1899, 0, 0⟩, some ⟨1749, 0, 0⟩⟩)] := by decide
/-- 2.6: the till's repeat while its AUTH is in flight is answered WAIT. -/
theorem test_wait : (after (.auth 4 false [1]) authing).out = [.laneReply 4 false .wait] := by decide
/-- 2.6: the AUTH count becomes 12, and the parcel's tag with it; R147: it counts as sent when its sending ends. -/
theorem test_auth : (after (.auth 4 false [1, 2]) ((shop none).withFwd fun w => { w with up := true })).fwd.pendingTable =
    [(4, ⟨12, .local false⟩)] := by decide
theorem test_auth_reply : (after (.uplinkParcelReceived replyParcel) authing).out =
    [.laneReply 4 false (.authReply [1, 2, 3])] := by decide
theorem test_auth_timeout : (after (.authTimeout 4) authing).out = [.laneReply 4 false .timeout] := by decide
theorem test_abandon : (after (.basketAbandon 4) (shop (some sale))).now = 1800000000 := by decide
theorem test_restarted : (after (.total 4 false) ((shop none).withLane 4 fun x => { x with restart := true })).out =
    [.laneReply 4 false (.restarted 90412)] := by decide
theorem test_lane_timeout :
    ((after (.laneTimeout 4) (base.withLane 4 fun x => { x with timer := some 9 })).lane 4).state = .down := by decide
theorem test_frame_bad : ((after (.laneFrameBad 4 .tender) base).lane 4).checkErrors = 1 := by decide

/-! ### Price book (1.8) -/

/-- 1.8's article, here number 1, WAITING for version 1310, on day 412 at 07:00:00, with the holdout set
{3, 5, 9, 12} and the deadline 46,800. -/
def waiting18 : Entry := { entryA with phase := .waiting ⟨1310, .set .each ⟨229, 0, 0⟩, ⟨412, 25200⟩, 9⟩, bound := 1 }
def label1 : Owned :=
  { bound := some 1, display := ⟨.price, some 1, 1200⟩, state := .showing, target := .price 1 1200, lastSent := none
    attempts := 0, power := 0, battery := .good, lastReceived := none
    hearing := { smoothed := some (-270), lastCycle := 0, owner := 3, ownerLevel := none, stamp := 0 } }
def at7 : State :=
  { base with
    book := { base.book with entries := [(1, waiting18)] }
    labels := { base.labels with owned := [(1280017, label1)] }
    unit := { base.unit with clock := some ⟨412, 25200⟩ } }
def course (queued : Option Change) (hold : List Station) (age : Nat) : Changeover :=
  { pending := ⟨1310, .set .each ⟨229, 0, 0⟩, ⟨412, 25200⟩, 9⟩, queued := queued, holdout := hold.map fun n => ⟨n, .none⟩
    deadline := .at ⟨412, 46800⟩, age := age }
def entryAt7 : Entry := { waiting18 with phase := .changing (course none [3, 5, 9, 12] 0) }
theorem test_changeover : (after .secondTimerExpiry at7).entry 1 = some entryAt7 := by decide
theorem test_changeover_label : ((after .secondTimerExpiry at7).owned 1280017).map (·.state) = some (.updateDue 1000000) := by
  rfl
/-- 1.8, 13:00:00: station 12 alone is held out, and version 1315 is queued. -/
def held12 : State :=
  { at7 with
    book := { at7.book with entries :=
      [(1, { waiting18 with phase := .changing (course (some ⟨1315, .set .each ⟨219, 0, 0⟩, ⟨0, 0⟩, 0⟩) [12] 21600) })] }
    unit := { at7.unit with clock := some ⟨412, 46800⟩ } }
theorem test_forced : (after (.changeoverDeadline 1) held12).entry 1 = some
    { waiting18 with current := some ⟨229, 0, 0⟩, version := 1310, phase := .waiting ⟨1315, .set .each ⟨219, 0, 0⟩, ⟨0, 0⟩, 0⟩ } := by
  decide
theorem test_forced_alert : (after (.changeoverDeadline 1) held12).alerts.list.map (·.detail) =
    [.cause .powerOn, .forced 1310 [⟨12, .none⟩]] := by decide
/-- 1.8, 02:14:30: SET 1310 makes the STEADY entry WAITING. -/
theorem test_spot : (after (.spotPrice head3 change1) (shop none)).entry 1 =
    some { entryA with phase := .waiting ⟨1310, .set .each ⟨229, 0, 0⟩, ⟨412, 25200⟩, 0⟩ } := by decide
/-- R2: a price of 10,000,000 is a bad record. -/
theorem test_bad_record : recordChange { change1 with price := 10000000 } = none ∧
    (recordChange { change1 with price := 9999999 }).isSome = true := by decide
/-- 1.8, 07:00:40: the record becomes the queued change. -/
theorem test_price_change : ((after (.priceChangeReceived toAll [{ change1 with version := 1315, price := 219, effective := ⟨0, 0⟩ }])
    { at7 with book := { at7.book with entries := [(1, entryAt7)] } }).entry 1).bind (·.queued) =
      some ⟨1315, .set .each ⟨219, 0, 0⟩, ⟨0, 0⟩, 0⟩ := by decide
/-- R14: station 5 leaves the holdout set of article 3. -/
theorem test_shelf_done : ((after (.shelfDoneReceived toAll [⟨3, 10⟩]) (shop none)).entry 3).map (·.phase) =
    some (changing 10 (.set .multi ⟨110, 2, 200⟩) [⟨9, .none⟩]) := by decide
/-- R18: with station 5 alone held out, article 2's change completes. -/
theorem test_shelf_done_last : (after (.shelfDoneReceived toAll [⟨2, 8⟩]) (shop none)).entry 2 =
    some { entryB with current := some ⟨1749, 0, 0⟩, version := 8, phase := .steady } := by decide
theorem test_shelf_pending : ((after (.shelfPendingReceived fromFive [⟨3, 10⟩]) (shop none)).entry 3).map (·.phase) =
    some (changing 10 (.set .multi ⟨110, 2, 200⟩) [⟨5, .pending⟩, ⟨9, .none⟩]) := by decide
/-- R16, R100: no label is bound, so the shelf is done, and ALL are told. -/
theorem test_shelf_query : (after (.shelfQueryReceived fromFive [⟨3, 10⟩]) (shop none)).trunk.notice =
    [⟨none, .shelfDone [⟨3, 10⟩], .shelfAnswer, 0⟩] := by decide
/-- R8: the only record of a releasing file ends the release, and the held serial rises to 312. -/
def releasing : State :=
  { shop none with
    book := { (shop none).book with cursor := some 0 }
    staging := { Staging.empty with owner := .trunk, phase := .releasing, serial := 312, count := some 1, check := some 0
                                    records := [(0, { change1 with fileSerial := 312 })] }
    link := { base.link with held := 311 } }
theorem test_release : (after .releaseRecord releasing).link.held = 312 ∧
    (after .releaseRecord releasing).book.cursor = none := by decide

/-! ### Office commands -/

theorem test_read_entry : (after (.readEntry head3 2) (shop none)).commands.places.get 14 =
    some ⟨40, 1, .done (.entry 2 entryB)⟩ := by decide
theorem test_bind : ((after (.bind { head3 with tag := 41 } 1280145 2) (shop none)).owned 1280145).map (fun o => (o.bound, o.target)) =
    some (some 2, .price 2 8) := by decide
theorem test_bind_refused : (after (.bind head3 1280145 4) (shop none)).commands.places.get 14 =
    some ⟨40, 3, .refused .notForSale⟩ := by decide
theorem test_unbind : ((after (.unbind head3 1280017) at7).owned 1280017).map (·.target) = some .unbound := by decide
/-- 5.9: label 1,280,017 lies in slot 17. -/
theorem test_read_label : (after (.readLabel head3 1280017) at7).commands.places.get 14 =
    some ⟨40, 5, .done (.ownedLabel 1280017 17 none label1)⟩ := by decide
/-- 10.6, 20:50:00: SET-MODE LATE against the schedule mode OPEN. -/
def evening : State :=
  { base with
    settings := { fitted with openTime := 420, lateTime := 1260, closeTime := 420 }
    unit := { base.unit with clock := some ⟨530, 75000⟩, clockTimer := some 7, mode := .open, schedule := some .open
                             highestDay := some 530
                             lines := (base.unit.lines.set 0 ⟨.mainsFail, false, false, 0⟩).set 1 ⟨.closeKey, true, false, 0⟩ } }
theorem test_set_mode : (after (.setMode head3 2) evening).unit.override = some (.late, some .open) := by decide
theorem test_set_time : (after (.setTime head3 ⟨530, 75599⟩) evening).unit.clock = some ⟨530, 75599⟩ := by decide
theorem test_run_session : (after (.runSession head3) base).link.kind = some .key := by decide
theorem test_read_alerts : (after (.readAlerts head3 2) base).commands.places.get 14 = some ⟨40, 9, .done (.alerts [] 1 0)⟩ := by
  decide
theorem test_ack_alert : (after (.ackAlert head3 0) base).alerts.list.map (·.acked) = [true] := by decide
/-- 11.4: three more copies of tag 40 are repeats. -/
theorem test_read_counts_repeat :
    (after (.readCounts head3 1) (after (.readCounts head3 1) base)).count .commandsRepeated = 1 := by decide
theorem test_restart : (after (.restart head3) base).commands.restarting = true := by decide
theorem test_bad_command : (after (.officeBadCommand head3 13) base).commands.places.get 14 = some ⟨40, 13, .badCommand⟩ := by
  decide

/-! ### Labels (5.9, 6.7) -/

/-- 6.7: the three smoothings at station 6, and the two at station 4. -/
theorem test_smooth : smooth none (-260) = -260 ∧ smooth (some (-260)) (-230) = -253 ∧ smooth (some (-253)) (-200) = -240 ∧
    smooth (some (-270)) (-270) = -270 ∧ smooth (some (-270)) (-290) = -275 := by decide
/-- 5.9: slot 16 ends at 07:00:01.125, and the label listed for slot 17 is sent version 905. -/
def inSlot16 : State :=
  { at7 with
    book := { at7.book with entries := [(1, { entryA with version := 905, bound := 1 })] }
    labels := { at7.labels with
      owned := [(1280017, { label1 with display := ⟨.price, some 1, 880⟩, state := .updateDue 0, target := .price 1 905 })]
      cycle := 5200, slot := 16, slotEnd := some 1125000, aligned := true } }
theorem test_slot : (after .slotEnd inSlot16).out =
    [.radio (.header 2 3 5200 17 16), .radio (.show 2 1280017 1 905 .each ⟨249, 0, 0⟩ 0)] := by decide
theorem test_slot_end : (after .slotEnd inSlot16).labels.slotEnd = some 1250000 := by decide
def inSlot17 : State := after .slotEnd inSlot16
/-- 5.9: an ACK of the version sent makes the label SHOWING, its power step staying at the floor. -/
theorem test_ack : ((after (.ackReceived (ackOf 1280017 905)) inSlot17).owned 1280017).map (fun o => (o.state, o.power)) =
    some (.showing, 0) := by decide
/-- 5.9: a label still SENT at its slot's end has attempts 1, power step 2 and the slot's end as due time. -/
theorem test_unanswered : ((after .slotEnd inSlot17).owned 1280017).map (fun o => (o.attempts, o.power, o.state)) =
    some (1, 2, .updateDue 1250000) := by decide
/-- 6.7, cycle 802: the label is HEARD with owner 4, and claimed at −260. -/
def hearing67 : State :=
  { base with labels := { base.labels with cycle := 802, aligned := true }
              trunk := { base.trunk with peers := base.trunk.peers.set 4 (peerOf true 0) } }
theorem test_presence : (after (.presenceReceived (presenceOf 3600042 (-260))) hearing67).trunk.notice =
    [⟨some 4, .labelClaim 3600042 3 2 (-260), .label, 0⟩] := by decide
/-- 6.7, cycle 818, at station 4 (here 3): −240 is at least −275 + 24. -/
def owned67 (level : Int) : State :=
  { at7 with labels := { at7.labels with owned := [(3600042, { label1 with hearing := { label1.hearing with smoothed := some level } })] } }
theorem test_claim_refused : (after (.labelClaimReceived fromFive 3600042 5 1 (-260)) (owned67 (-270))).trunk.notice =
    [⟨some 5, .labelRefuse 3600042 (some (-270)), .label, 0⟩] := by decide
theorem test_claim_taken : ((after (.labelClaimReceived fromFive 3600042 5 1 (-240)) (owned67 (-275))).owned 3600042).map (·.state) =
    some (.moving ⟨5, 1, -240, false⟩) := by decide
def heardOf (owner : Station) : Heard :=
  { hearing := { smoothed := some (-240), lastCycle := 818, owner := owner, ownerLevel := none, stamp := 1 }
    claimAge := some 16, claimed := true }
def hears (n : Nat) (owner : Station) : State := { (shop none) with labels := { base.labels with heard := [(n, heardOf owner)] } }
theorem test_refusal : ((after (.labelRefuseReceived fromFive 3600042 (some (-270))) (hears 3600042 5)).heard 3600042).map
    (fun h => (h.claimed, h.hearing.ownerLevel)) = some (false, some (-270)) := by decide
theorem test_claim_expiry : ((after (.claimExpiry 3600042) (hears 3600042 5)).heard 3600042).map (·.claimed) = some false := by
  decide
def handover67 : Handover := { label := 3600042, bound := some 1, display := ⟨.price, some 1, 1200⟩, battery := .good }
/-- 6.7: the label is taken in, current, and SHOWING. -/
theorem test_handover : ((after (.labelHandoverReceived fromFive handover67) (hears 3600042 5)).owned 3600042).map
    (fun o => (o.state, o.target, o.hearing.smoothed)) = some (.showing, .price 1 1200, some (-240)) := by decide
theorem test_adopted : (after (.labelAdoptedReceived toAll 1280017 5 ⟨.price, some 1, 1200⟩) at7).owned 1280017 = none := by
  decide
def adopting : State :=
  { base with labels := { base.labels with heard := [(7, heardOf 4)], adoptions := [⟨presenceOf 7 (-260), 802, 1, some 9⟩] } }
theorem test_adoption_lost : ((after .presenceWindowEnd adopting).heard 7).map (·.hearing.owner) = some 9 := by decide
/-- 5.9: a CYCLE-MARK of the reference restarts the cycle. -/
theorem test_cycle_mark : (after (.cycleMarkReceived toAll 77 64 none)
    { base with labels := { base.labels with reference := some 5, slot := 17 }
                trunk := { base.trunk with peers := base.trunk.peers.set 5 (peerOf true 0) } }).labels.slotEnd = some 500000 := by
  decide

/-! ### Trunk (7.10) -/

def doneFrame : Frame := ⟨none, .shelfDone [⟨1, 1310⟩], .shelfAnswer, 0⟩
def queueing (urgent notice : List Frame) : State :=
  { base with trunk := { base.trunk with urgent := urgent, notice := notice } }
/-- 7.10, gap 2: a SHELF-DONE of class NOTICE beats a RELAY of class BULK, whatever the stations. -/
theorem test_gap2 : (after (.trunkFrameBegin [⟨.bulk, 2⟩]) (queueing [] [doneFrame])).trunk.inAir = some .notice := by decide
/-- 7.10, gap 1: it gives way to a BEACON of class URGENT. -/
theorem test_gap1 : (after (.trunkFrameBegin [⟨.urgent, 9⟩, ⟨.bulk, 2⟩]) (queueing [] [doneFrame])).count .arbitrationLosses = 1 := by
  decide
def sendingDone : State := after (.trunkFrameBegin []) (queueing [] [doneFrame])
/-- 7.10, gap 2: spoiled, the frame stays at the front with attempt count 1. -/
theorem test_spoiled : (after (.trunkAttemptEnd true true) sendingDone).trunk.notice = [{ doneFrame with attempts := 1 }] := by
  decide
/-- 7.10, gap 4: taken and not spoiled, it is SENT. -/
theorem test_sent : (after (.trunkAttemptEnd true false) sendingDone).trunk.notice = [] := by decide
theorem test_beacon_timer : (after .beaconTimerExpiry { base with trunk := { base.trunk with beaconTimer := some 5 } }).trunk.urgent =
    [⟨none, .beacon { kind := .controller, part := some .running, mode := some .late, labelService := true, labelChannel := 2
                      offer := 0, heldSerial := 0 }, .beacon, 0⟩] := by decide
theorem test_beacon : ((after (.beaconReceived { toAll with src := 2 } beacon5) base).peer 2).state = .alive := by decide
/-- 11.4, 2.1 s: a beacon of this station's own number. -/
theorem test_clash : (after (.beaconReceived { toAll with src := 3 } beacon5) base).part = .listenOnly := by decide
theorem test_silent : ((after (.peerSilent 5) base).peer 5).state = .silent := by decide
theorem test_bad_check : (after .trunkFrameBadCheck base).out = [.spoiledSlot] := by decide
/-- 7.10, gap 5: a good frame addressed elsewhere restarts the silence timer, and neither slot is asserted. -/
theorem test_elsewhere : (after (.trunkFrameOtherDest { fromFive with dest := .station 2 } .other) base).out = [] := by decide
theorem test_office_reply : (after (.officeReplyReceived fromFive) base).count .notForPart = 1 := by decide
theorem test_malformed : (after (.malformedFrameReceived ⟨5, .station 3, .other⟩) base).out = [.takenSlot] := by decide

/-! ### Forwarding (8.6, 8.7) -/

def bytes (n : Nat) : List Byte := List.replicate n 0
def officeParcel (n : Nat) : Parcel :=
  { cls := .office, origin := 3, port := .session, tag := 1, guest := none, status := .data, payload := bytes n }
def guestParcel (n : Nat) : Parcel :=
  { cls := .guest, origin := 3, port := .guest, tag := 0, guest := some 77, status := .data, payload := bytes n }
/-- 8.6 in parcels of 10 and 15 bytes: the shares are 50 and 50, and the tallies are 20 and 15 when G2 is chosen. -/
def sharing (o g : Nat) : Forwarding :=
  { base.fwd with up := true, office := [officeParcel 10], guest := [guestParcel 15], officeTally := o, guestTally := g }
theorem test_shares : ((sharing 0 0).choose .late).map (·.1.cls) = some .office ∧
    ((sharing 10 0).choose .late).map (·.1.cls) = some .guest ∧ ((sharing 10 15).choose .late).map (·.1.cls) = some .office ∧
    ((sharing 20 15).choose .late).map (·.1.cls) = some .guest ∧ ((sharing 0 0).choose .distress).isNone = true := by decide
/-- 8.6: in OPEN a GUEST tally of 6,000 is short of 9,000 for an OFFICE tally of 1,000. -/
theorem test_shares_open : ((sharing 1000 6000).choose .open).map (·.1.cls) = some .guest ∧
    ((sharing 1000 9000).choose .open).map (·.1.cls) = some .office := by decide
/-- 8.6: a parcel of 1,000 bytes at 2,000 kbit/s takes 4.0 ms. -/
theorem test_send_time : sendTime 1000 2000 = 4000 ∧ sendTime 300 2000 = 1200 := by decide
def uplinked : State :=
  { base with fwd := { base.fwd with up := true, office := [officeParcel 10], sending := some (officeParcel 4, 7) } }
theorem test_send_end : (after .uplinkSendEnd uplinked).out = [.uplink (officeParcel 4)] := by decide
theorem test_carrier : (after (.uplinkCarrierChange true) base).fwd.up = true := by decide
theorem test_carrier_lost : (after (.uplinkCarrierChange false) uplinked).fwd.office = [] := by decide
/-- 8.7, 25.52 s: a parcel travelling back whose tag has no entry. -/
theorem test_no_entry : (after (.relayReceived fromFive { replyParcel with tag := 40 }) base).count .repliesNoEntry = 1 := by decide
/-- 8.7, 25.50 s, at the holder: the reply goes back in an URGENT RELAY. -/
theorem test_relay_back : (after (.uplinkParcelReceived { replyParcel with origin := 5 }) base).trunk.urgent =
    [⟨some 5, .relay { replyParcel with origin := 5 }, .relayBack, 0⟩] := by decide
def guest77 (level : Nat) : Guest := { address := 77, capped := false, bytesToday := 0, level := level, lastSeen := 0 }
def hosting (level : Nat) : State := { base with fwd := { base.fwd with guests := [guest77 level] } }
theorem test_guest_budget : (after (.guestFrameReceived 77 .uplink (bytes 15)) (hosting 14)).count .budgetDrops = 1 := by decide
theorem test_guest_isolation : (after (.guestFrameReceived 77 .guest (bytes 15)) (hosting 15)).count .isolationDrops = 1 := by
  decide
/-- R160: in LATE the refill is half of 2,000, and a capped guest's is 128. -/
theorem test_refill : (after .guestRefillTimer (hosting 10)).fwd.guests.map (·.level) = [1010] ∧
    (after .guestRefillTimer { base with fwd := { base.fwd with guests := [{ guest77 10 with capped := true }] } }).fwd.guests.map
      (·.level) = [138] := by decide

/-! ### Session (9.8) -/

def recordOf (n : Nat) (sent : Bool) : JournalRecord :=
  { serial := n, lane := 0, time := none, tender := .cash, due := 0, total := 0, reduction := 0, changeover := false
    lines := [], sent := sent }
/-- Station 5 of 9.8, here 3, in state `st` with tag 207, the share flag off, and an uplink that is SENDING. -/
def session (st : SessionState) : State :=
  { base with
    settings := { fitted with share := false }
    fwd := { uplinked.fwd with office := [], sessionPath := some .local }
    journal := { records := [recordOf 9001 true, recordOf 9002 true, recordOf 9003 true, recordOf 9004 false]
                 counter := .next 9005, outstanding := [⟨9001, 9002, 2⟩, ⟨9003, 9003, 1⟩], high := false }
    link := { base.link with
              state := st, kind := some .window, attemptCount := 1, attemptTag := 207, held := 311, cut := some 9003
              newest := some 312, window := [⟨1, 9001, 9002, true⟩, ⟨2, 9003, 9003, true⟩], replyTimer := some 30
              windowDay := some 530 }
    unit := { base.unit with clock := some ⟨530, 3606⟩ } }
/-- 9.8, 01:00:06: BATCH-TAKEN 1 removes its serials. -/
theorem test_batch_taken : (after (.batchTaken 207 1) (session .uploading)).journal.records.map (·.serial) = [9003, 9004] := by
  decide
/-- R176: BATCH-TAKEN 2 before 1 is out of order, and the session rests. -/
theorem test_batch_order : (after (.batchTaken 207 2) (session .uploading)).link.state = .resting := by decide
theorem test_stale : (after (.batchTaken 206 1) (session .uploading)).count .staleMessages = 1 := by decide
/-- 9.8, 01:00:02: ACCEPT with a store time, at a station with no reference. -/
theorem test_accept : (after (.accept 207 ⟨530, 3602⟩ 312) (session .opening)).unit.clock = some ⟨530, 3602⟩ := by decide
theorem test_defer : (after (.defer 207) (session .opening)).link.state = .resting := by decide
theorem test_refuse : (after (.refuse 207 4) (session .opening)).link.state = .done := by decide
/-- R183: ten minutes after the failure. -/
theorem test_reply_timeout : (after .sessionReplyTimeout (session .opening)).link.restTimer = some 600000030 := by rfl
def awaiting : State := { session .downloading with staging := { Staging.empty with owner := .session, serial := 312 } }
theorem test_file_start : (after (.fileStart 207 312 1 2897681239) awaiting).staging.count = some 1 := by decide
def record312 : ChangeRecord := { change1 with fileSerial := 312 }
def collecting : State := { awaiting with staging := { awaiting.staging with count := some 1, check := some 2897681239 } }
theorem test_file_part : (after (.filePart 207 312 0 [record312]) collecting).staging.records = [(0, record312)] := by decide
/-- The check was computed from R212, outside the model, over the record's 33 bytes of 12.4. -/
theorem test_file_end : (after (.fileEnd 207 312) { collecting with staging := { collecting.staging with
    records := [(0, record312)] } }).book.cursor = some 0 := by decide +kernel
/-- `collecting` for the second time, with FILE-WANTED still WAITING and the first FILE-BAD behind it. -/
def collectingAgain : State :=
  { collecting with link := { collecting.link with
      resendUsed := true, waiting := true, toSend := [.fileWanted 312, .fileBad 312 70 false] } }
/-- 9.8, 01:00:10, and R172, R180: the second FILE-BAD stands behind the first. -/
theorem test_file_bad : (after (.fileEnd 207 312) collecting).link.resendUsed = true ∧
    (after (.fileEnd 207 312) collectingAgain).link.toSend =
      [.fileWanted 312, .fileBad 312 70 false, .fileBad 312 0 true] := by decide
theorem test_no_resend : (after (.noResend 207 312) { awaiting with link := { awaiting.link with resendUsed := true } }).staging =
    Staging.empty := by decide
/-- 9.8, 01:00:00: the window opens and the attempt of tag 207 starts. -/
def beforeOne : State :=
  { session .done with
    link := { (session .done).link with windowDay := some 529, attemptCount := 2, attemptTag := 206, replyTimer := none }
    unit := { base.unit with clock := some ⟨530, 3600⟩ } }
theorem test_window : (after .sessionSecondTimer beforeOne).link.attemptTag = 207 ∧
    (after .sessionSecondTimer beforeOne).link.attemptCount = 1 := by decide
theorem test_rest_timer : (after .restTimerExpiry { session .resting with link :=
    { (session .resting).link with restTimer := some 600 } }).link.attemptTag = 208 := by decide
def announced : State := after (.fileAnnounceReceived toAll 312 1 2897681239) base
theorem test_announce : announced.staging.source = some 5 := by decide
theorem test_file_frame : (after (.filePriceChangeReceived toAll 312 0 [record312]) announced).staging.records = [(0, record312)] := by
  decide
theorem test_file_close : (after (.fileCloseReceived toAll 312 1 2897681239) announced).count .trunkFilesFailed = 1 := by decide
theorem test_collection_quiet : (after .trunkCollectionTimeout announced).now = 60000000 := by rfl

/-! ### Mode and event unit (10.6) -/

/-- 10.6, 21:00:00: the override recorded against OPEN ends at the boundary, and the mode is LATE from the schedule. -/
def at2059 : State :=
  { evening with unit := { evening.unit with clock := some ⟨530, 75599⟩, mode := .late, override := some (.late, some .open) } }
theorem test_boundary : (after .clockTimerExpiry at2059).unit.override = none ∧ (after .clockTimerExpiry at2059).unit.mode = .late := by
  decide
/-- 10.6, 23:10:00.0: line 0, active LOW, goes low. -/
theorem test_line : (after (.eventLineChange 0 false) evening).unit.mains = .rising 2000000 := by rfl
/-- 10.6, 23:10:01.2: it goes high again, and the not qualified count is 1. -/
theorem test_glitch : (after (.eventLineChange 0 true) (after (.eventLineChange 0 false) evening)).count .mainsNotQualified = 1 := by
  decide
/-- 10.6, 23:15:02.0. -/
theorem test_distress : (after .mainsRiseTimeout (after (.eventLineChange 0 false) evening)).unit.mode = .distress := by decide
/-- 10.6, 23:40:30: the close key prevails when the fall timer runs out. -/
theorem test_fall : (after .mainsFallTimeout { evening with unit := { evening.unit with
    mode := .distress, mains := .falling 30, lines := evening.unit.lines.set 1 ⟨.closeKey, true, true, 1⟩ } }).unit.mode = .closed := by
  decide

/-! ### Start-up (11.4) -/

/-- 11.4's profile image: station 6, 20 lanes, share "not given", margin 2 dB, cash step 3. Its CRC-32 was computed
from R212, outside the model. -/
def image114 : List Byte :=
  [79, 78, 80, 70, 1, 191, 6, 20, 1, 2, 1, 0, 0, 7, 208, 1, 0, 0, 0, 7, 208, 12, 128, 0, 0, 0, 0, 60, 4, 1, 164, 4, 236,
   1, 164, 6, 2, 3, 48, 0, 1, 0, 2, 1, 0, 1, 0, 1, 37, 107, 123, 229]
theorem test_image : imageOk image114 = true := by decide +kernel
theorem test_clamped :
    let c := readProfile image114
    c.2 = 3 ∧ c.1.laneCount = 16 ∧ c.1.claimMargin = 3 ∧ c.1.cashStep = 1 ∧ c.1.share = true ∧ c.1.station = 6 := by decide
theorem test_profile_missing : (after (.profileLoad none) State.reset).part = .halted := by decide
theorem test_listening_end : (after .listeningTimerExpiry { base with part := .listening, listenTimer := some 3000000 }).part =
    .running := by decide
theorem test_power_on : (after .powerOn { base with powered := false }).alerts = AlertList.initial .powerOn := by decide
theorem test_reset_held : (after .resetLineAsserted base).live = false := by decide
theorem test_reset_released : (after .resetLineReleased { base with resetHeld := true }).cause = .resetLine := by decide
/-- R74: the journal's records outlive the power. -/
theorem test_power_loss : (after .powerLoss (session .uploading)).journal.records.length = 4 := by decide

/-! ### Witnesses: concrete states and operands that meet the hypotheses of each statement

Each names its statement, and its parts follow the statement's clauses in order. A clause whose hypotheses are another
clause's with one field changed is met at that field's boundary value. -/

/-- Hearing a frame of another station (R131), for states of the test station 3. -/
theorem hears_of {s : State} {n : Station} (h1 : s.live = true) (h2 : s.serving = true) (h3 : n ≠ s.settings.station) :
    s.Hears n := ⟨h1, h2, h3⟩

/-- An OFFICE command of station 14 at a state whose place 14 is empty. -/
theorem obeys_of {s : State} (h : s.Hears 14) (h1 : s.settings.station = 3) (h2 : s.commands.restarting = false)
    (h3 : s.commands.places.get 14 = none) : s.Obeys head3 :=
  ⟨h, by rw [h1]; rfl, h2, fun r hr => by
    have : s.commands.places.get 14 = some r := hr
    simp [h3] at this⟩

theorem base_hears : base.Hears 5 := hears_of rfl rfl (by decide)
theorem shop_hears (b : Option Basket) : (shop b).Hears 5 := hears_of rfl rfl (by show (5 : Station) ≠ 3; decide)
theorem at7_hears : at7.Hears 5 := hears_of rfl rfl (by decide)
theorem base_obeys : base.Obeys head3 := obeys_of (hears_of rfl rfl (by decide)) rfl rfl rfl
theorem shop_obeys (b : Option Basket) : (shop b).Obeys head3 :=
  obeys_of (hears_of rfl rfl (by show (14 : Station) ≠ 3; decide)) rfl rfl rfl
theorem at7_obeys : at7.Obeys head3 := obeys_of (hears_of rfl rfl (by decide)) rfl rfl rfl

theorem takesNew_of {s : State} {l : LaneNo} {bit : Bool} {k : RequestKind} (h : s.Serves l) (h1 : (s.lane l).restart = false)
    (h2 : (s.lane l).last = none) (h3 : (s.lane l).flight = none) : s.TakesNew l bit k :=
  ⟨h, h1, fun r => by rw [h2]; simp, h3⟩

theorem up_serves {s : State} {l : LaneNo} (h : s.live = true) (h1 : s.serving = true) (h2 : (s.lane l).state = .up) :
    s.Serves l := ⟨h, h1, by rw [h2]; simp⟩

theorem shop_takesNew (b : Option Basket) (bit : Bool) (k : RequestKind) : (shop b).TakesNew 4 bit k :=
  takesNew_of (up_serves rfl rfl rfl) rfl rfl rfl

theorem get_replicate {α : Type} (v : α) (n k m : Nat) (h : k ≠ m) : AMap.get (List.replicate n (k, v)) m = none := by
  induction n with
  | zero => rfl
  | succ n ih => simp [List.replicate_succ, AMap.get, h, ih]

/-! #### The queue and the lanes -/

theorem witness_StepRunsFrontCommand :
    { base with pending := [.laneTimeout 4] }.pending = .laneTimeout 4 :: [] ∧ base.pending = [] := ⟨rfl, rfl⟩

theorem witness_LaneCommandsLeaveOtherLanes :
    laneOf (.total 15 true) = some 15 ∧ (0 : LaneNo) ≠ 15 ∧ exec (.total 15 true) base = .next (after (.total 15 true) base) :=
  ⟨rfl, by decide, rfl⟩

def withLane15 (st : LaneState) : State := base.withLane 15 fun x => { x with state := st, timer := some 9 }
theorem witness_LanesOutsideServiceAndSilence :
    (laneRequest (.total 15 true) = some (15, true, .total) ∧ State.reset.live = true ∧ State.reset.part = .starting) ∧
    ({ base with part := .halted }.live = true ∧ { base with part := PartState.halted }.part = .halted) ∧
    ((withLane15 .disabled).serving = true ∧ ((withLane15 .disabled).lane 15).state = .disabled) ∧
    (base.live = true ∧ base.part ≠ .starting ∧ (base.lane 15).state ≠ .disabled) ∧
    ((bytes 0).length = 0 ∧ 512 < (bytes 513).length) ∧
    ((withLane15 .up).live = true ∧ ((withLane15 .up).lane 15).timer = some 9) := by
  refine ⟨?_, ?_, ?_, ?_, ?_, ?_⟩
  all_goals first | (simp [bytes, -List.reduceReplicate]; done) | decide

theorem authing_serves : authing.Serves 4 := up_serves rfl rfl rfl
theorem witness_RequestsAnsweredWithoutEffect :
    (laneRequest (.total 4 false) = some (4, false, .total) ∧ (State.Serves { base with lanes := State.reset.lanes } 4) ∧
      (State.reset.lane 4).restart = true) ∧
    (laneRequest (.total 4 true) = some (4, true, .total) ∧ authing.Serves 4 ∧ (authing.lane 4).restart = false ∧
      (authing.lane 4).last = some (true, .total, .totalOk 2486 40 true)) ∧
    (laneRequest (.auth 4 false [1]) = some (4, false, .auth) ∧ (authing.lane 4).flight = some ⟨12, false, 20000000⟩ ∧
      ∀ r, (authing.lane 4).last ≠ some (false, .auth, r)) := by
  refine ⟨⟨rfl, ⟨rfl, rfl, by decide⟩, rfl⟩, ⟨rfl, authing_serves, rfl, rfl⟩, rfl, rfl, fun r h => ?_⟩
  have : (some (true, .total, .totalOk 2486 40 true) : Option (Bool × RequestKind × LaneReply)) = some (false, .auth, r) := h
  simp at this

theorem witness_BasketsOpenAndEnd :
    (shop none).TakesNew 4 true .openBasket ∧ ((shop none).lane 4).basket = none ∧
    (shop (some sale)).TakesNew 4 true .openBasket ∧ ((shop (some sale)).lane 4).basket = some sale ∧
    (shop none).TakesNew 4 true .cancel ∧ (shop (some sale)).TakesNew 4 true .cancel ∧
    ((shop (some sale)).lane 4).basket ≠ none ∧ (shop (some sale)).live = true :=
  ⟨shop_takesNew _ _ _, rfl, shop_takesNew _ _ _, rfl, shop_takesNew _ _ _, shop_takesNew _ _ _,
   by show some sale ≠ none; simp, rfl⟩

def line1 : Line := ⟨1, .each, 1, 0, 249, false, 1200, none⟩
def longSale (lines terms : Nat) : Basket := { sale with lines := List.replicate lines line1, terms := List.replicate terms termsA }
def fullJournal : State :=
  { shop (some totalled) with journal := { base.journal with records := List.replicate 16384 (recordOf 1 false) } }
theorem witness_ItemAndCloseTestsInOrder :
    (∀ b, (shop b).TakesNew 4 true .item ∧ ((shop b).lane 4).basket = b) ∧
    250 ≤ (longSale 250 1).lines.length ∧ (longSale 249 1).lines.length < 250 ∧
    ((∀ t ∈ sale.terms, t.article ≠ 6) ∧ (shop none).entry 6 = none) ∧ (∀ t ∈ sale.terms, t.article ≠ 0) ∧
    ((∀ t ∈ sale.terms, t.article ≠ 4) ∧ (shop none).entry 4 = some entryD ∧ entryD.current = none) ∧
    ((∀ t ∈ (longSale 0 100).terms, t.article ≠ 2) ∧ (shop none).entry 2 = some entryB ∧ entryB.current ≠ none ∧
      100 ≤ (longSale 0 100).terms.length) ∧
    ((shop none).itemTerms sale 1 = .inr (termsA, false) ∧ quantityOk .each 1000 0 = false ∧ quantityOk .each 999 91 = false ∧
      quantityOk .each 999 90 = true) ∧
    ({ sale with running := 99999750 }.running + lineAmount termsA 1 0 = 99999999 ∧ 99999999 < 99999751 + lineAmount termsA 1 0) ∧
    (∀ b, (shop b).TakesNew 4 true .close) ∧ sale.result = none ∧ totalled.result ≠ none ∧
    (∀ y ∈ ({ totalled with lines := [{ line1 with void := true }] } : Basket).lines, y.void = true) ∧
    (∃ y ∈ totalled.lines, y.void = false) ∧
    (fullJournal.TakesNew 4 true .close ∧ 16384 ≤ fullJournal.journal.records.length) := by
  refine ⟨fun b => ⟨shop_takesNew _ _ _, rfl⟩, ?_, ?_, ?_, ?_, ?_, ?_, ?_, ?_, fun b => shop_takesNew _ _ _, rfl, ?_, ?_, ?_,
    takesNew_of (up_serves rfl rfl rfl) rfl rfl rfl, ?_⟩
  all_goals first | (simp [longSale, termsA, fullJournal, -List.reduceReplicate]; done) | decide

theorem witness_ItemAppendsOneLine :
    (shop (some sale)).TakesNew 4 true .item ∧ ((shop (some sale)).lane 4).basket = some sale ∧ sale.lines.length < 250 ∧
    sale.terms.find? (fun t => t.article == 1) = some termsA ∧
    ((∀ t ∈ (longSale 249 99).terms, t.article ≠ 2) ∧ (longSale 249 99).terms.length < 100 ∧ (shop none).entry 2 = some entryB ∧
      entryB.current = some ⟨1899, 0, 0⟩ ∧
      termsB = { article := 2, kind := entryB.kind, current := ⟨1899, 0, 0⟩, version := entryB.version
                 pending := entryB.pendingTerms }) ∧
    quantityOk termsB.kind 99999 90 = true ∧ lineAmount termsB 99999 90 ≤ 9999999 ∧
      sale.running + lineAmount termsB 99999 90 ≤ 99999999 := by
  refine ⟨shop_takesNew _ _ _, rfl, by decide, by decide, ⟨?_, by simp [longSale, -List.reduceReplicate], rfl, rfl, rfl⟩, by decide, by decide, by decide⟩
  simp [longSale, termsA, -List.reduceReplicate]

theorem witness_VoidAndTotal :
    (∀ b k, (shop b).TakesNew 4 true k ∧ ((shop b).lane 4).basket = b) ∧
    sale.lines.length < 6 ∧ (∃ x, sale.lines[5 - 1]? = some x ∧ x.void = false) ∧
    ∃ x, ([{ line1 with void := true }] : List Line)[1 - 1]? = some x ∧ x.void = true := by
  refine ⟨fun b k => ⟨shop_takesNew _ _ _, rfl⟩, by decide, ⟨_, rfl, rfl⟩, ⟨_, rfl, rfl⟩⟩

def watermark (n : Nat) : State := { shop (some totalled) with settings := { fitted with highWatermark := n } }
theorem watermark_takesNew (n : Nat) : (watermark n).TakesNew 4 true .close :=
  takesNew_of (up_serves rfl rfl rfl) rfl rfl rfl
theorem witness_CloseAppendsJournalRecord :
    (∀ n, (watermark n).TakesNew 4 true .close ∧ ((watermark n).lane 4).basket = some totalled ∧
      (watermark n).journal.counter = .next 1 ∧ (watermark n).journal.records.length < 16384) ∧
    (∃ y ∈ totalled.lines, y.void = false) ∧ totalled.result = some ⟨2486, 40, true⟩ ∧
    (watermark 2).journal.records.length + 1 ≠ (watermark 2).settings.highWatermark ∧
    (watermark 1).journal.records.length + 1 = (watermark 1).settings.highWatermark ∧
    { watermark 1 with part := PartState.listening }.part = .listening := by
  refine ⟨fun n => ⟨watermark_takesNew n, rfl, rfl, by show 0 < 16384; decide⟩, by decide, rfl, by decide, by decide, rfl⟩

/-- R68, R69: the record that reaches the watermark is appended, and the counter moves on. -/
theorem test_crossing_appends :
    let t := after (.close 4 true .cash) { watermark 1 with part := .listening }
    t.journal.records.map (·.serial) = [1] ∧ t.journal.counter = .next 2 ∧ t.journal.high = true ∧ t.link.earlyPending = true := by
  decide +kernel

theorem witness_LookupReadsTheBook : (shop none).TakesNew 4 true .lookup ∧ (shop none).entry 6 = none ∧
    (shop none).entry 2 = some entryB := ⟨shop_takesNew _ _ _, rfl, rfl⟩

/-- The store with its uplink or its holder, its TILL queue of `n` bytes, and `k` frames in URGENT. -/
def routing (up : Bool) (holder : Option Station) (sending : Option (Parcel × Nat)) (n k : Nat) : State :=
  { shop none with
    trunk := { base.trunk with urgent := List.replicate k doneFrame }
    fwd := { base.fwd with up := up, holder := holder, sending := sending
                           till := if n = 0 then [] else [{ replyParcel with payload := bytes n }] } }
theorem routing_takesNew (u : Bool) (h : Option Station) (p : Option (Parcel × Nat)) (n k : Nat) :
    (routing u h p n k).TakesNew 4 true .auth :=
  takesNew_of (up_serves rfl rfl rfl) rfl rfl rfl
theorem witness_AuthIsHandedOn :
    (∀ u h p n k, (routing u h p n k).TakesNew 4 true .auth) ∧ (1 ≤ (bytes 1).length ∧ (bytes 512).length ≤ 512) ∧
    (let s := routing true none (some (replyParcel, 5)) 15872 0
     s.fwd.up = true ∧ (s.fwd.till.map (·.payload.length)).sum + (bytes 512).length ≤ 16384 ∧ s.fwd.sending ≠ none ∧
       16384 < (s.fwd.till.map (·.payload.length)).sum + 513) ∧
    (let s := routing true none none 0 0
     s.fwd.up = true ∧ s.fwd.till = [] ∧ s.fwd.sending = none) ∧
    (let s := routing false (some 7) none 0 7
     s.fwd.up = false ∧ s.fwd.holder = some 7 ∧ s.canSend = true ∧ s.trunk.urgent.length < 8) ∧
    8 ≤ (routing false (some 7) none 0 8).trunk.urgent.length ∧ (routing false none none 0 0).fwd.holder = none := by
  refine ⟨fun _ _ _ _ _ => routing_takesNew _ _ _ _ _, ?_, ?_, ?_, ?_, ?_, ?_⟩
  all_goals first | (simp [routing, bytes, State.canSend, -List.reduceReplicate]; done) | decide

theorem witness_AuthFlightsEnd :
    (authing.live = true ∧ (authing.lane 4).flight = some ⟨12, false, 20000000⟩ ∧
      AMap.get authing.fwd.pendingTable 4 = some ⟨12, .local true⟩) ∧
    (authing.serving = true ∧ replyParcel.cls = .till ∧ replyParcel.port = .lane 4 ∧ replyParcel.guest = none ∧
      replyParcel.origin = authing.settings.station ∧ replyParcel.payload.length ≤ 512 ∧ 1 ≤ replyParcel.payload.length) ∧
    (AMap.get (shop none).fwd.pendingTable 4 = none) ∧
    ((shop none).lane 4).flight = none ∧
    (authing.Hears 5 ∧ authing.part ≠ .listenOnly ∧
      AMap.get (authing.heardFrom 5 id).fwd.pendingTable 4 = some ⟨12, .local true⟩) := by
  refine ⟨?_, ?_, rfl, rfl, hears_of rfl rfl (by decide), by decide, rfl⟩ <;> decide

/-! #### Pricing and the price book -/

theorem witness_LineAndCashAmounts :
    ((90 : Nat) ≤ 90 ∧ (0 : Nat) ≤ 1) ∧ termsB.pending = some (⟨1749, 0, 0⟩, 8) ∧ ((99999999 : Nat) ≤ 99999999) := by decide

theorem witness_DealsNeverExceedRunningTotal : sale.Ok ∧ termsC ∈ sale.terms ∧ termsC.kind = .multi ∧
    termsC.pending = some (⟨110, 2, 200⟩, 10) :=
  ⟨⟨by decide, by decide, by decide, by decide, by decide⟩, by decide, rfl, rfl⟩

def setOne (v : Nat) (k : ArticleKind) : Change := ⟨v, .set k ⟨229, 0, 0⟩, ⟨412, 25200⟩, 0⟩
def fullBook (noted : Bool) : State :=
  { base with book := { base.book with entries := List.replicate 65536 (2, entryB), fullNoted := noted } }
theorem witness_ChangeRecordsAreCheckedAndApplied :
    recordChange change1 = some (setOne 1310 .each) ∧
    recordChange { change1 with changeCode := 2 } = some ⟨1310, .withdraw, ⟨412, 25200⟩, 0⟩ ∧
    base.entry 1 = none ∧ base.book.entries.length < 65536 ∧
    (∀ n, (fullBook n).entry 1 = none ∧ 65536 ≤ (fullBook n).book.entries.length ∧ (fullBook n).book.fullNoted = n) ∧
    ((shop none).entry 1 = some entryA ∧ entryA.phase = .steady ∧ entryA.highest < 1310) ∧
    ((setOne 1310 .each).action = .set .each ⟨229, 0, 0⟩ ∧ ArticleKind.each ≠ entryB.kind ∧ entryB.current ≠ none) ∧
    (at7.entry 1 = some waiting18 ∧ waiting18.highest = 1310) ∧
    ((shop none).entry 5 = some entryE ∧ entryE.withdrawing = true) := by
  refine ⟨by decide, by decide, rfl, by decide, fun n => ⟨?_, ?_, rfl⟩, ⟨rfl, rfl, by decide⟩, ⟨rfl, by decide, by decide⟩,
    ⟨rfl, by decide⟩, rfl, rfl⟩
  · exact get_replicate entryB 65536 2 1 (by decide)
  · simp [fullBook, -List.reduceReplicate]

theorem witness_RecordsReachTheBook :
    (base.Hears 5 ∧ toAll.dest = .all ∧ 1 ≤ [change1].length ∧ (List.replicate 32 change1).length ≤ 32 ∧
      ∀ r ∈ List.replicate 32 change1, r.changeCode = 2 ∨ (r.changeCode = 1 ∧ 1 ≤ r.kindCode ∧ r.kindCode ≤ 3)) ∧
    (releasing.live = true ∧ releasing.book.cursor = some 0 ∧ (AMap.get releasing.staging.records 0).isSome = true ∧
      releasing.staging.count.getD 0 ≤ 0 + 1 ∧ releasing.staging.share = none) ∧
    (let s : State := { releasing with staging := { releasing.staging with count := some 2, share := some 0 } }
     0 + 1 < s.staging.count.getD 0 ∧ s.staging.share ≠ none) := by
  refine ⟨⟨base_hears, rfl, by decide, by decide, by simp [change1]⟩, ?_, ?_⟩ <;> decide

def inListening : State := { at7 with part := .listening, listenTimer := some 3000000 }
theorem witness_SecondTimerExaminesTheBook :
    (inListening.live = true ∧ inListening.working = false) ∧
    (at7.live = true ∧ at7.working = true ∧ AMap.wf at7.book.entries = true) ∧
    (AMap.wf (shop none).book.entries = true ∧ (shop none).entry 1 = some entryA ∧ entryA.phase = .steady ∧
      (shop none).entry 4 = some entryD ∧ entryD.current = none ∧ (shop none).entry 3 = some entryC ∧
      (shop none).unit.clock = none) ∧
    (at7.entry 1 = some waiting18 ∧ at7.unit.clock = some ⟨412, 25200⟩) := by decide

theorem witness_ChangeoversStartAndAreForced :
    (at7.entry 1 = some waiting18 ∧ waiting18.phase = .waiting ⟨1310, .set .each ⟨229, 0, 0⟩, ⟨412, 25200⟩, 9⟩ ∧
      waiting18.current ≠ none ∧ at7.hasCome ⟨412, 25200⟩ = true ∧ AMap.wf at7.labels.owned = true ∧ at7.newHoldout ≠ [] ∧
      at7.shelfDone 1 1310 = false ∧ at7.owned 1280017 = some label1 ∧ label1.bound = some 1) ∧
    (held12.live = true ∧ held12.working = true ∧
      (held12.entry 1).map (·.phase) = some (.changing (course (some ⟨1315, .set .each ⟨219, 0, 0⟩, ⟨0, 0⟩, 0⟩) [12] 21600)) ∧
      held12.deadlineReached (course none [12] 21600) = true) ∧
    ({ held12 with unit := { held12.unit with clock := some ⟨412, 46799⟩ } }.deadlineReached (course none [12] 21600) = false) := by
  decide

theorem witness_ShelfReportsAreTaken :
    (∀ b, (shop b).Hears 5) ∧ toAll.dest = .all ∧ fromFive.dest = .station (shop none).settings.station ∧
    AMap.wf (shop none).book.entries = true ∧ (shop none).entry 3 = some entryC ∧ (shop none).entry 2 = some entryB ∧
    entryB.phase = changing 8 (.set .weighed ⟨1749, 0, 0⟩) [⟨5, .none⟩] ∧
    entryC.phase = changing 10 (.set .multi ⟨110, 2, 200⟩) [⟨5, .none⟩, ⟨9, .none⟩] ∧
    (shop none).canSend = true ∧ (shop none).trunk.notice.length < 64 ∧ (shop none).shelfDone 3 10 = true ∧
    at7.shelfDone 1 1310 = false ∧ (shop none).entry 6 = none ∧ (shop none).entry 1 = some entryA ∧ entryA.phase = .steady ∧
    (shop none).entry 4 = some entryD ∧ ∀ c, entryD.phase ≠ .changing c :=
  ⟨shop_hears, by decide, by decide, by decide, rfl, rfl, rfl, rfl, by decide, by decide, by decide, by decide, rfl, rfl, rfl,
    rfl, by simp [entryD]⟩

/-! #### Shelf labels -/

def ownedIn (o : Owned) : State := { at7 with labels := { at7.labels with owned := [(1280017, o)] } }
def lateSlot (n : Nat) : State := { inSlot16 with labels := { inSlot16.labels with slot := n } }
def idleSlot (n : Nat) : State := { at7 with labels := { at7.labels with slot := n, slotEnd := some 5 } }
/-- Slot 17 with `n` of its labels listed, due at 0 and in the order of their addresses. -/
def listedLabel : Owned := { label1 with display := ⟨.price, some 1, 880⟩, state := .updateDue 0, target := .price 1 905 }
def turning (n : Nat) : State :=
  { inSlot16 with labels := { inSlot16.labels with slot := 17, owned := (List.range n).map fun i => (17 + 128 * i, listedLabel) } }
/-- R80, R88: the first four of five listed labels take the turns, and the fifth waits. -/
theorem test_four_turns : (turning 5).beginSlot.labels.owned.map (fun x => x.2.state) =
    [.sent 0, .sent 0, .sent 0, .sent 0, .updateDue 0] := by decide
theorem witness_SlotsAndTheirTurns :
    (inSlot16.live = true ∧ inSlot16.serving = true ∧ inSlot16.labels.slotEnd = some 1125000 ∧ inSlot16.labels.slot < 127) ∧
    ((lateSlot 127).labels.slotEnd = some 1125000 ∧ 127 ≤ (lateSlot 127).labels.slot) ∧
    ((idleSlot 126).labels.slotEnd = some 5 ∧ (idleSlot 126).mayFill = false ∧ (idleSlot 126).inTurn = [] ∧
      (idleSlot 126).labels.slot < 127) ∧
    inSlot16.mayFill = true ∧
    ((turning 5).mayFill = true ∧ AMap.wf (turning 5).labels.owned = true ∧ (turning 5).owned 401 = some listedLabel ∧
      (turning 5).owned 529 = some listedLabel ∧ 401 % 128 = (turning 5).labels.slot ∧ listedLabel.state = .updateDue 0 ∧
      listedLabel.target = .price 1 905 ∧ (turning 5).displayTerms 1 905 = some (.each, ⟨249, 0, 0⟩)) ∧
    (∀ n o, (turning 5).owned n = some o → (∀ m, o.state ≠ .moving m) ∧
      ∀ due a v, o.state = .updateDue due → o.target = .price a v → (turning 5).displayTerms a v ≠ none) := by
  refine ⟨by decide, by decide, by decide, by decide, by decide, fun n o h => ?_⟩
  have h' : AMap.get ((List.range 5).map fun i => (17 + 128 * i, listedLabel)) n = some o := h
  obtain ⟨i, -, hi⟩ := List.mem_map.1 (AMap.mem_of_get h')
  obtain ⟨-, rfl⟩ := Prod.mk.inj hi
  refine ⟨fun m hm => ?_, fun due a v _ ht => ?_⟩
  · exact absurd hm (by simp [listedLabel])
  · obtain ⟨rfl, rfl⟩ := Target.price.inj ht
    show some (ArticleKind.each, (⟨249, 0, 0⟩ : Terms)) ≠ none
    simp

theorem witness_TurnsClimbTheRetryLadder :
    (inSlot16.owned 1280017 = some { label1 with display := ⟨.price, some 1, 880⟩, state := .updateDue 0, target := .price 1 905 } ∧
      inSlot16.displayTerms 1 905 = some (.each, ⟨249, 0, 0⟩)) ∧
    (∀ t, (ownedIn { label1 with state := .updateDue 0, target := t }).owned 1280017 =
      some { label1 with state := .updateDue 0, target := t }) ∧
    (∀ n, (ownedIn { label1 with state := .sent 0, bound := none, attempts := n }).owned 1280017 =
      some { label1 with state := .sent 0, bound := none, attempts := n }) ∧ (4 : Nat) < 5 :=
  ⟨by decide, fun _ => rfl, fun _ => rfl, by decide⟩

def sentLabel : Owned := { label1 with bound := none, state := .sent 7, lastSent := some ⟨.blank, none, 0⟩, target := .unbound, attempts := 4 }
theorem witness_AckIsTaken :
    (∀ o, (ownedIn o).live = true ∧ (ownedIn o).serving = true ∧ (ownedIn o).settings.labelService = true ∧
      (ownedIn o).labels.adoptions = [] ∧ (ownedIn o).owned 1280017 = some o) ∧
    ((ackOf 1280018 0).common = false ∧ (ownedIn sentLabel).owned 1280018 = none) ∧
    (sentLabel.state = .sent 7 ∧ sentLabel.lastSent = some ⟨.blank, none, 0⟩ ∧ sentLabel.bound = none ∧
      (ackOf 1280017 0).battery = sentLabel.battery ∧ sentLabel.attempts < 5) ∧
    (∀ d, sentLabel.lastSent = some d → d.version ≠ (ackOf 1280017 1).version) ∧
    ({ ackOf 7 905 with common := true }.common = true ∧ adopting.owned 7 = none ∧
      adopting.labels.adoptions ≠ []) := by
  refine ⟨fun o => ⟨rfl, rfl, rfl, rfl, rfl⟩, ⟨rfl, rfl⟩, by decide, fun d h => ?_, rfl, rfl, by simp [adopting]⟩
  have : (⟨.blank, none, 0⟩ : Display) = d := by simpa [sentLabel] using h
  subst this
  decide

def unservedBase : State := { base with settings := { fitted with labelService := false } }
def fullTable : State := { at7 with labels := { at7.labels with owned := List.replicate 2048 (1280017, label1) } }
theorem witness_LabelsAreBoundAndUnbound :
    (at7.Obeys head3 ∧ at7.settings.labelService = true ∧ at7.entry 1 = some waiting18 ∧ waiting18.current ≠ none ∧
      at7.heard 1280145 = none ∧ at7.owned 1280145 = none ∧ at7.labels.owned.length + at7.labels.heard.length < 2048) ∧
    ((ownedIn sentLabel).Obeys head3 ∧ (ownedIn sentLabel).owned 1280017 = some sentLabel ∧ sentLabel.bound = none ∧
      ∀ m, sentLabel.state ≠ .moving m) ∧
    (at7.owned 1280017 = some label1 ∧ (∀ m, label1.state ≠ .moving m) ∧ label1.bound = some 1 ∧
      ∀ c, waiting18.phase ≠ .changing c) ∧
    (unservedBase.Obeys head3 ∧ unservedBase.settings.labelService = false) ∧
    (at7.entry 2 = none ∧ (shop none).entry 4 = some entryD ∧ entryD.current = none) ∧
    ((hears 7 5).Obeys head3 ∧ (hears 7 5).heard 7 = some (heardOf 5) ∧ (hears 7 5).entry 1 = some entryA) ∧
    (ownedIn { label1 with state := .moving ⟨5, 1, -240, false⟩ }).owned 1280017 =
      some { label1 with state := .moving ⟨5, 1, -240, false⟩ } ∧
    (fullTable.labels.heard = [] ∧ fullTable.owned 5 = none ∧ 2048 ≤ fullTable.labels.owned.length) := by
  refine ⟨⟨at7_obeys, rfl, rfl, by decide, rfl, rfl, by decide⟩,
    ⟨obeys_of (hears_of rfl rfl (by decide)) rfl rfl rfl, rfl, rfl, by simp [sentLabel]⟩,
    ⟨rfl, by simp [label1], rfl, by simp [waiting18]⟩, ⟨obeys_of (hears_of rfl rfl (by decide)) rfl rfl rfl, rfl⟩,
    ⟨rfl, rfl, rfl⟩, ⟨obeys_of (hears_of rfl rfl (by decide)) rfl rfl rfl, rfl, rfl⟩, rfl, rfl,
    get_replicate label1 2048 1280017 5 (by decide), ?_⟩
  simp [fullTable, -List.reduceReplicate]

theorem witness_RadioJudgements : ((-480 : Int) ≤ -480 ∧ (-480 : Int) ≤ -80 ∧ (-80 : Int) ≤ -80) ∧
    at7.judgedReference = some 3 ∧ unservedBase.judgedReference = some 5 ∧
    { unservedBase with trunk := Trunk.initial }.judgedReference = none ∧ (4294967295 : Nat) ≤ 4294967295 := by decide

def presenceOwn (n : Nat) : PresencePacket := { presenceOf n (-260) with owner := 3 }
def listening67 : State := { hearing67 with part := .listening }
theorem witness_PresenceIsTaken :
    (listening67.live = true ∧ listening67.serving = true ∧ listening67.settings.labelService = true ∧
      (presenceOf 7 (-260)).orphan = false ∧ listening67.owned 7 = none ∧ listening67.heard 7 = none ∧
      listening67.labels.owned.length + listening67.labels.heard.length < 2048 ∧ listening67.part ≠ .running ∧
      (presenceOf 7 (-260)).owner ≠ listening67.self) ∧
    (at7.owned 1280017 = some label1 ∧ (presenceOwn 1280017).owner = at7.self ∧ label1.state = .showing ∧
      (presenceOwn 1280017).battery = label1.battery) ∧
    (let o : Owned := { label1 with state := .lost, bound := none }
     (ownedIn o).owned 1280017 = some o ∧ o.state = .lost ∧ o.bound = none ∧ (presenceOwn 1280017).owner = (ownedIn o).self) := by
  decide

/-- Station 3 with label service off takes station 5 as its reference. -/
def marked (slot length : Nat) : State :=
  { unservedBase with labels := { base.labels with reference := some 5, cycle := 77, slot := slot, length := length } }
theorem witness_CycleMarkAligns :
    ((marked 0 64).Hears 5 ∧ toAll.dest = .all ∧ ((marked 0 64).heardFrom 5 Peer.takeMark).labels.reference = some 5 ∧
      (marked 0 64).labels.cycle = 77 ∧ (marked 0 64).labels.slot = 0 ∧ (marked 0 64).labels.length = 64) ∧
    (marked 1 64).labels.slot ≠ 0 ∧ (marked 0 16).labels.length ≠ 64 ∧
    (base.heardFrom 5 Peer.takeMark).labels.reference ≠ some 5 ∧ ¬ ((17 : Nat) = 16 ∨ (17 : Nat) = 64 ∨ (17 : Nat) = 256) := by
  refine ⟨⟨hears_of rfl rfl (by decide), rfl, ?_, rfl, rfl, rfl⟩, ?_, ?_, ?_, ?_⟩ <;> decide

theorem witness_ClaimsAreJudgedAndEnd :
    ((owned67 (-275)).Hears 5 ∧ fromFive.dest = .station (owned67 (-275)).settings.station ∧ (owned67 (-275)).canSend = true ∧
      (owned67 (-275)).trunk.notice.length < 64 ∧ (owned67 (-275)).part = .running ∧
      ((owned67 (-275)).owned 3600042).map (fun o => (o.hearing.smoothed, o.state)) = some (some (-275), .showing) ∧
      (-275 : Int) + 4 * ((owned67 (-275)).settings.claimMargin : Int) ≤ -251 ∧
      (-252 : Int) < -275 + 4 * ((owned67 (-275)).settings.claimMargin : Int)) ∧
    ({ base with part := .listenOnly }.Hears 5 ∧ { base with part := .listening }.Hears 5) ∧
    (base.owned 3600042 = none ∧ unservedBase.settings.labelService = false) ∧
    (((hears 7 5).heard 7).map (·.hearing.owner) = some fromFive.src ∧ ((hears 7 4).heard 7).map (·.hearing.owner) = some 4) ∧
    ((hears 7 5).serving = true ∧ (heardOf 5).claimed = true ∧ (heardOf 5).claimAge = some 16 ∧
      { heardOf 5 with claimAge := some 15 }.claimAge ≠ some 16) := by
  refine ⟨⟨hears_of rfl rfl (by decide), ?_⟩, ⟨hears_of rfl rfl (by decide), hears_of rfl rfl (by decide)⟩, ?_, ?_, ?_⟩ <;> decide

theorem witness_OwnershipPasses :
    (at7.Hears 5 ∧ fromFive.dest = .station at7.settings.station ∧ at7.settings.labelService = true ∧
      at7.owned 1280017 = some label1 ∧ { handover67 with label := 1280017 }.label = 1280017) ∧
    ((hears 3600042 5).Hears 5 ∧ (hears 3600042 5).owned handover67.label = none ∧
      (hears 3600042 5).heard handover67.label = some (heardOf 5) ∧ handover67.bound = some 1 ∧
      (hears 3600042 5).entry 1 = some entryA ∧ entryA.current ≠ none) ∧
    (toAll.dest = .all ∧ at7.owned 8 = none ∧ at7.heard 8 = none ∧ (hears 8 5).owned 8 = none ∧
      (hears 8 5).heard 8 = some (heardOf 5)) ∧
    (adopting.live = true ∧ adopting.serving = true ∧ adopting.labels.adoptions = [⟨presenceOf 7 (-260), 802, 1, some 9⟩] ∧
      (9 : Station) ≠ adopting.self ∧ adopting.owned 7 = none ∧ adopting.heard 7 = some (heardOf 4)) ∧
    (let s : State := { ownedIn { label1 with display := ⟨.price, some 1, 905⟩ } with labels :=
        { (ownedIn { label1 with display := ⟨.price, some 1, 905⟩ }).labels with adoptions := [⟨presenceOf 1280017 (-260), 802, 1, some 3⟩] } }
     (some 3 : Option Station) = some s.self ∧ s.owned 1280017 = some { label1 with display := ⟨.price, some 1, 905⟩ } ∧
       label1.state = .showing ∧ (presenceOf 1280017 (-260)).display = ⟨.price, some 1, 905⟩ ∧ s.canSend = true ∧
       s.trunk.notice.length < 64) := by
  refine ⟨⟨at7_hears, ?_⟩, ⟨hears_of rfl rfl (by decide), ?_⟩, ?_, ?_, ?_⟩ <;> decide

/-! #### The trunk and forwarding -/

def oldBeacon (attempts : Nat) : Frame := ⟨none, .beacon beacon5, .beacon, attempts⟩
def beaconing (urgent : List Frame) : State :=
  { base with trunk := { base.trunk with urgent := urgent, beaconTimer := some 5 } }
theorem witness_BeaconIsFormedEachSecond :
    (∀ u, (beaconing u).live = true ∧ (beaconing u).canSend = true ∧ (beaconing u).trunk.beaconTimer = some 5 ∧
      (beaconing u).trunk.urgent = u ∧ (beaconing u).trunk.inAir = none) ∧
    ((∀ f ∈ List.replicate 7 (oldBeacon 1), ¬ (f.purpose = .beacon ∧ f.attempts = 0)) ∧ (List.replicate 7 (oldBeacon 1)).length < 8) ∧
    ((∀ f ∈ List.replicate 8 (oldBeacon 1), ¬ (f.purpose = .beacon ∧ f.attempts = 0)) ∧ 8 ≤ (List.replicate 8 (oldBeacon 1)).length) ∧
    ([oldBeacon 1, oldBeacon 0] = [oldBeacon 1] ++ oldBeacon 0 :: [] ∧ ∀ f ∈ [oldBeacon 1], ¬ (f.purpose = .beacon ∧ f.attempts = 0)) ∧
    ((oldBeacon 0).purpose = .beacon ∧ (oldBeacon 0).attempts = 0) :=
  ⟨fun _ => ⟨rfl, rfl, rfl, rfl, rfl⟩, by decide, by decide, by decide, rfl, rfl⟩

theorem witness_FramesUpdateTheirSendersSlot :
    base.Hears 5 ∧ toAll.dest = .all ∧ (({ fromFive with dest := .station 2 } : FrameHead).dest = .station 2 ∧
      (2 : Station) ≠ base.settings.station) ∧ ({ fromFive with dest := .nobody 16 } : FrameHead).dest = .nobody 16 ∧
    fromFive.dest = .station base.settings.station ∧
    (base.live = true ∧ base.serving = true ∧ ({ toAll with src := 3 } : FrameHead).src = base.settings.station) ∧
    { base with part := PartState.listenOnly }.part = .listenOnly :=
  ⟨base_hears, rfl, by decide, rfl, rfl, by decide, rfl⟩

theorem witness_ClashAndSilence :
    (base.live = true ∧ base.canSend = true ∧ ({ toAll with src := 3 } : FrameHead).src = base.settings.station ∧
      ∀ g ∈ base.trunk.frames ++ base.trunk.kept, g.purpose ≠ .reply true) ∧
    (base.serving = true ∧ (base.peer 5).timer = some 4000000 ∧ (base.peer 5).state = .alive) ∧
    (let s := base.withPeer 12 fun p => { p with timer := some 4 }
     (s.peer 12).timer = some 4 ∧ (s.peer 12).state ≠ .alive) := by decide

/-- R137, R201: hearing the own number is put on the alert list. -/
theorem test_clash_alert : ((after (.beaconReceived { toAll with src := 3 } beacon5) base).alerts.list.map fun a => (a.kind, a.subject)) =
    [(.restarted, .self), (.stationClash, .self)] := by decide
def offering (u n b : List Frame) : State := { base with trunk := { base.trunk with urgent := u, notice := n, bulk := b } }
theorem witness_ArbitrationIsWonByTheLowest :
    (∀ u n b, (offering u n b).live = true ∧ (offering u n b).canSend = true ∧ (offering u n b).trunk.inAir = none) ∧
    ((offering [oldBeacon 0] [] []).trunk.urgent.head? = some (oldBeacon 0)) ∧
    ((offering [] [doneFrame] []).trunk.urgent = [] ∧ (offering [] [doneFrame] []).trunk.notice.head? = some doneFrame) ∧
    ((offering [] [] [doneFrame]).trunk.urgent = [] ∧ (offering [] [] [doneFrame]).trunk.notice = [] ∧
      (offering [] [] [doneFrame]).trunk.bulk.head? = some doneFrame) ∧
    (classCode .urgent < classCode .notice) ∧ ((2 : Station) < base.settings.station) ∧ ¬ ((3 : Station) < base.settings.station) ∧
    ((offering [] [] []).trunk.urgent = [] ∧ (offering [] [] []).trunk.notice = [] ∧ (offering [] [] []).trunk.bulk = []) :=
  ⟨fun _ _ _ => ⟨rfl, rfl, rfl⟩, rfl, ⟨rfl, rfl⟩, ⟨rfl, rfl, rfl⟩, by decide, by decide, by decide, ⟨rfl, rfl, rfl⟩⟩

def attempting (f : Frame) (hold : List Frame) : State :=
  { base with trunk := { base.trunk with notice := [f], holdNotice := hold, inAir := some .notice } }
def restartReply (n : Nat) : Frame := ⟨some 14, .officeReply ⟨40, 12, .done .nothing⟩, .reply true, n⟩
/-- Each frame of a trunk stands in its kind's queue or hold line with what its purpose asks. -/
theorem filed_of {t : Trunk} (hu : ∀ f ∈ t.urgent, f.body.trunkClass = .urgent ∧ f.fits = true)
    (hn : ∀ f ∈ t.notice ++ t.holdNotice, f.body.trunkClass = .notice ∧ f.fits = true)
    (hb : ∀ f ∈ t.bulk ++ t.holdBulk, f.body.trunkClass = .bulk ∧ f.fits = true) (hk : ∀ f ∈ t.kept, f.fits = true) : t.Filed where
  queued c f h := by
    cases c
    · exact hu f h
    · exact hn f (List.mem_append_left _ h)
    · exact hb f (List.mem_append_left _ h)
  held c f h := by
    cases c
    · exact absurd h List.not_mem_nil
    · exact hn f (List.mem_append_right _ h)
    · exact hb f (List.mem_append_right _ h)
  kept := hk

theorem witness_AttemptsEndInSentOrDropped :
    (∀ f h, f.body.trunkClass = .notice → f.fits = true → (∀ g ∈ h, g.body.trunkClass = .notice ∧ g.fits = true) →
      (attempting f h).live = true ∧ (attempting f h).canSend = true ∧ (attempting f h).trunk.Filed ∧
      (attempting f h).trunk.inAir = some .notice ∧ (attempting f h).trunk.queue .notice = f :: [] ∧
      (attempting f h).trunk.hold .notice = h ∧ (attempting f h).trunk.kept = []) ∧
    (doneFrame.purpose.plain = true ∧ doneFrame.dest = none ∧ doneFrame.body.trunkClass = .notice ∧ doneFrame.fits = true ∧
      { doneFrame with attempts := 2 }.attempts < 3 ∧ 3 ≤ { doneFrame with attempts := 3 }.attempts) ∧
    ((restartReply 0).purpose = .reply true ∧ 3 ≤ (restartReply 3).attempts ∧ (restartReply 0).dest ≠ none ∧
      (restartReply 3).body.trunkClass = .notice ∧ (restartReply 3).fits = true) := by
  refine ⟨fun f h hc hf hh => ⟨rfl, rfl, filed_of ?_ ?_ ?_ ?_, rfl, rfl, rfl, rfl⟩, by decide, by decide⟩
  · intro x hx; exact absurd hx List.not_mem_nil
  · intro x hx
    rcases List.mem_append.1 hx with hx | hx
    · rcases List.mem_singleton.1 hx with rfl
      exact ⟨hc, hf⟩
    · exact hh x hx
  · intro x hx; exact absurd hx List.not_mem_nil
  · intro x hx; exact absurd hx List.not_mem_nil

def fromPeer : Parcel := { replyParcel with origin := 5 }
def busyUplink (office : Nat) : State :=
  { base with fwd := { base.fwd with
                up := true, sending := some (officeParcel 4, 7)
                office := if office = 0 then [] else [{ officeParcel 4 with payload := bytes office }] } }
theorem witness_ParcelsAreCarriedForPeers :
    ((bytes 1500).length ≤ 1500 ∧ base.live = true ∧ base.serving = true) ∧
    (parcelOk { replyParcel with guest := some 1 } = false ∧ { replyParcel with status := .busy }.status ≠ .data) ∧
    (parcelOk fromPeer = true ∧ fromPeer.status = .data ∧ fromPeer.origin ≠ base.settings.station ∧
      (base.peer 5).state = .alive ∧ base.canSend = true ∧ fromPeer.cls = .till ∧ base.trunk.urgent.length < 8) ∧
    (base.peer 12).state ≠ .alive ∧
    (base.Hears 5 ∧ fromFive.dest = .station base.settings.station ∧ base.part ≠ .listenOnly ∧
      (base.heardFrom 5 id).fwd.up = false ∧ { officeParcel 4 with origin := 5 }.cls ≠ .till) ∧
    ({ base with part := .listenOnly }.Hears 5) ∧
    ((busyUplink 65532).Hears 5 ∧ ((busyUplink 65532).heardFrom 5 id).fwd = (busyUplink 65532).fwd ∧
      (busyUplink 65532).fwd.up = true ∧ (busyUplink 65532).fwd.sending ≠ none ∧
      ((busyUplink 65532).fwd.office.map (·.payload.length)).sum + 4 ≤ 65536 ∧
      65536 < ((busyUplink 65532).fwd.office.map (·.payload.length)).sum + 5 ∧ (busyUplink 65532).settings.guestRelay = false) := by
  refine ⟨?_, ?_, ?_, ?_, ⟨base_hears, rfl, ?_, ?_, ?_⟩, hears_of rfl rfl (by decide), hears_of rfl rfl (by decide), rfl, rfl, ?_, ?_, ?_, rfl⟩
  all_goals first | (simp [busyUplink, bytes, -List.reduceReplicate]; done) | decide +kernel

/-- The uplink is UP with the AUTH of 2.6 in its TILL queue, behind another lane's, peers' TILL parcels, and one being sent. -/
def losing : State :=
  { authing with
    fwd := { authing.fwd with
      till := [{ replyParcel with origin := 5 }, replyParcel, { replyParcel with origin := 12 }], office := [officeParcel 4]
      sending := some ({ replyParcel with port := .lane 5, tag := 9 }, 7) } }
/-- R148: the lane is answered NO-ROUTE, the ALIVE peer's parcel goes back, the SILENT peer's is undeliverable, and five are lost. -/
theorem test_uplink_loss :
    let t := after (.uplinkCarrierChange false) losing
    t.out = [.laneReply 4 false .noRoute] ∧ t.fwd.pendingTable = [] ∧ t.count .undeliverable = 1 ∧ t.count .lostAtUplinkLoss = 5 ∧
      t.trunk.urgent = [⟨some 5, .relay { replyParcel with origin := 5, status := .noRoute, payload := [] }, .relayBack, 0⟩] := by
  decide
/-- A session parcel of 60 bytes held behind one OFFICE parcel and ahead of one that was relayed in later, and one being sent. -/
def holdingRoom (first : Nat) : State :=
  { session .uploading with
    fwd := { (session .uploading).fwd with
      office := [officeParcel first, { officeParcel 5 with origin := 5 }], heldParcel := some ⟨officeParcel 60, 1⟩ } }
/-- R156: the held parcel joins ahead of the parcel relayed in later. -/
theorem test_held_ahead : ((after .uplinkSendEnd (holdingRoom 4)).fwd.office, (after .uplinkSendEnd (holdingRoom 4)).fwd.heldParcel) =
    ([officeParcel 60, { officeParcel 5 with origin := 5 }], none) := by decide
/-- R152, R156: a parcel relayed in while one is held joins the queue, and stands behind the held one. -/
theorem test_held_relayed :
    let t := after (.relayReceived fromFive { officeParcel 7 with origin := 5 }) (holdingRoom 4)
    t.fwd.office.map (·.payload.length) = [4, 5, 7] ∧ t.fwd.heldParcel.map (·.relayedSince) = some 2 := by decide
theorem witness_UplinkCarriesByItsShares :
    (base.live = true ∧ base.serving = true ∧ (false = base.fwd.up)) ∧
    (base.settings.uplinkPresent = true ∧ base.fwd.up = false ∧ uplinked.settings.uplinkPresent = true ∧ uplinked.fwd.up = true) ∧
    (losing.live = true ∧ losing.serving = true ∧ losing.settings.uplinkPresent = true ∧ losing.fwd.up = true ∧
      losing.canSend = true ∧ replyParcel ∈ losing.fwd.till ∧ replyParcel.origin = losing.settings.station ∧
      replyParcel.port = .lane 4 ∧ AMap.wf losing.fwd.pendingTable = true ∧
      AMap.get losing.fwd.pendingTable 4 = some ⟨12, .local true⟩ ∧ replyParcel.tag = 12 ∧
      (losing.lane 4).flight = some ⟨12, false, 20000000⟩ ∧
      (∀ p ∈ losing.fwd.till, p.origin ≠ losing.settings.station → p.cls = .till) ∧ losing.trunk.urgent.length + 1 ≤ 8) ∧
    (let s : State := { uplinked with fwd := { uplinked.fwd with office := [] } }
     s.fwd.sending = some (officeParcel 4, 7) ∧ (officeParcel 4).cls ≠ .till ∧ s.fwd.heldParcel = none ∧ s.fwd.till = [] ∧
       s.fwd.office = [] ∧ s.fwd.guest = []) ∧
    (let s : State := { uplinked with fwd := { uplinked.fwd with till := [replyParcel] } }
     s.fwd.up = true ∧ s.fwd.till = replyParcel :: [] ∧ s.fwd.sending = some (officeParcel 4, 7)) ∧
    (let s : State := { authing with fwd := { authing.fwd with sending := some (replyParcel, 7) } }
     s.fwd.sending = some (replyParcel, 7) ∧ replyParcel.cls = .till ∧ replyParcel.origin = s.settings.station ∧
       AMap.get s.fwd.pendingTable 4 = some ⟨12, .local true⟩ ∧ s.fwd.heldParcel = none) ∧
    ((holdingRoom 4).fwd.sending = some (officeParcel 4, 7) ∧ (holdingRoom 4).fwd.heldParcel = some ⟨officeParcel 60, 1⟩ ∧
      (holdingRoom 4).fwd.up = true ∧ (holdingRoom 4).unit.mode ≠ .distress ∧ (holdingRoom 4).fwd.till = [] ∧
      (holdingRoom 4).fwd.guest = [] ∧ (holdingRoom 4).fwd.office = [officeParcel 4] ++ [{ officeParcel 5 with origin := 5 }] ∧
      (officeParcel 60).cls = .office ∧ (60 : Nat) + 5 ≤ 65536) ∧
    ((sharing 10 90).till = [] ∧ (sharing 10 90).office = officeParcel 10 :: [] ∧ (sharing 10 90).guest = guestParcel 15 :: [] ∧
      (sharing 10 90).officeTally * 90 ≤ (sharing 10 90).guestTally * 10 ∧
      (sharing 10 89).guestTally * 10 < (sharing 10 89).officeTally * 90 ∧ (sharing 15 15).officeTally ≤ (sharing 15 15).guestTally ∧
      (sharing 16 15).guestTally < (sharing 16 15).officeTally) := by
  refine ⟨?_, ?_, ?_, ?_, ?_, ?_, ?_, ?_⟩ <;> decide

def guestFull : State := { base with now := 600000000, fwd := { base.fwd with guests := List.replicate 128 { guest77 0 with address := 78 } } }
/-- The GUEST queue holds one parcel of `n` bytes, behind a busy transmitter. -/
def guestQueued (n : Nat) : State :=
  { busyUplink 0 with fwd := { (busyUplink 0).fwd with guest := [{ guestParcel 4 with payload := bytes n }], guests := [guest77 15] } }
theorem witness_GuestFramesAreTested :
    (base.live = true ∧ base.serving = true ∧ { base with settings := { fitted with guestService := false } }.settings.guestService = false ∧
      base.settings.guestService = true) ∧
    ((bytes 0) = [] ∧ 1500 < (bytes 1501).length ∧ 1 ≤ (bytes 1).length ∧ (bytes 1500).length ≤ 1500) ∧
    (GuestDest.guest ≠ .uplink) ∧ ((∀ g ∈ base.fwd.guests, g.address ≠ 77) ∧ (session .idle).unit.mode = .late) ∧
    ¬ ({ base with unit := { base.unit with mode := .closed } }.unit.mode = .open ∨
        { base with unit := { base.unit with mode := .closed } }.unit.mode = .late) ∧
    (128 ≤ guestFull.fwd.guests.length ∧ (∀ g ∈ guestFull.fwd.guests, g.address ≠ 77) ∧
      ∀ g ∈ guestFull.fwd.guests, guestFull.now ≤ g.lastSeen + Config.minutes 10) ∧
    ((hosting 14).fwd.guests = [] ++ guest77 14 :: [] ∧ (guest77 14).address = 77 ∧ (∀ x ∈ ([] ++ [] : List Guest), x.address ≠ 77) ∧
      (guest77 14).level < 15 ∧ 15 ≤ (guest77 15).level) ∧
    ((hosting 15).fwd.up = false ∧ (hosting 15).fwd.holder = none) ∧
    ((busyUplink 0).fwd.up = true ∧ (busyUplink 0).unit.mode = .late ∧ (busyUplink 0).fwd.sending ≠ none ∧
      ((busyUplink 0).fwd.guest.map (·.payload.length)).sum + 1500 ≤ 65536) ∧
    ((guestQueued 65536).fwd.up = true ∧ (guestQueued 65536).unit.mode = .late ∧
      65536 < ((guestQueued 65536).fwd.guest.map (·.payload.length)).sum + 1) := by
  refine ⟨?_, ?_, ?_, ?_, ?_, ?_, ?_, ?_, ?_, ⟨rfl, rfl, ?_⟩⟩
  case refine_10 => simp [guestQueued, bytes, -List.reduceReplicate]
  all_goals first | (simp [guestFull, guest77, bytes, base, Config.minutes, Config.seconds, -List.reduceReplicate]; done) | decide

/-! #### The session and the files -/

def restless : State := { session .resting with link := { (session .resting).link with restTimer := some 600 } }
def relayOf (p : Parcel) (n : Nat) : Frame := ⟨some 7, .relay p, .relayOut, n⟩
/-- The session of 9.8 without its own uplink, with a holder or none. -/
def routed (holder : Option Station) (bulk : List Frame) : State :=
  { session .idle with
    fwd := { (session .idle).fwd with up := false, sending := none, holder := holder }
    trunk := { base.trunk with bulk := bulk } }
/-- R156, R172: OPEN goes to the holder in a RELAY. -/
theorem test_open_relayed : ((routed (some 7) []).startAttempt .window).trunk.bulk.map (fun f => (f.dest, f.purpose)) =
    [(some 7, .relayOut)] := by decide
/-- R182, R183: with no route the attempt fails, and the session rests. -/
theorem test_no_route : ((routed none []).startAttempt .window).link.state = .resting ∧
    ((routed none []).startAttempt .window).link.lastFailure = some .noRoute := by decide
theorem witness_AttemptsAreStarted :
    ((session .idle).fwd.up = true ∧ (session .idle).fwd.sending ≠ none ∧
      ((session .idle).fwd.office.map (·.payload.length)).sum +
        (messageBytes (.opening 3 311 1)).length ≤ 65536) ∧
    ((session .idle).live = true ∧ { session .idle with part := .listening }.working = false ∧ (session .idle).working = true) ∧
    (let s := routed (some 7) (List.replicate 31 (relayOf (officeParcel 4) 0))
     s.fwd.up = false ∧ s.fwd.holder = some 7 ∧ s.canSend = true ∧ s.trunk.bulk.length < 32) ∧
    (let s := routed (some 7) (List.replicate 32 (relayOf (officeParcel 4) 0))
     32 ≤ s.trunk.bulk.length ∧ ∀ x ∈ s.trunk.holdBulk, x.sender ≠ .forwarding) ∧
    (let s := routed none []
     s.fwd.up = false ∧ s.fwd.holder = none ∧ s.window = some (530, 14394) ∧ s.link.attemptCount + 1 < 3 ∧ (600 : Nat) < 14394) ∧
    ({ routed none [] with unit := base.unit }.window = none) ∧
    (base.window = none ∧ base.link.state ≠ .resting) ∧
    ((session .idle).window = some (530, 14394) ∧ (session .idle).link.windowDay = some 530 ∧ (session .idle).link.state = .idle ∧
      (session .idle).unit.mode = .late ∧ { (session .idle).link with attemptCount := 2 }.attemptCount < 3) ∧
    (beforeOne.window = some (530, 14400) ∧ beforeOne.link.windowDay ≠ some 530 ∧ beforeOne.link.state = .done ∧
      { beforeOne.unit with mode := .open }.mode ≠ .late ∧ { beforeOne.unit with mode := .open }.mode ≠ .closed ∧ beforeOne.unit.mode = .late) ∧
    ((session .resting).link.state = .resting ∧ (600 : Nat) < 14394) ∧
    ({ session .resting with unit := { base.unit with clock := some ⟨530, 17400⟩ } }.window = some (530, 600)) ∧
    (restless.link.restTimer = some 600 ∧ restless.link.state = .resting ∧ restless.window ≠ none ∧
      restless.link.attemptCount < 3) ∧ (3 : Nat) ≤ 3 := by decide

theorem witness_FailedAttemptsAreUndone :
    (∀ st, (session st).live = true ∧ (session st).working = true ∧ (session st).serving = true ∧ (session st).link.state = st ∧
      (session st).link.replyTimer = some 30) ∧
    (session .opening).CanRest ∧ ¬ { session .opening with unit := base.unit }.CanRest ∧
    SessionState.idle.inProgress = false ∧
    { (session .uploading).link with window := [] }.window = [] ∧
    ((session .uploading).link.window = ⟨1, 9001, 9002, true⟩ :: [⟨2, 9003, 9003, true⟩] ∧ (1 : Nat) ≠ 2) ∧
    (⟨1, 9001, 9002, false⟩ : WindowBatch).lastPart = false := by
  refine ⟨fun _ => ⟨rfl, rfl, rfl, rfl, rfl⟩, ⟨530, 14394, rfl, by decide, by decide⟩, ?_, rfl, rfl, ⟨rfl, by decide⟩, rfl⟩
  rintro ⟨d, l, h, -⟩
  have : (none : Option (Nat × Nat)) = some (d, l) := h
  simp at this

theorem witness_OnlyAwaitedMessagesAreTaken :
    (officeMessage (.defer 206) = some (206, .defer) ∧ (session .opening).live = true ∧ (session .opening).serving = true ∧
      206 ≠ (session .opening).link.attemptTag) ∧
    ((session .idle).link.state.inProgress = false) ∧
    (officeMessage (.defer 207) = some (207, .defer) ∧ (session .uploading).link.state.inProgress = true ∧
      207 = (session .uploading).link.attemptTag ∧ (session .uploading).link.state ≠ .opening) ∧
    (officeMessage (.fileStart 207 312 1 0) = some (207, .fileStart 312 1 0) ∧ collecting.link.state.inProgress = true ∧
      collecting.staging.count ≠ none) ∧
    (officeMessage (.filePart 207 312 0 [record312]) = some (207, .filePart 312 0 [record312]) ∧ awaiting.staging.count = none ∧
      collecting.link.newest ≠ some 313 ∧ 32 < (List.replicate 33 record312).length) ∧
    (officeMessage (.fileEnd 207 312) = some (207, .fileEnd 312) ∧ awaiting.link.state.inProgress = true) ∧
    (officeMessage (.noResend 207 312) = some (207, .noResend 312) ∧ awaiting.link.resendUsed = false ∧
      { awaiting.link with resendUsed := true }.newest ≠ some 313) := by
  decide
/-- R178 to R180: a second FILE-START, a FILE-PART before FILE-START and a NO-RESEND without FILE-BAD are unexpected. -/
theorem test_download_unexpected :
    (after (.fileStart 207 312 1 0) collecting).count .unexpectedMessages = 1 ∧
    (after (.filePart 207 312 0 [record312]) awaiting).count .unexpectedMessages = 1 ∧
    (after (.noResend 207 312) awaiting).count .unexpectedMessages = 1 := by decide

/-- Station 3 in OPENING, where station 5 is the reference: `n` unsent records up to the cut, `marks` batches outstanding, held
file serial `held`, and `office` bytes in the OFFICE queue. -/
def toUpload (n marks held office : Nat) : State :=
  { session .opening with
    settings := { fitted with labelService := false }
    labels := { base.labels with reference := some 5 }
    journal := { records := (List.range n).map fun i => recordOf (9001 + i) false, counter := .next (9001 + n)
                 outstanding := List.replicate marks ⟨8999, 9000, 2⟩, high := false }
    fwd := { (session .opening).fwd with office := [officeParcel office] }
    link := { (session .opening).link with cut := some 9100, held := held, window := List.replicate marks ⟨1, 8999, 9000, true⟩ } }
/-- The state in which it asks for a batch. -/
def accepted (s : State) : State :=
  { s.bump .settingsIgnored with
    link := { s.link with state := .uploading, newest := some 312, replyTimer := some (s.now + Config.seconds 30) } }
theorem toUpload_ok (n marks held office : Nat) (hn : 1 ≤ n) (hl : n ≤ 64) (hm : marks ≤ 2) : (toUpload n marks held office).journal.Ok where
  size := by show ((List.range n).map fun i => recordOf (9001 + i) false).length ≤ 16384; rw [List.length_map, List.length_range]; omega
  rising := by
    show (((List.range n).map fun i => recordOf (9001 + i) false).map (·.serial)).Pairwise (· < ·)
    rw [List.map_map, List.pairwise_map]
    exact List.pairwise_lt_range.imp fun h => by show 9001 + _ < 9001 + _; omega
  issued r hr := by
    obtain ⟨i, hi, rfl⟩ := List.mem_map.1 hr
    have := List.mem_range.1 hi
    show 9001 + i < 9001 + n
    omega
  counter := by show 1 ≤ 9001 + n ∧ 9001 + n ≤ 4294967295; omega
  batches := by show (List.replicate marks _).length ≤ 2; rw [List.length_replicate]; exact hm
/-- R71, R175: the oldest 32 of 33 records are marked, and their batch's one part is handed over; the next batch follows. -/
theorem test_upload :
    let t := after (.accept 207 ⟨530, 3602⟩ 312) (toUpload 33 0 312 4)
    t.journal.outstanding = [⟨9001, 9032, 32⟩, ⟨9033, 9033, 1⟩] ∧ t.link.window = [⟨1, 9001, 9032, true⟩, ⟨2, 9033, 9033, true⟩] ∧
      t.fwd.office.length = 3 := by decide +kernel
/-- R177: SKIP-FILE when a copy has been announced, FILE-WANTED when none has, and neither when no newer file is there. -/
theorem test_download_decision :
    let s := toUpload 0 0 311 4
    (after (.accept 207 ⟨530, 3602⟩ 312) { s with link := { s.link with announce := some (312, 0) } }).link.outcome = .skipped ∧
    (after (.accept 207 ⟨530, 3602⟩ 312) s).link.state = .downloading ∧ (after (.accept 207 ⟨530, 3602⟩ 312) s).staging.serial = 312 ∧
    (after (.accept 207 ⟨530, 3602⟩ 312) (toUpload 0 0 312 4)).link.state = .done := by decide +kernel
theorem witness_AcceptBeginsTheUpload :
    ((session .opening).live = true ∧ (session .opening).serving = true ∧ (session .opening).link.state = .opening ∧
      (session .opening).labels.reference = none) ∧
    ((65535 : Nat) ≤ 65535 ∧ (86399 : Nat) ≤ 86399) ∧
    (let s : State := { toUpload 1 0 312 4 with
        labels := base.labels, settings := { fitted with openTime := 420, lateTime := 1200, closeTime := 120 } }
     let u := ({ s with link := (accepted s).link }).timeFromAccept ⟨530, 3602⟩
     s.labels.reference = none ∧ u.unit.clock = some ⟨530, 3602⟩ ∧ u.unit.mode ≠ .distress ∧ u.unit.mode = s.unit.mode ∧
       u.uncut = [recordOf 9001 false] ∧ u.journal.outstanding.length < 2 ∧ u.fwd.up = true ∧ u.fwd.sending ≠ none) ∧
    (let s := toUpload 0 0 312 4
     s.live = true ∧ s.serving = true ∧ s.link.state = .opening ∧ (accepted s).unit.mode ≠ .distress ∧
       ¬ (s.labels.reference = none ∨ s.labels.reference = some s.settings.station) ∧ s.link.toSend = [] ∧
       s.link.waiting = false) ∧
    (∀ n marks held office, 1 ≤ n → n ≤ 64 → marks ≤ 2 → (toUpload n marks held office).journal.Ok) ∧
    ((accepted (toUpload 0 1 312 4)).uncut = [] ∧ (accepted (toUpload 0 1 312 4)).link.window ≠ []) ∧
    ((accepted (toUpload 1 2 312 4)).uncut ≠ [] ∧ 2 ≤ (accepted (toUpload 1 2 312 4)).journal.outstanding.length) ∧
    (let u := accepted (toUpload 1 1 312 65000)
     (u.uncut.take 32).head? = some (recordOf 9001 false) ∧ (u.uncut.take 32).getLast? = some (recordOf 9001 false) ∧
       u.journal.outstanding.length < 2 ∧ u.fwd.up = true ∧
       partsOf 1 [recordOf 9001 false] = [.batchPart 1 1 true (journalBytes (recordOf 9001 false))]) ∧
    (let u := accepted (toUpload 32 0 312 4)
     u.uncut.head? = some (recordOf 9001 false) ∧ u.uncut.getLast? = some (recordOf 9032 false) ∧ u.uncut.length ≤ 32 ∧
       u.journal.outstanding.length < 2 ∧ (∀ b ∈ u.link.window, b.serial ≠ u.link.batchSerial + 1) ∧
       u.Carries (partsOf (u.link.batchSerial + 1) u.uncut)) ∧
    (let u := accepted (toUpload 0 0 312 4)
     u.uncut = [] ∧ u.link.window = [] ∧ 312 ≤ u.link.held ∧ u.Carries [.sessionEnd 0 .none]) ∧
    (let u := accepted (toUpload 0 0 311 4)
     let v : State := { u with link := { u.link with announce := some (312, 0) } }
     u.link.held < 312 ∧ v.CopyComes 312 ∧ v.Carries [.skipFile 312, .sessionEnd 0 .skipped] ∧ ¬ u.CopyComes 312 ∧
       u.staging.owner = .none ∧ u.Carries [.fileWanted 312]) := by
  refine ⟨by decide, by decide, by decide +kernel, by decide, toUpload_ok, by decide, by decide, by decide +kernel, ⟨by decide, by decide, by decide, by decide, by decide,
    ⟨rfl, by decide, by decide +kernel⟩⟩, ⟨by decide, by decide, by decide, ⟨rfl, by decide, by decide⟩⟩,
    by decide, .inr (.inr ⟨0, by decide, by decide⟩), ⟨rfl, by decide, by decide⟩, ?_, by decide, ⟨rfl, by decide, by decide⟩⟩
  rintro (h | ⟨h, -⟩ | ⟨k, h, -⟩)
  · exact absurd h (by decide)
  · exact absurd h (by decide)
  · exact absurd h (by show ¬ (none : Option (Nat × Nat)) = some (312, k); simp)
/-- One byte short of room: the part is held (R156). -/
theorem witness_PartsAreHeld :
    let m : OutMessage := .batchPart 1 1 true (journalBytes (recordOf 9001 false))
    let u := accepted (toUpload 1 1 312 (65537 - (messageBytes m).length))
    65536 < u.officeBytes + (messageBytes m).length := by
  intro m u
  have : u.officeBytes = 65537 - (messageBytes m).length := by
    show ([officeParcel (65537 - (messageBytes m).length)].map (·.payload.length)).sum = _
    rw [List.map_singleton, List.sum_singleton]
    exact List.length_replicate
  omega

theorem witness_BatchTakenRemovesItsRecords :
    let s := session .uploading
    let t := after (.batchTaken 207 1) { s with link := { s.link with waiting := true } }
    (s.live = true ∧ s.serving = true ∧ s.link.state = .uploading ∧
      s.link.window = ⟨1, 9001, 9002, true⟩ :: [⟨2, 9003, 9003, true⟩] ∧ s.journal.outstanding = ⟨9001, 9002, 2⟩ :: [⟨9003, 9003, 1⟩] ∧
      { s.link with waiting := true }.waiting = true) ∧
    (s.journal.Ok ∧ s.link.toSend = [] ∧ s.link.waiting = false ∧ t.uncut = [] ∧ t.link.window ≠ []) ∧
    (let u : State :=
       { s with
         journal := { s.journal with records := [recordOf 9001 true, recordOf 9002 true], outstanding := [⟨9001, 9002, 2⟩] }
         link := { s.link with window := [⟨1, 9001, 9002, true⟩] } }
     u.link.window = ⟨1, 9001, 9002, true⟩ :: [] ∧ u.journal.outstanding = ⟨9001, 9002, 2⟩ :: [] ∧
       (after (.batchTaken 207 1) { u with link := { u.link with waiting := true } }).uncut = [] ∧ u.link.newest.getD 0 = 312 ∧
       u.link.held < 312 ∧ ¬ u.CopyComes 312 ∧ u.staging.owner = .none ∧ u.Carries [.fileWanted 312]) := by
  refine ⟨by decide, ⟨⟨by decide, by decide, by show ∀ r ∈ (session .uploading).journal.records, r.serial < 9005; decide,
    by show 1 ≤ 9005 ∧ 9005 ≤ 4294967295; decide, by decide⟩, rfl, rfl, by decide, by decide⟩, rfl, rfl, by decide, rfl, by decide, ?_,
    rfl, ⟨rfl, by decide, by decide⟩⟩
  rintro (h | ⟨h, -⟩ | ⟨k, h, -⟩)
  · exact absurd h (by decide)
  · exact absurd h (by decide)
  · exact absurd h (by show ¬ (none : Option (Nat × Nat)) = some (312, k); simp)
/-- R176, R177: BATCH-TAKEN of the last batch, and the download decision. -/
theorem test_last_batch :
    let s : State :=
      { session .uploading with
        journal := { (session .uploading).journal with records := [recordOf 9001 true], outstanding := [⟨9001, 9001, 1⟩] }
        link := { (session .uploading).link with window := [⟨1, 9001, 9001, true⟩] } }
    (after (.batchTaken 207 1) s).link.state = .downloading ∧ (after (.batchTaken 207 1) s).link.acked = 1 ∧
      (after (.batchTaken 207 1) s).journal.records = [] := by decide +kernel

theorem witness_SessionFilesAreReceived :
    (awaiting.live = true ∧ awaiting.serving = true ∧ awaiting.link.state = .downloading ∧ awaiting.staging.owner = .session ∧
      awaiting.staging.phase = .collecting ∧ awaiting.staging.count = none ∧ awaiting.link.newest = some 312) ∧
    ((8192 : Nat) ≤ 8192 ∧ (8192 : Nat) < 8193 ∧ awaiting.link.newest ≠ some 313) ∧
    ({ awaiting.link with resendUsed := true }.resendUsed = true) ∧
    (collecting.live = true ∧ collecting.link.state = .downloading ∧ collecting.staging.count = some 1 ∧
      collecting.link.newest = some 312 ∧ 1 ≤ [record312].length ∧ (List.replicate 32 record312).length ≤ 32 ∧
      [record312][0]? = some record312 ∧ record312.index = 0 + 0 ∧ record312.index < 1 ∧
      record312.fileSerial = collecting.staging.serial) ∧
    ({ collecting.staging with records := [(0, record312)] }.passes = true ∧ (0 : Nat) < 1) ∧
    (collecting.staging.passes = false ∧ collecting.link.resendUsed = false ∧ collecting.link.waiting = false ∧
      collecting.fwd.up = true) ∧
    (collectingAgain.live = true ∧ collectingAgain.serving = true ∧ collectingAgain.link.state = .downloading ∧
      collectingAgain.link.waiting = true ∧ collectingAgain.link.resendUsed = true ∧
      collectingAgain.staging.passes = false) ∧
    (collecting.link.acked = 0 ∧ collecting.staging.records.length = 0 ∧
      { collecting.link with resendUsed := true }.waiting = false) := by
  refine ⟨?_, ?_, ?_, ?_, ?_, ?_, ?_, ?_⟩ <;> decide +kernel
/-- The room the messages of O43 need, and a session whose next message finds none. -/
theorem witness_FileMessagesAreCarried :
    collecting.Carries [.fileBad 312 0 false] ∧ collecting.Carries [.fileBad 312 0 true, .sessionEnd 0 .bad] ∧
    collecting.Carries [.fileTaken 312, .sessionEnd 0 .taken] ∧
    awaiting.Carries [.fileRefused 313 false, .sessionEnd 0 .refused] ∧ awaiting.Carries [.sessionEnd 0 .bad] := by
  refine ⟨⟨rfl, ?_, ?_⟩, ⟨rfl, ?_, ?_⟩, ⟨rfl, ?_, ?_⟩, ⟨rfl, ?_, ?_⟩, ⟨rfl, ?_, ?_⟩⟩ <;> decide
def crowded (n : Nat) : State :=
  { collectingAgain with fwd := { collectingAgain.fwd with office := [officeParcel n] } }
theorem crowded_officeBytes (n : Nat) : (crowded n).officeBytes = n := by
  show ([officeParcel n].map (·.payload.length)).sum = n
  rw [List.map_singleton, List.sum_singleton]
  exact List.length_replicate
theorem witness_NextMessageIsHeld :
    (crowded 65536).link.state = .downloading ∧ (crowded 65536).link.waiting = true ∧ (crowded 65536).fwd.up = true ∧
      (crowded 65536).link.toSend = .fileWanted 312 :: .fileBad 312 70 false :: [] ∧
      65536 < (crowded 65536).officeBytes + (messageBytes (.fileBad 312 70 false)).length := by
  rw [crowded_officeBytes]
  exact ⟨rfl, rfl, rfl, rfl, by decide⟩

theorem witness_TrunkFilesAreCollected :
    (base.Hears 5 ∧ toAll.dest = .all ∧ (base.heardFrom 5 id).staging.owner = .none ∧ (base.heardFrom 5 id).link.held < 1 ∧
      (8192 : Nat) ≤ 8192) ∧
    (announced.Hears 5 ∧ (announced.heardFrom 5 id).staging = announced.staging ∧ announced.staging.owner = .trunk ∧
      announced.staging.phase = .collecting ∧ announced.staging.source = some toAll.src ∧ announced.staging.serial = 312 ∧
      announced.staging.count = some 1 ∧ announced.staging.check = some 2897681239) ∧
    (1 ≤ [record312].length ∧ (∀ r ∈ List.replicate 32 record312, r.changeCode = 2 ∨ (r.changeCode = 1 ∧ 1 ≤ r.kindCode ∧ r.kindCode ≤ 3)) ∧
      record312.index = 0 + 0 ∧ record312.index < announced.staging.count.getD 0 ∧ record312.fileSerial = 312) ∧
    ({ announced.staging with records := [(0, record312)] }.passes = true ∧ announced.staging.passes = false) ∧
    (announced.live = true ∧ announced.serving = true ∧ base.staging.owner ≠ .trunk) := by
  refine ⟨⟨base_hears, ?_⟩, ⟨hears_of rfl rfl (by decide), ?_⟩, ?_, ?_, ?_⟩
  all_goals first | (simp [record312, change1, -List.reduceReplicate]; done) | decide +kernel

/-! #### Mode, start-up and office commands -/

/-- 10.6, 23:40: the close key is asserted. -/
def keyedLine : ModeUnit := { evening.unit with lines := evening.unit.lines.set 1 ⟨.closeKey, true, true, 1⟩ }
theorem witness_ClockAdvancesBySeconds :
    (at2059.live = true ∧ at2059.unit.clock = some ⟨530, 75599⟩ ∧ at2059.unit.clockTimer = some 7 ∧
      at2059.unit.override = some (.late, some .open) ∧ at2059.unit.highestDay = some 530) ∧
    (let s : State := { at2059 with unit := { at2059.unit with clock := some ⟨65535, 86399⟩ } }
     s.live = true ∧ s.unit.clock = some ⟨65535, 86399⟩ ∧ (65535 : Nat) ≤ 65535 ∧ (86399 : Nat) ≤ 86399 ∧ 530 < 65535) ∧
    (let failing : ModeUnit := { keyedLine with mains := .falling 30 }
     failing.mains = .falling 30 ∧ keyedLine.mains = .clear ∧ (keyedLine.lines.get 1).use = .closeKey ∧
       (keyedLine.lines.get 1).asserted = true) ∧
    (at2059.unit.mains = .clear ∧ (∀ i, ¬ ((at2059.unit.lines.get i).use = .closeKey ∧ (at2059.unit.lines.get i).asserted = true)) ∧
      at2059.unit.override = some (.late, some .open) ∧ { at2059.unit with override := none }.schedule = some .open) ∧
    ((∀ i, (base.unit.lines.get i).use ≠ .closeKey) ∧ base.unit.override = none ∧ base.unit.schedule = none) ∧
    (let ago (sec time : Nat) : Nat := (sec + 86400 - time * 60) % 86400
     ago 75000 420 ≤ ago 75000 1260 ∧ ago 75600 1260 < ago 75600 420 ∧ ago 86399 1439 < ago 86399 420 ∧ ago 0 0 = 0 ∧
       ago 0 1439 = 60) := by decide
/-- R194: among equal times OPEN goes before LATE and LATE before CLOSED, and the day is looked back around. -/
theorem test_schedule :
    scheduleMode { fitted with openTime := 420, lateTime := 420, closeTime := 420 } 25200 = .open ∧
    scheduleMode { fitted with openTime := 420, lateTime := 1260, closeTime := 1260 } 75600 = .late ∧
    scheduleMode { fitted with openTime := 420, lateTime := 1260, closeTime := 1380 } 0 = .closed ∧
    scheduleMode { fitted with openTime := 420, lateTime := 1260, closeTime := 1380 } 25199 = .closed ∧
    scheduleMode { fitted with openTime := 420, lateTime := 1260, closeTime := 1380 } 25200 = .open := by decide

def keyed : State :=
  { session .idle with
    unit := { (session .idle).unit with lines := evening.unit.lines.set 2 ⟨.sessionKey, true, false, 0⟩ } }
theorem witness_EventLinesAndDistress :
    (evening.live = true ∧ evening.serving = true ∧ State.reset.live = true ∧ State.reset.serving = false) ∧
    (keyed.live = true ∧ keyed.serving = true ∧ keyed.working = true ∧ keyed.unit.mode = decidedMode keyed.unit ∧
      keyed.unit.mode ≠ .distress ∧ keyed.link.state.inProgress = false ∧ (keyed.unit.lines.get 2).use = .sessionKey ∧
      (true == (keyed.unit.lines.get 2).activeHigh) = true ∧ (keyed.unit.lines.get 2).asserted = false) ∧
    ((after (.eventLineChange 0 false) evening).live = true ∧ (after (.eventLineChange 0 false) evening).unit.mode ≠ .distress ∧
      (after (.eventLineChange 0 false) evening).serving = true) ∧
    ({ evening.unit with mains := .falling 30 }.mains = .falling 30) := by decide

theorem witness_ResetsKeepWhatIsAttached :
    base.resetHeld = false ∧ base.powered = true ∧ { base with resetHeld := true }.resetHeld = true ∧
    { base with powered := false }.powered = false ∧ at7.live = true ∧ at7.owned 1280017 = some label1 ∧
    at7.owned 8 = none ∧ AMap.wf at7.labels.owned = true ∧ (base.bump .acksTaken).count .acksTaken = 1 :=
  ⟨rfl, rfl, rfl, rfl, rfl, rfl, rfl, rfl, by decide⟩
/-- R102, R204: a count that was 1 before POWER_ON, and the count of alerts recorded. -/
theorem test_reset_counts :
    let t := after .powerOn (base.bump .acksTaken)
    t.count .acksTaken = 0 ∧ t.count .alertsRecorded = 1 := by decide

theorem witness_HeldAndHaltedPartsServeNothing :
    resets (.total 4 true) = false ∧ { base with powered := false }.live = false ∧
    (let s := { base with part := .halted }
     s.live = true ∧ s.part = .halted ∧ s.book.cursor = none ∧ s.unit.clock = none ∧ s.unit.mains = .clear) := by decide

theorem witness_ProfileDecidesTheStart :
    State.reset.live = true ∧ State.reset.part = .starting ∧ imageOk [] = false ∧ imageOk image114 = true ∧
    image114.length = 52 ∧
    (let s : State := { base with part := .listening, listenTimer := some 3000000, fwd := { base.fwd with up := true } }
     s.live = true ∧ s.listenTimer = some 3000000 ∧ s.part = .listening ∧ s.link.earlyPending = false ∧ s.fwd.holder = none ∧
       s.book.entries = [] ∧ s.fwd.up = true) ∧
    ({ base with listenTimer := some 3000000 }.listenTimer = some 3000000 ∧ base.part ≠ .listening) :=
  ⟨rfl, rfl, rfl, test_image, rfl, by decide, rfl, by decide⟩
/-- A part in STARTING with one OWNED label of station 9 and `n` journal records. -/
def prepares (n : Nat) : State :=
  { State.reset with
    labels := Labels.initial [(7, { label1 with hearing := { label1.hearing with owner := 9 } })]
    journal := { State.reset.journal with records := List.replicate n (recordOf 1 false) } }
theorem witness_BlocksPrepare :
    ((prepares 12288).live = true ∧ (prepares 12288).part = .starting ∧ (prepares 12288).labels.markLength = none ∧
      (prepares 12288).unit.mains = .clear ∧ (prepares 12288).owned 8 = none ∧ ((prepares 12288).owned 7).isSome = true) ∧
    (readProfile image114).1.highWatermark = 12288 ∧ (prepares 12288).journal.records.length = 12288 ∧
    (prepares 12287).journal.records.length < 12288 := by
  have h : ∀ n, (prepares n).journal.records.length = n := fun n => List.length_replicate
  refine ⟨⟨rfl, rfl, rfl, rfl, rfl, rfl⟩, by decide, h _, ?_⟩
  rw [h]
  decide
/-- 11.4's image: line 0 is MAINS-FAIL, active LOW, and its low level starts the rise (R196, R198); the label is station 6's
(R120). -/
theorem test_prepare :
    let t := after (.profileLoad (some image114)) (prepares 1)
    t.unit.lines.get 0 = ⟨.mainsFail, false, true, 0⟩ ∧ t.unit.lines.get 1 = ⟨.closeKey, true, false, 0⟩ ∧
      t.unit.mains = .rising 2000000 ∧ (t.owned 7).map (·.hearing.owner) = some 6 := by decide +kernel

/-- Label `n` is due at 1 s, behind label 42, due at 0, and label 43, due at 1 s. -/
def listed (n : Nat) : State :=
  let o (due : Nat) : Owned := { label1 with state := .updateDue due }
  { at7 with labels := { at7.labels with owned := [(42, o 0), (43, o 1000000), (n, o 1000000)] } }
/-- R80, R101: the third place of the update list. -/
theorem test_list_position : (after (.readLabel head3 1280017) (listed 1280017)).commands.places.get 14 =
    some ⟨40, 5, .done (.ownedLabel 1280017 17 (some 3) { label1 with state := .updateDue 1000000 })⟩ := by decide
theorem witness_ReadingCommandsReport :
    ((listed 1280017).Obeys head3 ∧ AMap.wf (listed 1280017).labels.owned = true ∧
      (listed 1280017).owned 1280017 = some { label1 with state := .updateDue 1000000 }) ∧
    (AMap.wf at7.labels.owned = true ∧ ∀ due, label1.state ≠ .updateDue due) ∧
    (∀ b, (shop b).Obeys head3) ∧ (shop none).entry 6 = none ∧ (shop none).entry 2 = some entryB ∧
    (at7.Obeys head3 ∧ at7.owned 1280017 = some label1 ∧ at7.owned 8 = none ∧ at7.heard 8 = none) ∧
    ((hears 7 5).Obeys head3 ∧ (hears 7 5).owned 7 = none ∧ (hears 7 5).heard 7 = some (heardOf 5)) ∧
    (∃ f, (base.heardFrom 14 id).figures 1 = some f) ∧ (9 : Nat) < 10 ∧
    (base.canSend = true ∧ base.trunk.notice.length < 64) ∧ { base with part := .listenOnly }.canSend = false :=
  ⟨⟨obeys_of (hears_of rfl rfl (by decide)) rfl rfl rfl, by decide, rfl⟩, ⟨by decide, by simp [label1]⟩,
   shop_obeys, rfl, rfl, ⟨at7_obeys, rfl, rfl, rfl⟩, ⟨obeys_of (hears_of rfl rfl (by decide)) rfl rfl rfl, rfl, rfl⟩, ⟨_, rfl⟩,
   by decide, by decide, by decide⟩

def told40 : State := base.remember 14 ⟨40, 1, .badCommand⟩
theorem witness_RepeatedCommandsAreNotActedOn :
    officeCommand (.setMode head3 2) = some (head3, 6) ∧ head3.dest = .station base.settings.station ∧
    ({ base with commands := { base.commands with restarting := true } }.Hears 14) ∧
    (told40.Hears 14 ∧ told40.commands.restarting = false ∧ told40.commands.places.get 14 = some ⟨40, 1, .badCommand⟩ ∧
      (⟨40, 1, .badCommand⟩ : OfficeReply).tag = head3.tag) :=
  ⟨rfl, rfl, hears_of rfl rfl (by decide), hears_of rfl rfl (by decide), rfl, rfl, rfl⟩

theorem witness_SpotPriceIsAppliedAndBroadcast :
    (∀ b, (shop b).Obeys head3) ∧ record312.fileSerial ≠ 0 ∧ change1.fileSerial = 0 ∧
    (((shop none).heardFrom 14 id).applyRecord change1).1 = .applied ∧
    (((shop none).heardFrom 14 id).applyRecord change1).2.canSend = true ∧
    (((shop none).heardFrom 14 id).applyRecord change1).2.trunk.notice.length < 64 ∧
    ((((shop none).heardFrom 14 id).applyRecord change1).2.entry 1).isSome = true ∧
    (((shop none).heardFrom 14 id).applyRecord { change1 with version := 1200 }).1 = .stale ∧
    (((shop none).heardFrom 14 id).applyRecord { change1 with version := 0 }).1 = .badRecord ∧
    (((shop none).heardFrom 14 id).applyRecord { change1 with kindCode := 2 }).1 = .kindMismatch :=
  ⟨shop_obeys, by decide, rfl, by decide, by decide, by decide, by decide, by decide, by decide, by decide⟩

theorem witness_CommandsOnModeSessionAndAlerts :
    base.Obeys head3 ∧ (1, Mode.open) ∈ [(1, Mode.open), (2, .late), (3, .closed)] ∧ (4 : Nat) ≤ 4 ∧
    ((base.heardFrom 14 id).labels.reference = none ∨ (base.heardFrom 14 id).labels.reference = some base.settings.station) ∧
    ((marked 0 64).Obeys head3 ∧ ((marked 0 64).heardFrom 14 id).labels.reference = some 5 ∧ (5 : Station) ≠ 3) ∧
    (65535 : Nat) < 65536 ∧ (86399 : Nat) < 86400 ∧
    ({ base with part := .listening }.Obeys head3) ∧
    ({ base with unit := { base.unit with mode := .distress } }.Obeys head3) ∧
    (base.part ≠ .listening ∧ base.unit.mode ≠ .distress ∧ (base.heardFrom 14 id).link.state.inProgress = false) ∧
    ((session .opening).Obeys head3 ∧ ((session .opening).heardFrom 14 id).link.state.inProgress = true) ∧
    ((∀ a ∈ (base.heardFrom 14 id).alerts.list, a.serial ≠ 2) ∧ ∃ a ∈ (base.heardFrom 14 id).alerts.list, a.serial = 1) ∧
    (base.part ≠ .listenOnly ∧ (base.heardFrom 14 id).trunk.notice.length < 64) ∧
    ({ base with part := .listenOnly }.Obeys head3) := by
  refine ⟨base_obeys, by decide, by decide, by decide, ⟨obeys_of (hears_of rfl rfl (by decide)) rfl rfl rfl, by decide, by decide⟩,
    by decide, by decide, obeys_of (hears_of rfl rfl (by decide)) rfl rfl rfl, obeys_of (hears_of rfl rfl (by decide)) rfl rfl rfl,
    by decide, ⟨obeys_of (hears_of rfl rfl (by decide)) rfl rfl rfl, by decide⟩, by decide, by decide,
    obeys_of (hears_of rfl rfl (by decide)) rfl rfl rfl⟩

/-! #### What every step keeps: a state of each kind, and a step from it -/

theorem witness_JournalStaysOrdered :
    (session .uploading).journal.Ok ∧
    step { session .uploading with pending := [.batchTaken 207 1] } = .next (after (.batchTaken 207 1) (session .uploading)) :=
  ⟨⟨by decide, by decide, by show ∀ r ∈ (session .uploading).journal.records, r.serial < 9005; decide,
    by show 1 ≤ 9005 ∧ 9005 ≤ 4294967295; decide, by decide⟩, rfl⟩

theorem witness_BasketsStayWithinLimits :
    State.BasketsOk (shop (some sale)) ∧
    step { shop (some sale) with pending := [.void 4 true 2] } = .next (after (.void 4 true 2) (shop (some sale))) := by
  refine ⟨fun l b h => ?_, rfl⟩
  have all : ∀ l : LaneNo, ((shop (some sale)).lane l).basket = none ∨ ((shop (some sale)).lane l).basket = some sale := by decide
  rcases all l with h' | h' <;> rw [h'] at h
  · simp at h
  · obtain rfl := Option.some.inj h
    exact witness_DealsNeverExceedRunningTotal.1

theorem witness_BookVersionsStayRising :
    (shop none).book.Ok ∧
    step { shop none with pending := [.shelfDoneReceived toAll [⟨2, 8⟩]] } = .next (after (.shelfDoneReceived toAll [⟨2, 8⟩]) (shop none)) := by
  refine ⟨⟨by decide, by decide, ?_⟩, rfl⟩
  intro x h
  have h' : x ∈ [(1, entryA), (2, entryB), (3, entryC), (4, entryD), (5, entryE)] := h
  simp only [List.mem_cons, List.not_mem_nil, or_false] at h'
  rcases h' with rfl | rfl | rfl | rfl | rfl <;>
    simp [Entry.Rising, entryA, entryB, entryC, entryD, entryE, changing]

theorem witness_LabelsStayOwnedOrHeard :
    (hears 3600042 5).labels.Ok ∧
    step { hears 3600042 5 with pending := [.claimExpiry 3600042] } = .next (after (.claimExpiry 3600042) (hears 3600042 5)) :=
  ⟨⟨rfl, rfl, fun n h => by
      have : (none : Option Owned).isSome = true := h
      simp at this, by decide⟩, rfl⟩

theorem witness_QueuesAndAlertsStayBounded :
    base.trunk.Bounded ∧ base.alerts.Ok ∧
    step { base with pending := [.malformedFrameReceived ⟨5, .station 3, .other⟩] } = .next (after (.malformedFrameReceived ⟨5, .station 3, .other⟩) base) :=
  ⟨fun c => by cases c <;> decide, by show 1 ≤ 64; decide, rfl⟩

/-! #### Witnesses of the statements' further parts -/

/-- Article 1 in CHANGING for version 1310, held out by station `n` alone, at age `age`, with a queued change or none. -/
def holding (n : Station) (age : Nat) (action : Action) (queued : Option Change) : State :=
  { at7 with
    book := { at7.book with entries :=
      [(1, { waiting18 with phase := .changing ⟨⟨1310, action, ⟨412, 25200⟩, 9⟩, queued, [⟨n, .none⟩], .at ⟨412, 46800⟩, age⟩ })] } }
def setTerms : Action := .set .each ⟨229, 0, 0⟩

theorem witness_ShelvesAreQueried :
    ((5 : Station) ≠ (holding 5 60 setTerms none).self ∧ ((holding 5 60 setTerms none).peer 5).state = .alive ∧
      ((holding 5 60 setTerms none).peer 5).kind = some .controller ∧ (holding 5 60 setTerms none).book.queryTimes = [] ∧
      (holding 5 60 setTerms none).canSend = true ∧ (holding 5 60 setTerms none).trunk.notice.length < 64 ∧
      (holding 5 60 setTerms none).book.entries.map (·.1) = [1] ∧ AMap.wf (holding 5 60 setTerms none).book.entries = true) ∧
    (((holding 12 60 setTerms none).peer 12).state ≠ .alive) ∧ AMap.wf at7.book.entries = true ∧
    ((holding 5 59 setTerms none).live = true ∧ (holding 5 59 setTerms none).part = .running ∧ (59 : Nat) ≤ 59) := by decide
/-- R15: the query of an article 60 s in CHANGING. -/
theorem test_query : (after .secondTimerExpiry (holding 5 59 setTerms none)).trunk.notice =
    [⟨some 5, .shelfQuery [⟨1, 1310⟩], .shelfQuestion, 0⟩] := by decide +kernel

/-- R19: the withdrawal of article 1 completes with a queued SET, and R86 unbinds its label. -/
def withdrawing : State := holding 5 60 .withdraw (some ⟨1315, .set .each ⟨219, 0, 0⟩, ⟨0, 0⟩, 0⟩)
theorem test_withdrawn :
    (after (.shelfDoneReceived toAll [⟨1, 1310⟩]) withdrawing).entry 1 = some
      { kind := .each, current := none, version := 1310, bound := 0, phase := .waiting ⟨1315, .set .each ⟨219, 0, 0⟩, ⟨0, 0⟩, 0⟩ } ∧
    ((after (.shelfDoneReceived toAll [⟨1, 1310⟩]) withdrawing).owned 1280017).map (fun o => (o.bound, o.target)) =
      some (none, .unbound) := by decide +kernel
theorem witness_WithdrawalsComplete :
    (withdrawing.Hears 5 ∧ toAll.dest = .all ∧ AMap.wf withdrawing.labels.owned = true ∧
      ((withdrawing.entry 1).map (·.phase)).isSome = true ∧ (1310 : Nat) ≤ 1310) ∧
    (let s : State := { withdrawing with unit := { withdrawing.unit with clock := some ⟨412, 46800⟩ } }
     s.live = true ∧ s.working = true ∧ s.deadlineReached
       { pending := ⟨1310, .withdraw, ⟨412, 25200⟩, 9⟩, queued := none, holdout := [⟨5, .none⟩]
         deadline := .at ⟨412, 46800⟩, age := 60 } = true) :=
  ⟨⟨hears_of rfl rfl (by decide), by decide⟩, by decide⟩

/-- Station 3 alone with its label of article 1, which shows version 1310. -/
def ownDone (n outstanding : Nat) : State :=
  let s := holding 3 60 setTerms none
  { s with
    labels := { s.labels with owned := [(1280017, { label1 with display := ⟨.price, some 1, 1310⟩ })] }
    book := { s.book with reports := List.replicate n ⟨2, 8⟩, outstanding := outstanding == 1 } }
theorem witness_OwnShelvesAreReported :
    ((ownDone 63 1).settings.labelService = true ∧ (ownDone 63 1).floor 1 = 1310 ∧
      (3 : Station) = (ownDone 63 1).self ∧ (ownDone 63 1).book.outstanding = true ∧ (ownDone 63 1).book.reports.length < 64) ∧
    64 ≤ (ownDone 64 1).book.reports.length ∧
    ((ownDone 0 0).book.outstanding = false ∧ (ownDone 0 0).book.reports = [] ∧ (ownDone 0 0).canSend = true ∧
      (ownDone 0 0).trunk.notice.length < 64) ∧ at7.floor 1 < 1310 ∧
    ([⟨2, 8⟩, ⟨1, 905⟩] : List Report) = [⟨2, 8⟩] ++ ⟨1, 905⟩ :: [] := by decide
/-- R12, R13, R18: this station is the last held out, and its report completes the change. -/
theorem test_own_report : (after (.ackReceived (ackOf 1280017 1310))
      { ownDone 0 0 with labels := { base.labels with owned := [(1280017, { label1 with lastSent := some ⟨.price, some 1, 1310⟩ })] } }).trunk.notice =
    [⟨none, .shelfDone [⟨1, 1310⟩], .reports, 0⟩] := by decide +kernel

/-- R83, R99: the UNBIND of this station's last label leaves no floor for the changing article to wait for. -/
theorem test_unbind_changing :
    ((after (.unbind head3 1280017) (ownDone 0 0)).entry 1).map (fun e => (e.version, e.phase)) = some (1310, .steady) ∧
    (after (.unbind head3 1280017) (ownDone 0 0)).commands.places.get 14 =
      some ⟨40, 4, .done (.label .unbound (.updateDue 0))⟩ := by decide +kernel
theorem witness_UnbindBlanksTheLabel :
    (ownDone 0 0).Obeys head3 ∧ (ownDone 0 0).settings.labelService = true ∧
    (ownDone 0 0).owned 1280017 = some { label1 with display := ⟨.price, some 1, 1310⟩ } ∧ (∀ m, label1.state ≠ .moving m) ∧
    label1.bound = some 1 ∧ (∃ e c, (ownDone 0 0).entry 1 = some e ∧ e.phase = .changing c) :=
  ⟨obeys_of (hears_of rfl rfl (by decide)) rfl rfl rfl, rfl, rfl, by simp [label1], rfl, ⟨_, _, rfl, rfl⟩⟩

theorem witness_WorseBatteryIsAlerted : at7.owned 1280017 = some label1 ∧ label1.battery = .good ∧ at7.owned 8 = none := by decide
/-- R92, R96, R119: an ACK that answers an adoption MOVE makes an UPDATE-DUE label SHOWING, with its battery and level, and
is recorded; one of a HEARD label is a stray all the same. -/
theorem test_adoption_ack :
    let s : State := { ownedIn { listedLabel with lastSent := some ⟨.price, some 1, 905⟩, attempts := 3, power := 4 } with labels :=
      { (ownedIn { listedLabel with lastSent := some ⟨.price, some 1, 905⟩, attempts := 3, power := 4 }).labels with
        adoptions := [⟨presenceOf 1280017 (-260), 802, 1, none⟩] } }
    let t := after (.ackReceived { ackOf 1280017 905 with common := true, battery := .empty }) s
    let heard := after (.ackReceived { ackOf 7 905 with common := true })
      { adopting with labels := { adopting.labels with adoptions := [⟨presenceOf 7 (-260), 802, 1, none⟩] } }
    (t.owned 1280017).map (fun o => (o.state, o.battery, o.attempts, o.power)) = some (.showing, .empty, 0, 3) ∧
      t.labels.adoptions.map (·.ack) = [some (ackOf 1280017 905).owner] ∧
      heard.count .strayAcks = 1 ∧ heard.labels.adoptions.map (·.ack) = [some (ackOf 7 905).owner] := by decide +kernel
/-- R96: the battery of a presence that names another station is an OWNED label's, which then drops. -/
theorem test_dropped_battery :
    (after (.presenceReceived { presenceOf 1280017 (-260) with battery := .low }) at7).alerts.list.map (·.detail) =
      [.cause .powerOn, .battery .low] := by decide +kernel
theorem witness_OwnedDropsToHeard : label1.bound = some 1 ∧ sentLabel.bound = none := by decide

def orphanOf (n : Nat) (x : Int) : PresencePacket := { presenceOf n x with orphan := true }
def orphanage : State :=
  { base with labels := { base.labels with heard := [(7, { heardOf 4 with hearing := { (heardOf 4).hearing with smoothed := none } })]
                                           aligned := true, cycle := 802 } }
theorem witness_OrphansAreAnswered :
    (orphanage.live = true ∧ orphanage.serving = true ∧ orphanage.settings.labelService = true ∧ (orphanOf 7 (-340)).orphan = true ∧
      orphanage.owned 7 = none ∧ (orphanage.heard 7).isSome = true ∧ orphanage.part = .running ∧ orphanage.labels.aligned = true ∧
      -340 ≤ smooth none (orphanOf 7 (-340)).level ∧ smooth none (orphanOf 7 (-341)).level < -340) := by decide
theorem test_orphan : (after (.presenceReceived (orphanOf 7 (-340))) orphanage).out = [.radio (.move none 7 3 2 0)] := by decide
/-- R110: the entry of an adopted label has given way; its level and cycle are its presence's. -/
theorem test_adopted_evicted :
    let s : State := { base with labels := { base.labels with adoptions := [⟨presenceOf 7 (-260), 802, 1, some 3⟩] } }
    ((after .presenceWindowEnd s).owned 7).map (fun o => (o.hearing.smoothed, o.hearing.lastCycle)) = some (some (-260), 802) := by
  decide

/-- 6.7, cycle 802: the margin above the owner's level, and the least claim age. -/
def claiming (age : Nat) (ownerLevel : Int) (notice : List Frame) : State :=
  { hearing67 with
    labels := { hearing67.labels with heard := [(3600042, { hearing := ⟨some (-260), 801, 4, some ownerLevel, 1⟩
                                                            claimAge := some age, claimed := false })] }
    trunk := { hearing67.trunk with notice := notice } }
theorem witness_HeardLabelsAreClaimed :
    (let s := claiming 8 (-272) []
     s.live = true ∧ s.serving = true ∧ s.settings.labelService = true ∧ (presenceOf 3600042 (-260)).orphan = false ∧
       (presenceOf 3600042 (-260)).owner ≠ s.self ∧ s.owned 3600042 = none ∧ (s.heard 3600042).isSome = true ∧ s.part = .running ∧
       s.labels.aligned = true ∧ (s.peer 4).kind = some .controller ∧ (s.peer 4).state = .alive ∧
       smooth (some (-260)) (-260) = -260 ∧ (-284 : Int) + 4 * (s.settings.claimMargin : Int) ≤ -260) ∧
    (-260 : Int) < -283 + 4 * ((claiming 8 0 []).settings.claimMargin : Int) ∧
    64 ≤ (claiming 8 (-284) (List.replicate 64 doneFrame)).trunk.notice.length := by decide
theorem test_claim_age :
    (after (.presenceReceived (presenceOf 3600042 (-260))) (claiming 7 (-284) [])).trunk.notice = [] ∧
    (after (.presenceReceived (presenceOf 3600042 (-260))) (claiming 8 (-284) [])).trunk.notice =
      [⟨some 4, .labelClaim 3600042 3 2 (-260), .label, 0⟩] := by decide

/-- 6.7 at station 4, here 3: the label is MOVING to station 5. -/
def moving67 (air : Bool) (attempts slot : Nat) : State :=
  { at7 with
    book := { at7.book with entries := [(1, { entryA with bound := 1 })] }
    labels := { at7.labels with owned := [(3600042, { label1 with state := .moving ⟨5, 1, -240, air⟩, attempts := attempts })]
                                aligned := true, slot := slot, slotEnd := some 5 } }
theorem witness_MovesAreMadeAndEnd :
    (∀ air n k, (moving67 air n k).owned 3600042 = some { label1 with state := .moving ⟨5, 1, -240, air⟩, attempts := n }) ∧
    ((moving67 false 0 42).mayFill = true ∧ (moving67 false 0 42).movers 42 = [3600042] ∧ (moving67 false 0 42).updates = []) ∧
    ((moving67 true 5 42).canSend = true ∧ (moving67 true 5 42).trunk.notice.length < 64) ∧
    ((moving67 true 0 42).live = true ∧ (moving67 true 0 42).serving = true ∧ (moving67 true 0 42).settings.labelService = true ∧
      label1.current = true ∧ { ackOf 3600042 1200 with owner := 5 }.owner = 5 ∧
      { presenceOf 3600042 (-260) with owner := 5 }.owner ≠ (moving67 true 0 42).self) :=
  ⟨fun _ _ _ => rfl, by decide, by decide, by decide⟩
theorem test_move : (after .slotEnd (moving67 false 0 41)).out =
    [.radio (.header 2 3 0 42 16), .radio (.move (some 2) 3600042 5 1 0)] := by decide
/-- 6.7, cycle 819: the ACK names the claimant, and the record is handed over. -/
theorem test_moved : (after (.ackReceived { ackOf 3600042 1200 with owner := 5 }) (moving67 true 0 42)).trunk.notice =
    [⟨some 5, .labelHandover { handover67 with label := 3600042 }, .label, 0⟩] := by decide

def reference3 (urgent : List Frame) : State :=
  { base with
    labels := { base.labels with reference := some 3, slot := 127, cycle := 76, slotEnd := some 1125000, length := 16 }
    trunk := { base.trunk with urgent := urgent } }
theorem witness_MarksAreSent :
    (∀ u, (reference3 u).live = true ∧ (reference3 u).serving = true ∧ (reference3 u).labels.slotEnd = some 1125000 ∧
      (reference3 u).labels.reference = some (reference3 u).settings.station ∧ (reference3 u).settings.labelService = true ∧
      (reference3 u).part = .running) ∧
    (reference3 (List.replicate 7 doneFrame)).trunk.urgent.length < 8 ∧ 8 ≤ (reference3 (List.replicate 8 doneFrame)).trunk.urgent.length :=
  ⟨fun _ => ⟨rfl, rfl, rfl, rfl, rfl, rfl⟩, by decide, by decide⟩
/-- R105: the reference's CYCLE-MARK carries the new cycle, its length and the store time. -/
theorem test_mark_sent : (after .slotEnd (reference3 [])).trunk.urgent = [⟨none, .cycleMark 77 16 none, .mark, 0⟩] := by decide
/-- R106, R191: a mark's store time sets the clock. -/
theorem test_mark_time : (after (.cycleMarkReceived toAll 77 64 (some ⟨412, 25200⟩)) (marked 0 64)).unit.clock = some ⟨412, 25200⟩ := by
  decide +kernel

/-- R137: a BEACON of this station's own number with a bad length is a clash all the same. -/
theorem test_malformed_clash :
    (after (.malformedFrameReceived ⟨3, .all, .beacon⟩) base).part = .listenOnly ∧
    (after (.malformedFrameReceived ⟨3, .all, .other⟩) base).part = .running := by decide
/-- R131 step 4, R135: a malformed CYCLE-MARK shows label service. -/
theorem test_malformed_mark : ((after (.malformedFrameReceived ⟨7, .all, .cycleMark⟩) base).peer 7).labelService = true := by decide

theorem witness_ActingOutcomes :
    ((relayOf (guestParcel 1) 3).purpose = .relayOut ∧ 3 ≤ (relayOf (guestParcel 1) 3).attempts ∧ (guestParcel 1).cls ≠ .till) ∧
    (replyParcel.cls = .till ∧ replyParcel.port = .lane 4 ∧ AMap.get authing.fwd.pendingTable 4 = some ⟨12, .local true⟩ ∧
      replyParcel.tag = 12 ∧ (authing.lane 4).flight = some ⟨12, false, 20000000⟩) ∧
    (let s : State := { authing with trunk := { base.trunk with urgent := [relayOf replyParcel 3], inAir := some .urgent } }
     s.canSend = true ∧ (∀ f ∈ s.trunk.urgent, f.body.trunkClass = .urgent ∧ f.fits = true) ∧ s.trunk.notice = [] ∧
       s.trunk.bulk = [] ∧ s.trunk.hold .urgent = []) ∧
    (⟨none, .shelfDone [⟨1, 1310⟩], .reports, 3⟩ : Frame).purpose = .reports ∧
    (⟨none, .shelfDone [⟨1, 1310⟩], .reports, 3⟩ : Frame).fits = true ∧ [doneFrame].length < 64 := by decide
/-- R154: the AUTH's RELAY frame is dropped after its fourth failure, and its lane is answered. -/
theorem test_relay_dropped :
    let s : State := { authing with trunk := { base.trunk with urgent := [relayOf replyParcel 3], inAir := some .urgent } }
    (after (.trunkAttemptEnd false false) s).out = [.laneReply 4 false .noRoute] := by decide

def guestAt (a seen : Nat) : Guest := { guest77 100 with address := a, lastSeen := seen }
def guestRoom (gs : List Guest) (holder : Option Station) (bulk : List Frame) : State :=
  { base with
    now := 600000001, settings := { fitted with guestRelay := true }
    trunk := { base.trunk with bulk := bulk }
    fwd := { base.fwd with guests := gs, holder := holder } }
theorem witness_GuestsAreAdmittedAndRelayed :
    (let s := guestRoom (List.replicate 127 (guestAt 78 1)) (some 7) []
     s.live = true ∧ s.serving = true ∧ s.settings.guestService = true ∧ s.unit.mode = .late ∧ s.fwd.guests.length < 128 ∧
       (∀ g ∈ s.fwd.guests, g.address ≠ 77)) ∧
    (let s := guestRoom (guestAt 76 0 :: List.replicate 127 (guestAt 78 1)) (some 7) []
     128 ≤ s.fwd.guests.length ∧ s.fwd.guests = [] ++ guestAt 76 0 :: List.replicate 127 (guestAt 78 1) ∧
       (guestAt 76 0).lastSeen + Config.minutes 10 < s.now ∧
       ∀ x ∈ [] ++ List.replicate 127 (guestAt 78 1), (guestAt 76 0).lastSeen < x.lastSeen ∧ x.address ≠ (guestAt 76 0).address) ∧
    (let s := guestRoom [] (some 7) (List.replicate 31 doneFrame)
     s.fwd.up = false ∧ s.fwd.holder = some 7 ∧ s.settings.guestRelay = true ∧ s.canSend = true ∧ s.trunk.bulk.length < 32) ∧
    32 ≤ (guestRoom [] (some 7) (List.replicate 32 doneFrame)).trunk.bulk.length := by
  refine ⟨⟨rfl, rfl, rfl, rfl, ?_, ?_⟩, ⟨?_, rfl, ?_, ?_⟩, ⟨rfl, rfl, rfl, rfl, ?_⟩, ?_⟩
  all_goals simp [guestRoom, guestAt, guest77, Config.minutes, Config.seconds, -List.reduceReplicate]
theorem witness_GuestRepliesReachTheirGuest :
    (let p : Parcel := { guestParcel 15 with guest := some 77 }
     p.cls = .guest ∧ p.port = .guest ∧ p.guest = some 77 ∧ p.origin = (hosting 14).settings.station ∧ p.payload.length = 15 ∧
       p.status = .data) ∧
    ((hosting 14).live = true ∧ (hosting 14).serving = true ∧ (hosting 14).fwd.guests = [] ++ guest77 14 :: [] ∧
      (guest77 14).level < 15 ∧ 15 ≤ (guest77 15).level ∧ base.fwd.guests = []) ∧
    ((hosting 15).Hears 5 ∧ fromFive.dest = .station (hosting 15).settings.station ∧ (hosting 15).part ≠ .listenOnly) :=
  ⟨by decide, by decide, hears_of rfl rfl (by decide), by decide, by decide⟩
theorem test_guest_reply : (after (.uplinkParcelReceived (guestParcel 15)) (hosting 15)).out = [.guestReply 77 (bytes 15)] := by
  decide

/-- A label bound to article 1, in each state in which an ACK or a presence finds it. -/
def boundIn (st : LabelState) (attempts : Nat) : Owned :=
  { label1 with state := st, attempts := attempts, lastSent := some ⟨.price, some 1, 1200⟩ }
theorem witness_BoundLabelsAreHeard :
    (∀ st n, (ownedIn (boundIn st n)).live = true ∧ (ownedIn (boundIn st n)).serving = true ∧
      (ownedIn (boundIn st n)).settings.labelService = true ∧ (ownedIn (boundIn st n)).owned 1280017 = some (boundIn st n) ∧
      (boundIn st n).bound = some 1 ∧ (ownedIn (boundIn st n)).labels.adoptions = []) ∧
    ((∃ d, (boundIn (.sent 7) 5).lastSent = some d ∧ d.version = (ackOf 1280017 1200).version ∧
      d.version ≠ (ackOf 1280017 1201).version) ∧ 5 ≤ (boundIn (.sent 7) 5).attempts) ∧
    ((presenceOwn 1280017).owner = at7.self ∧ (presenceOf 1280017 0).owner ≠ at7.self ∧ (presenceOf 1280017 0).owner ≠ 5 ∧
      (presenceOf 1280017 0).orphan = false) ∧
    ((ownedIn (boundIn (.moving ⟨5, 1, -240, false⟩) 0)).canSend = true ∧
      ((ownedIn (boundIn (.moving ⟨5, 1, -240, false⟩) 0)).takeBattery 1280017 .good).trunk.notice.length < 64) ∧
    (let s : State := { ownedIn (boundIn (.sent 7) 5) with labels := { (ownedIn (boundIn (.sent 7) 5)).labels with slotEnd := some 9 } }
     s.labels.slotEnd = some 9 ∧ s.inTurn = [1280017] ∧ s.mayFill = false ∧ s.labels.slot < 127) :=
  ⟨fun _ _ => ⟨rfl, rfl, rfl, rfl, rfl, rfl⟩, ⟨⟨_, rfl, by decide, by decide⟩, by decide⟩, by decide, by decide, by decide⟩
/-- R94: the sixth unanswered attempt of a bound label. -/
theorem test_sixth : ((ownedIn (boundIn (.sent 7) 5)).endTurn 1280017).alerts.list.map (·.detail) =
    [.cause .powerOn, .lost (some 1) 1200] := by decide +kernel

/-- The part alone in its store, with no label bound: the change completes as it starts (R10, R12). -/
def alone : State := { at7 with trunk := Trunk.initial, labels := base.labels }
theorem witness_DueChangesStart :
    (at7.live = true ∧ at7.working = true ∧ AMap.wf at7.labels.owned = true ∧ waiting18.current ≠ none ∧ at7.newHoldout ≠ [] ∧
      at7.shelfDone 1 1310 = false) ∧
    (alone.working = true ∧ AMap.wf alone.labels.owned = true ∧ alone.entry 1 = some waiting18 ∧ alone.settings.labelService = true ∧
      alone.shelfDone 1 1310 = true ∧ alone.newHoldout.filter (fun h => h.station != alone.self) = []) ∧
    (1 ≤ (List.replicate 64 (⟨3, 10⟩ : Report)).length ∧ (List.replicate 64 (⟨3, 10⟩ : Report)).length ≤ 64) := by decide
theorem test_alone : ((after .secondTimerExpiry alone).entry 1).map (fun e => (e.version, e.phase)) = some (1310, .steady) := by
  decide +kernel

/-- A basket to close at the watermark, in LATE. -/
def crossing : State := watermark 1
theorem witness_EarlyAttemptsAreStarted :
    (base.working = true ∧ base.unit.mode = .late ∧ base.link.state.inProgress = false ∧ base.link.lastEarly = none) ∧
    { base with part := PartState.listening }.part = .listening ∧
    (crossing.TakesNew 4 true .close ∧ (crossing.lane 4).basket = some totalled ∧ totalled.result = some ⟨2486, 40, true⟩ ∧
      crossing.journal.counter = .next 1 ∧ crossing.journal.records.length + 1 = crossing.settings.highWatermark ∧
      crossing.working = true ∧ crossing.unit.mode = .late ∧ crossing.link.lastEarly = none) ∧
    (let s : State := { base with part := .listening, listenTimer := some 9, link := { base.link with earlyPending := true } }
     s.live = true ∧ s.listenTimer = some 9 ∧ s.part = .listening ∧ s.link.earlyPending = true ∧ s.link.state.inProgress = false) :=
  ⟨by decide, rfl, ⟨watermark_takesNew 1, rfl, rfl, rfl, by decide, by decide, by decide, by decide⟩, by decide⟩
/-- R171: the CLOSE that crosses the watermark starts an attempt. -/
theorem test_early : (after (.close 4 true .cash) crossing).count .startedEarly = 1 := by decide +kernel

/-- 9.8, 01:00:20: the share of a file of one record. -/
def shared (share : Option Nat) (notice : List Frame) : State :=
  { collecting with
    settings := fitted
    staging := { collecting.staging with records := [(0, record312)], share := share }
    trunk := { base.trunk with notice := notice } }
theorem witness_SessionFilesAreShared :
    (let s := shared (some 0) (List.replicate 61 doneFrame)
     s.staging.share = some 0 ∧ s.canSend = true ∧ s.staging.count.getD 0 = 1 ∧ s.trunk.notice.length + 3 ≤ 64) ∧
    (let s := shared (some 1) (List.replicate 64 doneFrame)
     64 ≤ s.trunk.notice.length ∧ s.trunk.holdNotice = []) ∧
    ({ shared (some 0) [] with part := .listenOnly }.canSend = false ∧ (shared (some 0) []).staging.released = false) ∧
    ((shared none []).live = true ∧ (shared none []).serving = true ∧ (shared none []).link.state = .downloading ∧
      (shared none []).staging.owner = .session ∧ (shared none []).staging.phase = .collecting ∧
      (shared none []).link.newest = some 312 ∧ (shared none []).staging.passes = true ∧ (shared none []).fwd.up = true ∧
      (shared none []).settings.share = true ∧ collecting.settings.share = false) := by
  refine ⟨?_, ?_, ?_, ?_⟩ <;> decide +kernel
theorem test_share : ((after (.fileEnd 207 312) (shared none [])).trunk.notice.map (·.body)) =
    [.fileAnnounce 312 1 2897681239, .priceChange 312 0 [record312], .fileClose 312 1 2897681239] := by decide +kernel

/-! ### Reply bytes (12.7): numbers not in 12.1 take 4 bytes, and names are numbered from 1 -/

theorem test_reply_bytes :
    stationBytes 12 = [0, 0, 0, 12] ∧ lineUseCode .none = 1 ∧ lineUseCode .sessionKey = 4 ∧
    (bodyBytes 3 (.officeReply ⟨40, 9, .done (.alerts [] 1 0)⟩)).length = 13 := by decide

/-! #### Prices, card authorisations and own-number frames -/

/-- 3.7's terms of article 3 with no change pending. -/
def termsC0 : TermsRecord := { termsC with pending := none }
def plainSale : Basket := { sale with terms := [termsA, termsB, termsC0] }
theorem witness_LineAmountsAndLeastCharges :
    (termsA.pending = none ∧ termsB.pending = some (⟨1749, 0, 0⟩, 8)) ∧
    (termsA ∈ sale.terms ∧ termsA.kind ≠ .multi) ∧
    (plainSale.Ok ∧ termsC0 ∈ plainSale.terms ∧ termsC0.kind = .multi ∧ termsC0.pending = none) :=
  ⟨by decide, by decide, ⟨by decide, by decide, by decide, by decide, by decide⟩, by decide, rfl, rfl⟩

theorem witness_AuthRepliesReachTheirLane :
    (∀ p, AMap.get authing.fwd.pendingTable 4 = some p → p = ⟨12, .local true⟩) ∧
    ({ replyParcel with payload := [] }.status = .data ∧ ¬ 1 ≤ { replyParcel with payload := [] }.payload.length) ∧
    ({ replyParcel with payload := bytes 513 }.status = .data ∧ ¬ { replyParcel with payload := bytes 513 }.payload.length ≤ 512 ∧
      { replyParcel with payload := bytes 513 }.payload.length ≤ 1500) ∧
    ({ replyParcel with tag := 11 }.tag ≠ 12 ∧ { replyParcel with status := .busy }.status ≠ .data) ∧
    (let s := authing.withLane 4 fun x => { x with flight := none }
     AMap.get s.fwd.pendingTable 4 = some ⟨12, .local true⟩ ∧ (s.lane 4).flight = none) := by
  refine ⟨fun p h => ?_, ?_, ?_, ?_, ?_⟩
  · have : some (⟨12, .local true⟩ : PendingAuth) = some p := h
    exact (Option.some.inj this).symm
  all_goals first | (simp [bytes, replyParcel, -List.reduceReplicate]; done) | decide
/-- R48, R155: a reply that the lane cannot carry is discarded, and the next one ends the AUTH. -/
theorem test_uncarried :
    let s := after (.uplinkParcelReceived { replyParcel with payload := [] }) authing
    s.out = [] ∧ (s.lane 4).lateReplies = 1 ∧ (after (.uplinkParcelReceived replyParcel) s).out =
      [.laneReply 4 false (.authReply [1, 2, 3])] := by decide

/-- R48, R155: a reply after TIMEOUT has no entry, and is counted by both rules. -/
theorem test_late_reply :
    let s := after (.uplinkParcelReceived replyParcel) (after (.authTimeout 4) authing)
    s.count .repliesNoEntry = 1 ∧ (s.lane 4).lateReplies = 1 ∧ s.out = [.laneReply 4 false .timeout] := by decide

theorem witness_OwnNumberFramesAreCounted :
    deliveredFrom (.relayReceived { fromFive with src := 3 } replyParcel) = some base.settings.station ∧
    deliveredFrom (.setMode { head3 with src := 3 } 2) = some base.settings.station ∧ base.live = true ∧ base.serving = true :=
  ⟨rfl, rfl, rfl, rfl⟩

/-! #### Labels -/

/-- A label of the given binding and target whose update is due. -/
def dueFor (bound : Option Nat) (a v : Nat) : Owned := { label1 with bound := bound, state := .updateDue 0, target := .price a v }
/-- The book of 3.7 and the one OWNED label 1,280,017. -/
def shelving (o : Owned) : State := { shop none with labels := { base.labels with owned := [(1280017, o)] } }
theorem witness_TurnsAreRedirected :
    (∀ b a v, (shelving (dueFor b a v)).owned 1280017 = some (dueFor b a v) ∧ (dueFor b a v).state = .updateDue 0 ∧
      (dueFor b a v).target = .price a v ∧ (dueFor b a v).bound = b) ∧
    ((shelving (dueFor (some 5) 5 1)).displayTerms 5 1 = none ∧ (shop none).entry 5 = some entryE ∧ entryE.withdrawing = true) ∧
    ((shelving (dueFor (some 2) 2 6)).displayTerms 2 6 = none ∧ (shop none).entry 2 = some entryB ∧ entryB.withdrawing = false ∧
      (shelving (dueFor (some 2) 2 6)).displayTerms 2 entryB.visible = some (.weighed, ⟨1749, 0, 0⟩)) ∧
    ((shelving (dueFor (some 6) 6 1)).displayTerms 6 1 = none ∧ (shop none).entry 6 = none) :=
  ⟨fun _ _ _ => ⟨rfl, rfl, rfl, rfl⟩, ⟨rfl, rfl, rfl⟩, ⟨rfl, rfl, rfl, rfl⟩, rfl, rfl⟩
/-- R89: version 6 of article 2 is no longer to be shown, and its pending version 8 is sent. -/
theorem test_redirected : ((shelving (dueFor (some 2) 2 6)).takeTurn 1280017).out =
    [.radio (.show 2 1280017 2 8 .weighed ⟨1749, 0, 0⟩ 0)] := by decide

/-- A label HEARD at the place `stamp` in the order of hearing, its claim outstanding or not. -/
def heardAt (stamp : Nat) (claimed : Bool) : Heard :=
  { heardOf 4 with hearing := { (heardOf 4).hearing with stamp := stamp }, claimed := claimed, claimAge := some 15 }
def fullRoomOf (l : List Nat) (claimed : Bool) : State :=
  { at7 with labels := { base.labels with owned := l.map fun i => (i + 10, label1)
                                          heard := [(7, heardAt 3 claimed), (8, heardAt 2 true)] } }
theorem fullRoom_low {n : Nat} (l : List Nat) (c : Bool) (h : n < 10) : (fullRoomOf l c).owned n = none := by
  show AMap.get (l.map fun i => (i + 10, label1)) n = none
  induction l with
  | nil => rfl
  | cons i l ih => simp [AMap.get, ih]; omega
theorem fullRoom_heard (l : List Nat) (c : Bool) (n : Nat) : (fullRoomOf l c).heard n =
    if n = 7 then some (heardAt 3 c) else if n = 8 then some (heardAt 2 true) else none := by
  show AMap.get [(7, heardAt 3 c), (8, heardAt 2 true)] n = _
  simp only [AMap.get, eq_comm]
theorem fullRoom_ok (l : List Nat) (c : Bool) (h : l.Pairwise (· < ·)) (hl : l.length ≤ 2046) : (fullRoomOf l c).labels.Ok := by
  have low (n : Nat) (hn : n < 10) : ¬ ((fullRoomOf l c).owned n).isSome = true := by rw [fullRoom_low l c hn]; simp
  refine ⟨?_, by cases c <;> rfl, fun n ho => ?_, ?_⟩
  · rw [AMap.wf_iff]
    show ((l.map fun i => (i + 10, label1)).map (·.1)).Pairwise (· < ·)
    rw [List.map_map, List.pairwise_map]
    exact h.imp fun h => by simpa using h
  · show (fullRoomOf l c).heard n = none
    rw [fullRoom_heard, if_neg (fun h => low n (by omega) ho), if_neg (fun h => low n (by omega) ho)]
  · show (l.map fun i => (i + 10, label1)).length + 2 ≤ 2048
    rw [List.length_map]; omega
theorem fullRoom_size (l : List Nat) (c : Bool) (h : 2046 ≤ l.length) :
    2048 ≤ (fullRoomOf l c).labels.owned.length + (fullRoomOf l c).labels.heard.length := by
  show 2048 ≤ (l.map fun i => (i + 10, label1)).length + 2
  rw [List.length_map]; omega
def fullRoom (claimed : Bool) : State := fullRoomOf (List.range 2046) claimed
theorem witness_BindRebindsAndMakesRoom :
    ((shelving label1).Obeys head3 ∧ (shelving label1).settings.labelService = true ∧ (shelving label1).entry 1 = some entryA ∧
      entryA.current ≠ none ∧ (shelving label1).heard 1280017 = none ∧ (shelving label1).owned 1280017 = some label1 ∧
      label1.bound = some 1 ∧ (∀ m, label1.state ≠ .moving m) ∧ (shelving label1).entry 2 = some entryB ∧
      entryB.current ≠ none ∧ (∀ f c, (shelving label1).entry 1 = some f → f.phase ≠ .changing c)) ∧
    (let o : Owned := { label1 with bound := some 2 }
     (shelving o).owned 1280017 = some o ∧ o.bound = some 2 ∧ (∀ m, o.state ≠ .moving m) ∧
       ((shelving o).entry 2).map (·.phase) = some (changing 8 (.set .weighed ⟨1749, 0, 0⟩) [⟨5, .none⟩])) ∧
    (∀ c, (fullRoom c).Obeys head3 ∧ (fullRoom c).settings.labelService = true ∧ (fullRoom c).entry 1 = some waiting18 ∧
      (fullRoom c).heard 5 = none ∧ (fullRoom c).owned 5 = none ∧ (fullRoom c).labels.Ok ∧
      2048 ≤ (fullRoom c).labels.owned.length + (fullRoom c).labels.heard.length) ∧
    ((fullRoom false).heard 7 = some (heardAt 3 false) ∧ (heardAt 3 false).claimed = false ∧
      ∀ m y, (fullRoom false).heard m = some y → m ≠ 7 → y.claimed = true ∧ ∀ k, y.claimAge = some k → k < 16) ∧
    ((fullRoom true).heard 8 = some (heardAt 2 true) ∧
      ∀ m y, (fullRoom true).heard m = some y → (y.claimed = true ∧ ∀ k, y.claimAge = some k → k < 16) ∧
        (m ≠ 8 → (heardAt 2 true).hearing.stamp < y.hearing.stamp)) := by
  have obey (s : State) (h1 : s.live = true) (h2 : s.serving = true) (h3 : s.settings.station = 3)
      (h4 : s.commands = base.commands) : s.Obeys head3 :=
    obeys_of (hears_of h1 h2 (by rw [h3]; decide)) h3 (by rw [h4]; rfl) (by rw [h4]; rfl)
  refine ⟨⟨obey _ rfl rfl rfl rfl, rfl, rfl, by decide, rfl, rfl, rfl, by simp [label1], rfl, by decide, ?_⟩,
    ⟨rfl, rfl, by simp [label1], rfl⟩,
    fun c => ⟨obey _ rfl rfl rfl rfl, rfl, rfl, by rw [fullRoom, fullRoom_heard]; rfl, fullRoom_low _ c (by decide), fullRoom_ok _ c List.pairwise_lt_range (by rw [List.length_range]), ?_⟩,
    ⟨by rw [fullRoom, fullRoom_heard]; rfl, rfl, fun m y h h7 => ?_⟩, by rw [fullRoom, fullRoom_heard]; rfl, fun m y h => ?_⟩
  · intro f c h
    have : some entryA = some f := h
    obtain rfl := Option.some.inj this
    simp [entryA]
  · exact fullRoom_size _ c (by rw [List.length_range])
  · rw [fullRoom, fullRoom_heard, if_neg h7] at h
    split at h
    · obtain rfl := Option.some.inj h; simp [heardAt]
    · simp at h
  · rw [fullRoom, fullRoom_heard] at h
    split at h
    · obtain rfl := Option.some.inj h; simp [heardAt]
    · split at h
      · obtain rfl := Option.some.inj h; simp [heardAt, *]
      · simp at h

/-- A label table of 2,048 OWNED entries. -/
theorem witness_NewLabelsAreTaken :
    (fullTable.live = true ∧ fullTable.serving = true ∧ fullTable.settings.labelService = true ∧ (presenceOf 5 (-260)).orphan = false ∧
      fullTable.owned 5 = none ∧ fullTable.heard 5 = none ∧ fullTable.labels.heard = [] ∧ 2048 ≤ fullTable.labels.owned.length ∧
      (presenceOwn 5).owner = fullTable.self ∧ (presenceOf 5 (-260)).owner ≠ fullTable.self) ∧
    (hearing67.live = true ∧ hearing67.serving = true ∧ hearing67.settings.labelService = true ∧ hearing67.owned 7 = none ∧
      hearing67.heard 7 = none ∧ hearing67.labels.owned.length + hearing67.labels.heard.length < 2048 ∧
      (presenceOf 7 (-300)).owner ≠ hearing67.self ∧ hearing67.part = .running ∧ hearing67.labels.aligned = true ∧
      (hearing67.peer 4).kind = some .controller ∧ (hearing67.peer 4).state = .alive ∧ -300 ≤ smooth none (presenceOf 7 (-300)).level ∧
      ¬ -300 ≤ smooth none (presenceOf 7 (-301)).level ∧ hearing67.trunk.notice.length < 64) ∧
    (at7.owned 7 = none ∧ at7.heard 7 = none ∧ at7.labels.owned.length + at7.labels.heard.length < 2048 ∧
      (presenceOwn 7).owner = at7.self ∧ (presenceOwn 7).display.form = .price ∧ (presenceOwn 7).display.article = some 1 ∧
      at7.entry 1 = some waiting18 ∧ waiting18.current ≠ none) ∧
    ((hears 7 5).heard 7 = some (heardOf 5) ∧ (presenceOwn 7).owner = (hears 7 5).self ∧ (hears 7 5).owned 7 = none ∧
      { presenceOwn 7 with display := ⟨.blank, none, 0⟩ }.display.form = .blank ∧
      { presenceOwn 7 with display := ⟨.price, some 4, 0⟩ }.display.article = some 4 ∧
      ∀ e, (hears 7 5).entry 4 = some e → e.current = none) := by
  refine ⟨⟨rfl, rfl, rfl, rfl, get_replicate label1 2048 1280017 5 (by decide), rfl, rfl, ?_, rfl, ?_⟩, ?_, ?_, rfl, rfl, rfl, rfl, rfl, ?_⟩
  · simp [fullTable, -List.reduceReplicate]
  · show (4 : Station) ≠ 3; decide
  · decide
  · decide
  · intro e h
    have : some entryD = some e := h
    obtain rfl := Option.some.inj this
    rfl
/-- R110: a label that displays no price is taken in unbound. -/
theorem test_taken_unbound : ((after (.presenceReceived { presenceOwn 7 with display := ⟨.blank, none, 0⟩ }) (hears 7 5)).owned 7).map
    (fun o => (o.bound, o.target, o.state)) = some (none, .unbound, .showing) := by decide

theorem witness_OrphansOfEveryRoleAreAnswered :
    (∀ x, (orphanOf 1280017 x).orphan = true ∧ (orphanOf 8 x).orphan = true) ∧
    (let s : State := { at7 with labels := { at7.labels with aligned := true } }
     s.live = true ∧ s.serving = true ∧ s.settings.labelService = true ∧ s.owned 1280017 = some label1 ∧ s.part = .running ∧
       s.labels.aligned = true ∧ -340 ≤ smooth (some (-270)) (orphanOf 1280017 (-480)).level) ∧
    (at7.owned 1280017 = some label1 ∧ ¬ at7.labels.aligned = true) ∧
    (orphanage.owned 8 = none ∧ orphanage.heard 8 = none ∧ orphanage.part = .running ∧ orphanage.labels.aligned = true ∧
      orphanage.labels.owned.length + orphanage.labels.heard.length < 2048 ∧ -340 ≤ smooth none (orphanOf 8 (-340)).level ∧
      ¬ -340 ≤ smooth none (orphanOf 8 (-341)).level) := by
  refine ⟨fun _ => ⟨rfl, rfl⟩, ?_, ?_, ?_⟩ <;> decide

def labelFrame : Frame := ⟨some 5, .labelRefuse 7 none, .label, 0⟩
/-- The NOTICE queue is full, and `hold` waits for it. -/
def noticeFull (hold : List Frame) (s : State) : State :=
  { s with trunk := { s.trunk with notice := List.replicate 64 doneFrame, holdNotice := hold } }
def movingListed : State :=
  { moving67 false 0 41 with labels := { (moving67 false 0 41).labels with
      slot := 42, owned := [(42, dueFor (some 1) 1 1200), (3600042, { label1 with state := .moving ⟨5, 1, -240, false⟩ })] } }
theorem witness_MovesPrecedeAndWait :
    (movingListed.owned 3600042 = some { label1 with state := .moving ⟨5, 1, -240, false⟩ } ∧ movingListed.mayFill = true ∧
      movingListed.movers 42 = [3600042] ∧ movingListed.updates.map (·.2) = [42]) ∧
    (let s := noticeFull [doneFrame] (moving67 true 0 42)
     label1.current = true ∧ s.canSend = true ∧ 64 ≤ s.trunk.notice.length ∧ (∀ g ∈ s.trunk.holdNotice, g.sender ≠ .labels)) ∧
    (let s := noticeFull [labelFrame] (moving67 true 0 42)
     64 ≤ s.trunk.notice.length ∧ (∃ g ∈ s.trunk.holdNotice, g.sender = .labels) ∧ (s.trunk.keptBy .labels .notice).length < 64) := by
  decide
/-- R111: the MOVE goes before the label listed for the slot. -/
theorem test_move_first : (movingListed.beginSlot).out =
    [.radio (.header 2 3 0 42 16), .radio (.move (some 2) 3600042 5 1 0), .radio (.show 2 42 1 1200 .each ⟨249, 0, 0⟩ 0)] := by decide
/-- R116: the handover waits in the hold line. -/
theorem test_handover_waits :
    (after (.ackReceived { ackOf 3600042 1200 with owner := 5 }) (noticeFull [doneFrame] (moving67 true 0 42))).trunk.holdNotice =
      [doneFrame, ⟨some 5, .labelHandover { handover67 with label := 3600042 }, .label, 0⟩] := by decide

def adopted (label : Nat) (ack : Station) (s : State) : State :=
  { s with labels := { s.labels with adoptions := [⟨presenceOf label (-260), 802, 1, some ack⟩] } }
/-- R113, R119: an adopted label takes the presence's display where it is SHOWING or UPDATE-DUE, and keeps its own while SENT. -/
theorem test_adopted_display :
    let shown (st : LabelState) := ((after .presenceWindowEnd (adopted 1280017 3 (ownedIn { label1 with state := st, attempts := 2 }))).owned
      1280017).map fun o => (o.display.version, o.state, o.attempts)
    shown .showing = some (905, .updateDue 0, 0) ∧ shown (.updateDue 7) = some (905, .updateDue 7, 0) ∧
      shown (.sent 7) = some (1200, .sent 7, 0) := by decide +kernel
theorem witness_AdoptionEndsWithTheWindow :
    (∀ o, let s := adopted 1280017 3 (ownedIn o)
     s.live = true ∧ s.serving = true ∧ some (3 : Station) = some s.self ∧ s.owned 1280017 = some o ∧ s.canSend = true ∧
       s.trunk.notice.length < 64) ∧ (presenceOf 1280017 (-260)).display ≠ label1.display ∧
    (let s := adopted 7 3 (hears 7 5)
     s.live = true ∧ s.serving = true ∧ s.labels.adoptions = [⟨presenceOf 7 (-260), 802, 1, some 3⟩] ∧ (3 : Station) = s.self ∧
       s.owned 7 = none ∧ s.heard 7 = some (heardOf 5) ∧ (presenceOf 7 (-260)).display.form = .price ∧
       (presenceOf 7 (-260)).display.article = some 1 ∧ s.entry 1 = some entryA ∧ entryA.current ≠ none ∧ s.canSend = true ∧
       s.trunk.notice.length < 64) ∧
    (let s := adopted 1280017 9 at7
     s.live = true ∧ s.serving = true ∧ (9 : Station) ≠ s.self ∧ s.owned 1280017 = some label1 ∧ ∀ m, label1.state ≠ .moving m) ∧
    (let s := adopted 3600042 9 (moving67 true 0 42)
     s.owned 3600042 = some { label1 with state := .moving ⟨5, 1, -240, true⟩ } ∧ s.canSend = true ∧
       s.trunk.notice.length < 64) ∧
    (let s := adopted 7 3 base
     s.owned 7 = none ∧ s.heard 7 = none ∧ s.labels.owned.length + s.labels.heard.length < 2048) := by
  refine ⟨fun o => ⟨rfl, rfl, rfl, rfl, rfl, by show (0 : Nat) < 64; decide⟩, by decide, by decide,
    ⟨rfl, rfl, by decide, rfl, by simp [label1]⟩, by decide, by decide⟩

/-! #### Frames that waited, and parcels for peers -/

def shareFrame : Frame := ⟨none, .fileClose 312 1 2897681239, .share, 0⟩
def linkReply : Frame := ⟨some 14, .officeReply ⟨40, 8, .done .nothing⟩, .reply false, 0⟩
def backFrame (n : Nat) : Frame := ⟨some 5, .relay { officeParcel n with origin := 5 }, .relayBack, 0⟩
/-- A full NOTICE or BULK queue whose front frame is ending its attempt, with a hold line and kept frames. -/
def ending (c : TrunkClass) (f : Frame) (hold kept : List Frame) (s : State) : State :=
  { s with trunk := { ({ s.trunk.setQueue c (List.replicate (Config.queueCapacity c) f) with kept := kept }).setHold c hold with
                      inAir := some c } }
def backlog (list : List Parcel) : State := { base with fwd := { base.fwd with relayBack := list } }
/-- A RELAY of this station's session to its holder. -/
def openFrame : Frame := relayOf (sessionParcel 3 207 (bytes 4)) 0
theorem ending_filed {s : State} {c : TrunkClass} {f : Frame} {h k : List Frame} (hc : c ≠ .urgent) (ht : s.trunk = base.trunk)
    (hh : ∀ g ∈ f :: h, g.body.trunkClass = c ∧ g.fits = true) (hk : ∀ g ∈ k, g.fits = true) :
    (ending c f h k s).trunk.Filed := by
  have hq : ∀ g ∈ List.replicate (Config.queueCapacity c) f ++ h, g.body.trunkClass = c ∧ g.fits = true := fun g hg => by
    rcases List.mem_append.1 hg with hg | hg
    · rw [List.eq_of_mem_replicate hg]; exact hh f (List.mem_cons_self ..)
    · exact hh g (List.mem_cons_of_mem _ hg)
  have none (g : Frame) (hg : g ∈ ([] : List Frame)) (c : TrunkClass) : g.body.trunkClass = c ∧ g.fits = true :=
    absurd hg List.not_mem_nil
  unfold ending
  rw [ht]
  cases c
  · exact absurd rfl hc
  · exact filed_of (fun g hg => none g hg _) hq (fun g hg => none g hg _) hk
  · exact filed_of (fun g hg => none g hg _) (fun g hg => none g hg _) hq hk
theorem witness_HeldFramesActWhenQueued :
    (∀ c f h k, c ≠ .urgent → (ending c f h k base).live = true ∧ (ending c f h k base).canSend = true ∧
      (ending c f h k base).trunk.inAir = some c ∧ (ending c f h k base).trunk.hold c = h ∧ (ending c f h k base).trunk.kept = k) ∧
    ((ending .notice doneFrame [linkReply] [] base).trunk.Filed ∧ (ending .notice shareFrame [shareFrame] [] base).trunk.Filed ∧
      (ending .bulk (backFrame 4) [relayOf (officeParcel 4) 0] [] base).trunk.Filed ∧
      (ending .bulk openFrame [openFrame] [] (session .opening)).trunk.Filed ∧
      (ending .bulk (relayOf (guestParcel 4) 3) [backFrame 4] [backFrame 4] base).trunk.Filed ∧
      (ending .notice doneFrame [shareFrame, doneFrame] [linkReply] base).trunk.Filed ∧
      (ending .bulk (backFrame 4) [backFrame 4] [] (backlog [{ officeParcel 5 with origin := 5 }])).trunk.Filed) ∧
    (doneFrame.purpose.plain = true ∧ linkReply.purpose = .reply false ∧ shareFrame.purpose = .share ∧
      (relayOf (officeParcel 4) 0).purpose = .relayOut ∧ (relayOf (officeParcel 4) 0).body = .relay (officeParcel 4) ∧
      officeParcel 4 ≠ sessionParcel base.settings.station base.link.attemptTag (officeParcel 4).payload ∧
      openFrame.body = .relay (sessionParcel 3 207 (bytes 4)) ∧
      sessionParcel 3 207 (bytes 4) = sessionParcel (session .opening).settings.station (session .opening).link.attemptTag
        (sessionParcel 3 207 (bytes 4)).payload ∧
      (backFrame 4).purpose = .relayBack ∧ base.fwd.relayBack = [] ∧ (session .opening).fwd.relayBack = []) ∧
    (let s := ending .bulk (backFrame 4) [backFrame 4] [] (backlog [{ officeParcel 5 with origin := 5 }])
     s.fwd.relayBack = [{ officeParcel 5 with origin := 5 }] ∧ (s.peer 5).state = .alive ∧
       { officeParcel 5 with origin := 5 }.cls = .office ∧ (∃ f rest, s.trunk.queue .bulk = f :: rest ∧ 32 ≤ rest.length + 1) ∧
       ∀ x ∈ ([] : List Frame), x.sender ≠ .forwarding) ∧
    (linkReply.sender = shareFrame.sender ∧ linkReply.body.trunkClass = .notice ∧ linkReply.body.waits = true ∧
      (∀ x ∈ [doneFrame], x.sender ≠ shareFrame.sender) ∧ Config.queueCapacity .notice ≤ (List.replicate 63 doneFrame).length + 1) ∧
    ((backFrame 4).body.trunkClass = .bulk ∧ (backFrame 4).body.waits = true ∧
      Config.queueCapacity .bulk ≤ (List.replicate 31 (backFrame 4)).length + 1) := by
  refine ⟨fun c f h k hc => ?_, ⟨?_, ?_, ?_, ?_, ?_, ?_, ?_⟩, ?_, ?_, ?_, ?_⟩
  · cases c
    · exact absurd rfl hc
    · exact ⟨rfl, rfl, rfl, rfl, rfl⟩
    · exact ⟨rfl, rfl, rfl, rfl, rfl⟩
  · exact ending_filed (by decide) rfl (by decide) (by decide)
  · exact ending_filed (by decide) rfl (by decide) (by decide)
  · exact ending_filed (by decide) rfl (by decide) (by decide)
  · exact ending_filed (by decide) rfl (by decide) (by decide)
  · exact ending_filed (by decide) rfl (by decide) (by decide)
  · exact ending_filed (by decide) rfl (by decide) (by decide)
  · exact ending_filed (by decide) rfl (by decide) (by decide)
  · decide
  · exact ⟨rfl, by decide, rfl, ⟨backFrame 4, List.replicate 31 (backFrame 4), rfl, by decide⟩, by decide⟩
  · decide
  · decide
theorem witness_FramesStayInTheirQueues :
    (ending .bulk (backFrame 4) [relayOf (officeParcel 4) 0] [] base).trunk.Filed ∧
    step { ending .bulk (backFrame 4) [relayOf (officeParcel 4) 0] [] base with pending := [.trunkAttemptEnd true false] } =
      .next (after (.trunkAttemptEnd true false) (ending .bulk (backFrame 4) [relayOf (officeParcel 4) 0] [] base)) :=
  ⟨ending_filed (by decide) rfl (by decide) (by decide), rfl⟩
/-- R124: the held RELAY takes the freed place. -/
theorem test_held_relay_queued :
    let t := (after (.trunkAttemptEnd true false) (ending .bulk (backFrame 4) [relayOf (officeParcel 4) 0] [] base)).trunk
    t.bulk.length = 32 ∧ t.bulk.getLast? = some (relayOf (officeParcel 4) 0) ∧ t.holdBulk = [] := by decide +kernel
/-- R124, R188: the office link's kept reply goes to the hold line before its next share frame, which it keeps. -/
theorem test_kept_reply_first :
    let s := ending .notice doneFrame [shareFrame] [linkReply] (shared (some 0) [])
    let t := (after (.trunkAttemptEnd true false) s).trunk
    t.holdNotice = [linkReply] ∧ t.kept.map (·.body) = [.priceChange 312 0 [record312]] := by
  decide +kernel
/-- R138, R188: a kept share frame is told NOT-TAKEN on entry to LISTEN-ONLY, and is counted. -/
theorem test_kept_share_lost :
    (after (.beaconReceived { toAll with src := 3 } beacon5) (ending .notice doneFrame [linkReply] [shareFrame] base)).count .shareFramesLost = 1 := by
  decide +kernel

def officePeer (n : Nat) : Parcel := { officeParcel n with origin := 5 }
def guestPeer (n : Nat) : Parcel := { guestParcel n with origin := 5 }
/-- The uplink is UP and SENDING, with a TILL and a GUEST queue of one parcel each. -/
def loaded (till guest : Nat) (mode : Mode) : State :=
  { base with
    settings := { fitted with guestRelay := true }
    unit := { base.unit with mode := mode }
    fwd := { base.fwd with
      up := true, sending := some (officeParcel 4, 7), till := [{ replyParcel with payload := bytes till }]
      guest := [{ guestParcel 4 with payload := bytes guest }] } }
theorem witness_ParcelsJoinAndReturn :
    (fromPeer.cls = .till ∧ (officePeer 4).cls = .office ∧ (guestPeer 4).cls = .guest ∧ parcelOk (officePeer 4) = true ∧
      parcelOk (guestPeer 4) = true ∧ (officePeer 4).origin ≠ base.settings.station ∧ (base.peer 5).state = .alive ∧
      base.canSend = true) ∧
    (let s : State := { base with trunk := { base.trunk with urgent := List.replicate 8 doneFrame, bulk := List.replicate 32 doneFrame } }
     8 ≤ s.trunk.urgent.length ∧ 32 ≤ s.trunk.bulk.length ∧ s.trunk.holdBulk = [] ∧ s.trunk.kept = [] ∧ s.fwd.relayBack = []) ∧
    (let s : State := { base with trunk := { base.trunk with holdBulk := [backFrame 4] } }
     (∃ f ∈ s.trunk.holdBulk, f.sender = .forwarding) ∧ (s.fwd.relayBack.map (·.payload.length)).sum + 1500 ≤ 65536) ∧
    ((backlog [{ officePeer 4 with payload := bytes 65533 }]).fwd.relayBack ≠ [] ∧
      65536 < ((backlog [{ officePeer 4 with payload := bytes 65533 }]).fwd.relayBack.map (·.payload.length)).sum + 4) ∧
    (base.Hears 5 ∧ (base.heardFrom 5 id).fwd.up = false) ∧
    (∀ t g m, (loaded t g m).Hears 5 ∧ fromFive.dest = .station (loaded t g m).settings.station ∧
      ((loaded t g m).heardFrom 5 id).fwd = (loaded t g m).fwd ∧ (loaded t g m).fwd.up = true ∧
      (loaded t g m).fwd.sending ≠ none ∧ (loaded t g m).settings.guestRelay = true ∧
      (loaded t g m).unit.mode = m ∧ (loaded t g m).part ≠ .listenOnly ∧
      ((loaded t g m).fwd.till.map (·.payload.length)).sum = t ∧ ((loaded t g m).fwd.guest.map (·.payload.length)).sum = g) ∧
    ((16381 : Nat) + 3 ≤ 16384 ∧ 16384 < (16382 : Nat) + 3 ∧ (65532 : Nat) + 4 ≤ 65536 ∧ 65536 < (65533 : Nat) + 4 ∧
      fromPeer.payload.length = 3 ∧ (guestPeer 4).payload.length = 4) ∧
    ¬ (Mode.closed = .open ∨ Mode.closed = .late) := by
  refine ⟨by decide, by decide, by decide, ?_, ⟨base_hears, by decide⟩, fun t g m => ⟨hears_of rfl rfl ?_, rfl, ?_, rfl, ?_, rfl, rfl, ?_, ?_, ?_⟩,
    by decide, by decide⟩
  · simp [backlog, bytes, -List.reduceReplicate]
  · show (5 : Station) ≠ 3; decide
  · rfl
  · show some _ ≠ none; simp
  · show PartState.running ≠ .listenOnly; decide
  · simp [loaded, bytes, -List.reduceReplicate]
  · simp [loaded, bytes, -List.reduceReplicate]
/-- R152: with no uplink a peer's TILL parcel is reported back NO-ROUTE. -/
theorem test_no_route_back : (after (.relayReceived fromFive { fromPeer with payload := [1] }) base).trunk.urgent =
    [⟨some 5, .relay { fromPeer with status := .noRoute, payload := [] }, .relayBack, 0⟩] := by decide

/-! #### READ-ALERTS -/

/-- Sixteen CHANGEOVER-FORCED alerts, each of `n` dropped stations. -/
def forcedAlerts (n : Nat) : List Alert :=
  (List.range 16).map fun i =>
    { serial := i + 1, kind := .changeoverForced, severity := .warn, time := none, subject := .article 1
      detail := .forced 1310 (List.replicate n ⟨12, .none⟩), acked := false }
def alerted (n : Nat) : State := { base with alerts := { base.alerts with list := forcedAlerts n } }
theorem witness_AlertsFitOneFrame :
    (∀ n, (alerted n).Obeys head3 ∧ (alerted n).settings.station = 3) ∧
    (let size (l : List Alert) : Nat := (l.map fun a => (alertBytes 3 a).length).sum
     (((forcedAlerts 14).filter fun a => 1 ≤ a.serial).take 16 = forcedAlerts 14 ∧ size (forcedAlerts 14) ≤ 1523) ∧
     ((forcedAlerts 15).take 15 ++ (forcedAlerts 15).drop 15 = forcedAlerts 15 ∧ size ((forcedAlerts 15).take 15) ≤ 1523 ∧
       1523 < size ((forcedAlerts 15).take 15 ++ ((forcedAlerts 15).drop 15).take 1))) :=
  ⟨fun _ => ⟨obeys_of (hears_of rfl rfl (by show (14 : Station) ≠ 3; decide)) rfl rfl rfl, rfl⟩, by decide +kernel⟩
/-- R121, R202: all sixteen alerts fit with 14 dropped stations each, and the oldest fifteen with 15. -/
theorem test_alerts_fit :
    ((alerted 14).actReadAlerts 1).1 = .done (.alerts (forcedAlerts 14) 16 0) ∧
    ((alerted 15).actReadAlerts 1).1 = .done (.alerts ((forcedAlerts 15).take 15) 16 0) := by decide +kernel

/-! #### Witnesses of the widened statements -/

/-- R40: a basket whose one line has been voided. -/
def voided : Basket := { sale with lines := [{ line1 with void := true }], terms := [termsA], running := 0 }
theorem witness_VoidedBasketsAreTotalled :
    (shop (some voided)).TakesNew 4 true .total ∧ ((shop (some voided)).lane 4).basket = some voided ∧ voided.Ok ∧
      ∀ x ∈ voided.lines, x.void = true :=
  ⟨shop_takesNew _ _ _, rfl, ⟨by decide, by decide, by decide, by decide, by decide⟩, by decide⟩

theorem witness_BadRecordsLeaveTheBook :
    recordChange { change1 with price := 10000000 } = none ∧
    (∀ k ∈ [1, 2, 3],
      (recordChange { change1 with kindCode := k, groupSize := 2, groupPrice := 99999999 }).isSome = true) ∧
    (recordChange { change1 with changeCode := 2 }).isSome = true := by decide

/-- Article 1 in CHANGING with 3 s left of a countdown. -/
def ticking : State :=
  { at7 with book := { at7.book with entries :=
      [(1, { waiting18 with phase := .changing { course none [5] 60 with deadline := .countdown 3 } })] } }
theorem witness_CountdownsBecomeStoreTimes :
    ticking.live = true ∧ ticking.working = true ∧ AMap.wf ticking.book.entries = true ∧
    ticking.entry 1 = some { waiting18 with phase := .changing { course none [5] 60 with deadline := .countdown 3 } } ∧
    ticking.unit.clock = some ⟨412, 25200⟩ := by decide
/-- R11, log 23: 2 s remain once the expiry has lowered the countdown. -/
theorem test_countdown : (after .secondTimerExpiry ticking).book.entries.map (fun x => match x.2.phase with
    | .changing c => some c.deadline
    | _ => none) = [some (.at ⟨412, 25202⟩)] := by decide +kernel

/-- Articles 1 to 4 held out by station 5 for 60, 90, 60 and 59 s. -/
def lateFour : State :=
  { base with book := { base.book with entries :=
      [(1, 60), (2, 90), (3, 60), (4, 59)].map fun x => (x.1, { entryA with phase := .changing (course none [5, 12] x.2) }) } }
theorem witness_LateEntriesAreAskedOldestFirst :
    ((5 : Station) ≠ lateFour.self ∧ (lateFour.peer 5).state = .alive ∧ (lateFour.peer 5).kind = some .controller ∧
      AMap.get lateFour.book.queryTimes 5 = none) ∧
    (AMap.wf lateFour.book.entries = true ∧
      lateFour.entry 2 = some { entryA with phase := .changing (course none [5, 12] 90) } ∧
      60 ≤ (course none [5, 12] 90).age ∧ ∃ h ∈ (course none [5, 12] 90).holdout, h.station = 5) ∧
    ({ lateFour with part := .listenOnly }.canSend = false ∧ lateFour.canSend = true ∧ lateFour.trunk.notice.length < 64) ∧
    (let s := noticeFull [labelFrame] lateFour
     64 ≤ s.trunk.notice.length ∧ ∀ g ∈ s.trunk.holdNotice, g.sender ≠ .book) ∧
    (let s := noticeFull [doneFrame] lateFour
     64 ≤ s.trunk.notice.length ∧ (∃ g ∈ s.trunk.holdNotice, g.sender = .book) ∧
       (s.trunk.keptBy .book .notice).length < 64) := by
  refine ⟨by decide, ⟨by decide, rfl, by decide, by decide⟩, by decide, by decide, by decide⟩
/-- R15: the oldest first, the lowest article among equals, and none under 60 s. -/
theorem test_query_order :
    (lateFour.queryStation 5).trunk.notice = [⟨some 5, .shelfQuery [⟨2, 1310⟩, ⟨1, 1310⟩, ⟨3, 1310⟩], .shelfQuestion, 0⟩] ∧
    ((lateFour.queryStation 5).book.entries.map fun x => match x.2.phase with
      | .changing c => c.holdout
      | _ => []) =
      [[⟨5, .queried⟩, ⟨12, .none⟩], [⟨5, .queried⟩, ⟨12, .none⟩], [⟨5, .queried⟩, ⟨12, .none⟩], [⟨5, .none⟩, ⟨12, .none⟩]] := by
  decide +kernel

theorem witness_SlotEndsFillTheNextSlot :
    (inSlot17.live = true ∧ inSlot17.serving = true ∧ inSlot17.labels.slotEnd = some 1250000 ∧ inSlot17.labels.slot < 127 ∧
      inSlot17.mayFill = true ∧ AMap.wf inSlot17.labels.owned = true ∧
      (inSlot17.owned 1280017).map (·.state) = some (.sent 0)) ∧
    (127 ≤ (lateSlot 127).labels.slot ∧ (lateSlot 127).labels.reference ≠ some (lateSlot 127).settings.station) ∧
    (movingListed.mayFill = true ∧ AMap.wf movingListed.labels.owned = true ∧ 3600042 % 128 = movingListed.labels.slot ∧
      42 % 128 = movingListed.labels.slot ∧ movingListed.owned 42 = some (dueFor (some 1) 1 1200)) := by decide

/-- Station 9 follows station 5, is in slot 17 of cycle 76, and has a label SENT and one whose MOVE is in the air. -/
def cutting : State :=
  { at7 with
    settings := { fitted with station := 9 }
    labels := { base.labels with
      reference := some 5, aligned := true, cycle := 76, slot := 17, length := 64, slotEnd := some 5000000
      owned := [(17, { label1 with state := .sent 7, attempts := 2, power := 4 }),
                (145, { label1 with state := .moving ⟨5, 1, -240, true⟩, attempts := 1 })]
      heard := [(7, { heardOf 4 with claimAge := some 3 })] } }
theorem witness_RestartsCutTheSlotShort :
    cutting.Hears 5 ∧ toAll.dest = .all ∧ (cutting.heardFrom 5 Peer.takeMark).labels.reference = some 5 ∧
    ¬ (cutting.labels.cycle = 77 ∧ cutting.labels.slot = 0 ∧ cutting.labels.length = 64) ∧
    AMap.wf cutting.labels.owned = true ∧ 65535 < (⟨65536, 0⟩ : StoreTime).day ∧ 86399 < (⟨0, 86400⟩ : StoreTime).sec ∧
    (⟨65535, 86399⟩ : StoreTime).day ≤ 65535 ∧ (⟨65535, 86399⟩ : StoreTime).sec ≤ 86399 :=
  ⟨hears_of rfl rfl (by decide), rfl, by decide, by decide, by decide, by decide, by decide, by decide, by decide⟩
/-- R97: the SENT label returns at its old due time and is counted as cut short; the MOVE is not counted. -/
theorem test_cut_short :
    let t := after (.cycleMarkReceived toAll 77 64 none) cutting
    t.labels.owned.map (fun x => (x.2.state, x.2.attempts, x.2.power)) =
      [(.updateDue 7, 2, 4), (.moving ⟨5, 1, -240, false⟩, 1, 0)] ∧
    t.count .attemptsCutShort = 1 ∧ t.count .unansweredAttempts = 0 ∧ t.out.getLast? = some (.radio (.header 2 9 77 0 64)) := by
  decide +kernel

theorem witness_HandoversNeedRoom :
    (at7.Hears 5 ∧ fromFive.dest = .station at7.settings.station ∧ at7.settings.labelService = true ∧
      at7.owned handover67.label = none ∧ at7.heard handover67.label = none ∧
      ¬ 2048 ≤ at7.labels.owned.length + at7.labels.heard.length ∧ handover67.bound = some 1 ∧ at7.entry 1 = some waiting18 ∧
      waiting18.current ≠ none) ∧
    ((∀ b, (shop b).Hears 5) ∧ { handover67 with bound := none }.bound = none ∧ (shop none).entry 4 = some entryD ∧
      entryD.current = none ∧ (shop none).entry 6 = none) ∧
    (fullTable.Hears 5 ∧ fullTable.owned 5 = none ∧ fullTable.heard 5 = none ∧ fullTable.labels.heard = [] ∧
      2048 ≤ fullTable.labels.owned.length) ∧
    (∀ c, (fullRoom c).Hears 5 ∧ (fullRoom c).owned 5 = none ∧ (fullRoom c).heard 5 = none ∧
      2048 ≤ (fullRoom c).labels.owned.length + (fullRoom c).labels.heard.length ∧
      AMap.wf (fullRoom c).labels.heard = true) ∧
    ((fullRoom false).heard 7 = some (heardAt 3 false) ∧
      ∀ m y, (fullRoom false).heard m = some y → m ≠ 7 → y.claimed = true ∧ ∀ k, y.claimAge = some k → k < 16) ∧
    ((fullRoom true).heard 8 = some (heardAt 2 true) ∧
      ∀ m y, (fullRoom true).heard m = some y → (y.claimed = true ∧ ∀ k, y.claimAge = some k → k < 16) ∧
        (m ≠ 8 → (heardAt 2 true).hearing.stamp < y.hearing.stamp)) ∧
    (unservedBase.Hears 5 ∧ fromFive.dest = .station unservedBase.settings.station ∧ unservedBase.settings.labelService = false) := by
  refine ⟨⟨at7_hears, by decide⟩, ⟨shop_hears, by decide⟩,
    ⟨hears_of rfl rfl (by show (5 : Station) ≠ 3; decide), get_replicate label1 2048 1280017 5 (by decide), rfl, rfl, ?_⟩,
    fun c => ⟨hears_of rfl rfl (by show (5 : Station) ≠ 3; decide), fullRoom_low _ c (by decide), ?_,
      fullRoom_size _ c (by rw [List.length_range]), by cases c <;> rfl⟩,
    witness_BindRebindsAndMakesRoom.2.2.2.1.imp_right (·.2), witness_BindRebindsAndMakesRoom.2.2.2.2,
    hears_of rfl rfl (by decide), rfl, rfl⟩
  · simp [fullTable, -List.reduceReplicate]
  · rw [fullRoom, fullRoom_heard]; rfl
/-- R110: of an article not on sale here, the label is taken in unbound. -/
theorem test_handover_unbound :
    ((after (.labelHandoverReceived fromFive { handover67 with bound := some 4 }) (shop none)).owned 3600042).map
      (fun o => (o.bound, o.target, o.hearing.smoothed)) = some (none, .unbound, none) := by decide
/-- R110: a full table with no HEARD entry turns the label away, and counts it. -/
theorem test_turned_away :
    let s : State := { base with labels := { base.labels with owned := (List.range 2048).map fun i => (i, label1) } }
    (after (.labelHandoverReceived fromFive handover67) s).count .turnedAway = 1 := by decide +kernel

/-- A FILE-PART of two records, the second not of its place. -/
def mixed : List ChangeRecord := [record312, { record312 with index := 5 }]
theorem witness_ForeignRecordsAreLeftOut :
    (collecting.link.newest = some 312 ∧ collecting.staging.count = some 1 ∧ 1 ≤ mixed.length ∧ mixed.length ≤ 32 ∧
      announced.staging.count = some 1 ∧ ∀ r ∈ mixed, r.changeCode = 2 ∨ (r.changeCode = 1 ∧ 1 ≤ r.kindCode ∧ r.kindCode ≤ 3)) ∧
    (record312.index = 0 ∧ record312.index < 1 ∧ record312.fileSerial = collecting.staging.serial) ∧
    (∀ r, mixed[1]? = some r → r.index ≠ 0 + 1 ∧ ¬ r.index < 1) := by decide +kernel
/-- R179, R186: the foreign record is counted, and the other stored. -/
theorem test_foreign :
    (let t := after (.filePart 207 312 0 mixed) collecting
     t.count .foreignRecords = 1 ∧ t.staging.records = [(0, record312)]) ∧
    (let t := after (.filePriceChangeReceived toAll 312 0 mixed) announced
     t.count .foreignRecords = 1 ∧ t.staging.records = [(0, record312)]) := by decide +kernel

theorem witness_MovesAndSentLabelsAreReset :
    (∀ o, (ownedIn o).owned 1280017 = some o) ∧ AMap.wf cutting.labels.owned = true ∧ cutting.powered = true ∧
    cutting.resetHeld = false := ⟨fun _ => rfl, by decide, rfl, rfl⟩

end Sys2Proof.Tests
end

section
/-! PROOFS. The first request after a reset, repeats, and requests during an AUTH (R30 to R32); VOID and TOTAL (R39, R40);
LOOKUP (R44). What a new request comes to follows from what its act answers (`State.TakesNew.request_unchanged`,
`State.TakesNew.request_setBasket`), so each act has an equation for each case of its rule. -/

namespace Sys2Proof.Machine

open Sys2Proof

/-! ### Requests in general (R27, R30 to R33) -/

/-- A command that carries a lane request is that request, with an act of its own. -/
theorem exec_of_laneRequest {c : Instr} {l : LaneNo} {bit : Bool} {k : RequestKind}
    (h : laneRequest c = some (l, bit, k)) : ∃ act, ∀ s, exec c s = .next (s.request l bit k act) := by
  cases c with
  | openBasket l _ => cases h; exact ⟨State.actOpen l, fun _ => rfl⟩
  | item l _ a q m => cases h; exact ⟨State.actItem l a q m, fun _ => rfl⟩
  | void l _ n => cases h; exact ⟨State.actVoid l n, fun _ => rfl⟩
  | total l _ => cases h; exact ⟨State.actTotal l, fun _ => rfl⟩
  | close l _ x => cases h; exact ⟨State.actClose l x, fun _ => rfl⟩
  | cancel l _ => cases h; exact ⟨State.actCancel l, fun _ => rfl⟩
  | lookup l _ a => cases h; exact ⟨State.actLookup a, fun _ => rfl⟩
  | auth l b p =>
    have hp : authPayloadOk p = true := by
      by_contra hn
      simp [laneRequest, hn] at h
    obtain ⟨rfl, rfl, rfl⟩ : l = _ ∧ b = _ ∧ RequestKind.auth = _ := by simpa [laneRequest, hp] using h
    exact ⟨State.actAuth l b p, fun s => by simp [exec, execAuth, hp]⟩
  | _ => cases h

@[simp] theorem State.goodFrame_restart (s : State) (l : LaneNo) :
    ((s.goodFrame l).lane l).restart = (s.lane l).restart := by
  simp [State.goodFrame]

@[simp] theorem State.goodFrame_flight (s : State) (l : LaneNo) :
    ((s.goodFrame l).lane l).flight = (s.lane l).flight := by
  simp [State.goodFrame]

@[simp] theorem State.goodFrame_lastClosed (s : State) (l : LaneNo) :
    ((s.goodFrame l).lane l).lastClosed = (s.lane l).lastClosed := by
  simp [State.goodFrame]

@[simp] theorem State.goodFrame_savedFor (s : State) (l : LaneNo) (bit : Bool) (k : RequestKind) :
    ((s.goodFrame l).lane l).savedFor bit k = (s.lane l).savedFor bit k := by
  simp [State.goodFrame, Lane.savedFor]

@[simp] theorem State.entry_touched (s : State) (l : LaneNo) (a : Nat) : ((s.goodFrame l).touch l).entry a = s.entry a := by
  simp [State.touch_goodFrame]

section Serves
variable {s : State} {l : LaneNo} {bit : Bool} {k : RequestKind}

/-- Before its first request a lane answers RESTARTED, whatever the request is (R30). -/
theorem State.Serves.request_restart (h : s.Serves l) (hr : (s.lane l).restart = true) (act : State → Acted) :
    s.request l bit k act = (s.withLane l fun x =>
      { x with state := .up, timer := some (s.now + Config.seconds 10), restart := false
               last := some (bit, k, .restarted x.lastClosed) }).emit
      (.laneReply l bit (.restarted (s.lane l).lastClosed)) := by
  have hanswer : s.request l bit k act = (s.goodFrame l).answer l bit k (.restarted (s.lane l).lastClosed) := by
    simp [h.request, hr]
  rw [hanswer, State.answer, State.goodFrame, State.withLane_withLane]
  exact congrArg (State.emit · _) (s.withLane_congr l rfl)

/-- A repeat is answered with the saved reply and is not acted on (R31). -/
theorem State.Serves.request_repeat (h : s.Serves l) (hr : (s.lane l).restart = false) {r : LaneReply}
    (hl : (s.lane l).last = some (bit, k, r)) (act : State → Acted) :
    s.request l bit k act = (s.goodFrame l).emit (.laneReply l bit r) := by
  simp [h.request, hr, Lane.savedFor_some hl]

/-- A request that is no repeat is answered WAIT while an AUTH is in flight (R32). -/
theorem State.Serves.request_wait (h : s.Serves l) (hr : (s.lane l).restart = false)
    (hl : ∀ r, (s.lane l).last ≠ some (bit, k, r)) {a : AuthFlight} (hf : (s.lane l).flight = some a)
    (act : State → Acted) : s.request l bit k act = (s.goodFrame l).emit (.laneReply l bit .wait) := by
  simp [h.request, hr, Lane.savedFor_none hl, hf]

end Serves

section TakesNew
variable {s : State} {l : LaneNo} {bit : Bool} {k : RequestKind} {act : State → Acted} {r : LaneReply}

/-- A new request whose act answers and changes nothing. -/
theorem State.TakesNew.request_unchanged (h : s.TakesNew l bit k)
    (ha : act ((s.goodFrame l).touch l) = (some r, (s.goodFrame l).touch l)) :
    s.request l bit k act = s.served l bit k r fun x => x :=
  (h.request_reply ha).trans (s.answer_touched_id l bit k r)

/-- A new request whose act answers and replaces the lane's basket. -/
theorem State.TakesNew.request_setBasket (h : s.TakesNew l bit k) {b : Option Basket}
    (ha : act ((s.goodFrame l).touch l) = (some r, ((s.goodFrame l).touch l).setBasket l b)) :
    s.request l bit k act = s.served l bit k r fun x => { x with basket := b } :=
  (h.request_reply ha).trans (s.answer_touched l bit k r _)

end TakesNew

/-! ### VOID (R39) -/

theorem exec_void (l : LaneNo) (bit : Bool) (n : Nat) (s : State) :
    exec (.void l bit n) s = .next (s.request l bit .void (State.actVoid l n)) := rfl

/-- A number names no live line when it is 0, past the last line, or that of a void line. -/
theorem Basket.live_eq_none {b : Basket} {n : Nat}
    (h : n = 0 ∨ b.lines.length < n ∨ ∃ x, b.lines[n - 1]? = some x ∧ x.void = true) : b.live n = none := by
  unfold Basket.live
  rcases h with rfl | hn | ⟨x, hx, hv⟩
  · rfl
  · have : b.lines[n - 1]? = none := List.getElem?_eq_none (by omega)
    simp [this]
  · simp [hx, hv]

theorem Basket.live_eq_some {b : Basket} {n : Nat} {x : Line} (hn : 1 ≤ n) (hx : b.lines[n - 1]? = some x)
    (hv : x.void = false) : b.live n = some x := by
  simp [Basket.live, hx, hv, Nat.ne_of_gt hn]

theorem Basket.voidLine_active {b : Basket} {n : Nat} {x : Line} (hx : b.lines[n - 1]? = some x) (now : Nat) :
    (b.active now).voidLine n x.amount =
      { b with lines := b.lines.set (n - 1) { x with void := true }, running := b.running - x.amount
               lastActivity := now, result := none } := by
  simp [Basket.voidLine, Basket.active, List.modify_eq_set_getElem?, hx]

theorem State.actVoid_noBasket {s : State} {l : LaneNo} (h : (s.lane l).basket = none) (n : Nat) :
    s.actVoid l n = (some .noBasket, s) := by
  simp [State.actVoid, h]

theorem State.actVoid_noSuchLine {s : State} {l : LaneNo} {b : Basket} {n : Nat} (h : (s.lane l).basket = some b)
    (hl : b.live n = none) : s.actVoid l n = (some .noSuchLine, s) := by
  simp [State.actVoid, h, hl]

theorem State.actVoid_live {s : State} {l : LaneNo} {b : Basket} {n : Nat} {x : Line} (h : (s.lane l).basket = some b)
    (hl : b.live n = some x) :
    s.actVoid l n = (some (.voidOk (b.running - x.amount)), s.setBasket l (some (b.voidLine n x.amount))) := by
  simp [State.actVoid, h, hl]

/-! ### TOTAL (R40) -/

theorem exec_total (l : LaneNo) (bit : Bool) (s : State) :
    exec (.total l bit) s = .next (s.request l bit .total (State.actTotal l)) := rfl

theorem State.actTotal_noBasket {s : State} {l : LaneNo} (h : (s.lane l).basket = none) :
    s.actTotal l = (some .noBasket, s) := by
  simp [State.actTotal, h]

theorem State.actTotal_basket {s : State} {l : LaneNo} {b : Basket} (h : (s.lane l).basket = some b) :
    s.actTotal l = (some (.totalOk b.totals.total b.totals.reduction b.totals.changeover),
      s.setBasket l (some { b with result := some b.totals })) := by
  simp [State.actTotal, h]

theorem qualifying_of_all_void {lines : List Line} (h : ∀ x ∈ lines, x.void = true) (a : Nat) : qualifying a lines = [] :=
  List.filter_eq_nil_iff.2 fun x hx => by simp [h x hx]

/-- Void lines take part in no deal (R58). -/
theorem dealReduction_of_all_void {lines : List Line} (h : ∀ x ∈ lines, x.void = true) (r : TermsRecord) :
    dealReduction lines r = 0 := by
  unfold dealReduction
  split
  · rfl
  · rfl
  · simp [qualifying_of_all_void h, sumAmount]

/-- The running total of a basket with no live line is 0 (R34). -/
theorem Basket.Ok.running_of_all_void {b : Basket} (hb : b.Ok) (h : ∀ x ∈ b.lines, x.void = true) : b.running = 0 := by
  have hlive : b.lines.filter (fun x => !x.void) = [] := List.filter_eq_nil_iff.2 fun x hx => by simp [h x hx]
  rw [hb.running, hlive]
  rfl

/-- The total result of a basket with no live line is 0, 0 and clear (R40). -/
theorem Basket.Ok.totals_of_all_void {b : Basket} (hb : b.Ok) (h : ∀ x ∈ b.lines, x.void = true) :
    b.totals = { total := 0, reduction := 0, changeover := false } := by
  have hred : (b.terms.map (dealReduction b.lines)).sum = 0 :=
    List.sum_eq_zero (by simp [dealReduction_of_all_void h])
  have hchange : b.changeover = false := List.any_eq_false.2 fun x hx => by simp [h x hx]
  simp [Basket.totals, priceTotal, hred, hchange, hb.running_of_all_void h]

/-! ### LOOKUP (R44) -/

theorem exec_lookup (l : LaneNo) (bit : Bool) (a : Nat) (s : State) :
    exec (.lookup l bit a) s = .next (s.request l bit .lookup (State.actLookup a)) := rfl

theorem articleOk_iff (a : Nat) : articleOk a = true ↔ 1 ≤ a ∧ a ≤ Config.articleMax := by
  simp [articleOk, inRange]

theorem State.actLookup_unknown {s : State} {a : Nat} (h : a = 0 ∨ 9999999999999 < a ∨ s.entry a = none) :
    s.actLookup a = (some .unknownItem, s) := by
  have hnone : (if articleOk a then s.entry a else none) = none := by
    split
    · rename_i ha
      obtain ⟨hlo, (hhi : a ≤ 9999999999999)⟩ := (articleOk_iff a).1 ha
      rcases h with h0 | hbig | hentry
      · omega
      · omega
      · exact hentry
    · rfl
  simp [State.actLookup, hnone]

theorem State.actLookup_entry {s : State} {a : Nat} {e : Entry} (hlo : 1 ≤ a) (hhi : a ≤ 9999999999999)
    (he : s.entry a = some e) : s.actLookup a = (some (.price (priceReply e)), s) := by
  simp [State.actLookup, (articleOk_iff a).2 ⟨hlo, hhi⟩, he]

end Sys2Proof.Machine

/-! ### The statements -/

open Sys2Proof Sys2Proof.Machine

/-- Settles O5: a lane request of any kind meets `State.Serves.request_restart`, `request_repeat` or `request_wait`. -/
theorem requestsAnsweredWithoutEffect : Obligations.RequestsAnsweredWithoutEffect := by
  refine ⟨?restart, ?repeated, ?wait⟩
  case restart =>
    intro c l bit k s hc hs hr
    obtain ⟨act, hact⟩ := exec_of_laneRequest hc
    rw [hact, hs.request_restart hr]
  case repeated =>
    intro c l bit k r s hc hs hr hl
    obtain ⟨act, hact⟩ := exec_of_laneRequest hc
    rw [hact, hs.request_repeat hr hl, State.goodFrame]
  case wait =>
    intro c l bit k a s hc hs hr hf hl
    obtain ⟨act, hact⟩ := exec_of_laneRequest hc
    rw [hact, hs.request_wait hr hl hf, State.goodFrame]

/-- Settles O9, from what VOID and TOTAL do to the basket that a new request finds. -/
theorem voidAndTotal : Obligations.VoidAndTotal := by
  refine ⟨fun l bit n s h => ⟨fun hb => ?voidNoBasket, fun b hb => ?voidBasket⟩,
    fun l bit s h => ⟨fun hb => ?totalNoBasket, fun b hb => ⟨?totalBasket, fun ok hv => ?allVoid⟩⟩⟩
  case voidNoBasket => rw [exec_void, h.request_unchanged (State.actVoid_noBasket (by simp [hb]) n)]
  case voidBasket =>
    have found : (((s.goodFrame l).touch l).lane l).basket = some (b.active s.now) := by simp [hb]
    refine ⟨fun hn => ?_, fun x hn hx hv => ?_⟩
    · rw [exec_void, h.request_unchanged (State.actVoid_noSuchLine found (Basket.live_eq_none hn))]
    · rw [exec_void, h.request_setBasket (State.actVoid_live found (Basket.live_eq_some hn hx hv)),
        Basket.voidLine_active hx, Basket.active_running]
  case totalNoBasket => rw [exec_total, h.request_unchanged (State.actTotal_noBasket (by simp [hb]))]
  case totalBasket =>
    have found : (((s.goodFrame l).touch l).lane l).basket = some (b.active s.now) := by simp [hb]
    rw [exec_total, h.request_setBasket (State.actTotal_basket found)]
    rfl
  case allVoid => simpa [Basket.totals, priceTotal, Basket.changeover] using ok.totals_of_all_void hv

/-- Settles O11: LOOKUP answers from the entry and leaves the state that a new request finds. -/
theorem lookupReadsTheBook : Obligations.LookupReadsTheBook := by
  intro l bit a s h
  refine ⟨fun hu => ?unknown, fun hlo hhi e he => ?price⟩
  case unknown => rw [exec_lookup, h.request_unchanged (State.actLookup_unknown (by simpa using hu))]
  case price =>
    rw [exec_lookup, h.request_unchanged (State.actLookup_entry hlo hhi (by simpa using he)), priceReply]

end

section
/-! PROOFS. The queue of commands (R1 of the model's log), and the frame of every command: each command is one shared operation
or a choice among a few, so its frame is that operation's (Laws/Frame.lean to Laws/PartFrame.lean). -/

namespace Sys2Proof.Machine

open Sys2Proof

variable {fs : List Field} {s t : State}

/-! ### Inputs, timers and settings that a command writes itself -/

theorem keeps_setPowered (b : Bool) (h : .powered ∈ fs) : keeps fs s { t with powered := b } ↔ keeps fs s t :=
  keeps.iff (gs := [.powered]) (keeps_of_fields fun g h => by cases g <;> first | rfl | exact absurd (by decide) h)
    (List.cons_subset.2 ⟨h, List.nil_subset _⟩)

theorem keeps_setResetHeld (b : Bool) (h : .resetHeld ∈ fs) : keeps fs s { t with resetHeld := b } ↔ keeps fs s t :=
  keeps.iff (gs := [.resetHeld]) (keeps_of_fields fun g h => by cases g <;> first | rfl | exact absurd (by decide) h)
    (List.cons_subset.2 ⟨h, List.nil_subset _⟩)

theorem keeps_setCarrier (b : Bool) (h : .carrier ∈ fs) : keeps fs s { t with carrier := b } ↔ keeps fs s t :=
  keeps.iff (gs := [.carrier]) (keeps_of_fields fun g h => by cases g <;> first | rfl | exact absurd (by decide) h)
    (List.cons_subset.2 ⟨h, List.nil_subset _⟩)

theorem keeps_setLevels (v : Vector Bool 4) (h : .levels ∈ fs) : keeps fs s { t with levels := v } ↔ keeps fs s t :=
  keeps.iff (gs := [.levels]) (keeps_of_fields fun g h => by cases g <;> first | rfl | exact absurd (by decide) h)
    (List.cons_subset.2 ⟨h, List.nil_subset _⟩)

theorem keeps_setListenTimer (n : Option Nat) (h : .listenTimer ∈ fs) :
    keeps fs s { t with listenTimer := n } ↔ keeps fs s t :=
  keeps.iff (gs := [.listenTimer]) (keeps_of_fields fun g h => by cases g <;> first | rfl | exact absurd (by decide) h)
    (List.cons_subset.2 ⟨h, List.nil_subset _⟩)

theorem keeps_setImage (x : Option (List Byte)) (h : .image ∈ fs) : keeps fs s { t with image := x } ↔ keeps fs s t :=
  keeps.iff (gs := [.image]) (keeps_of_fields fun g h => by cases g <;> first | rfl | exact absurd (by decide) h)
    (List.cons_subset.2 ⟨h, List.nil_subset _⟩)

theorem keeps_setProfile (bytes : List Byte) (c : Settings) (n : Nat) (h : [.image, .settings, .clamped] ⊆ fs) :
    keeps fs s { t with image := some bytes, settings := c, clamped := n } ↔ keeps fs s t :=
  keeps.iff (gs := [.image, .settings, .clamped])
    (keeps_of_fields fun g h => by cases g <;> first | rfl | exact absurd (by decide) h) h

theorem State.enterListening_keeps (s : State) : keeps
    [.part, .listenTimer, .labels, .trunk, .link, .journal, .counts, .fwd, .staging, .alerts] s s.enterListening := by
  unfold State.enterListening
  simp only [keeps_withLabels, keeps_judgeHolder, keeps_judgeReference, keeps_withTrunk, List.cons_subset, List.mem_cons,
    List.nil_subset, or_true, true_or, and_self]
  exact keeps_of_fields fun g h => by cases g <;> first | rfl | exact absurd (by decide) h

/-! ### Frames by kind of command -/

theorem execPowerOn_frame (s : State) : ∃ t, exec .powerOn s = .next t ∧ keeps (touches .powerOn) s t := by
  refine ⟨_, rfl, ?_⟩
  split
  · exact (keeps_setPowered _ (by decide)).2 ((keeps_cleared (by decide)).2 (keeps.refl _ _))
  · exact (keeps_enterStarting _ (by decide)).2 ((keeps_setPowered _ (by decide)).2 (keeps.refl _ _))

theorem execResetLineAsserted_frame (s : State) :
    ∃ t, exec .resetLineAsserted s = .next t ∧ keeps (touches .resetLineAsserted) s t := by
  refine ⟨_, rfl, ?_⟩
  split
  · exact (keeps_setResetHeld _ (by decide)).2 ((keeps_cleared (by decide)).2 (keeps.refl _ _))
  · exact (keeps_setResetHeld _ (by decide)).2 (keeps.refl _ _)

theorem execResetLineReleased_frame (s : State) :
    ∃ t, exec .resetLineReleased s = .next t ∧ keeps (touches .resetLineReleased) s t := by
  refine ⟨_, rfl, ?_⟩
  split
  · split
    · exact (keeps_enterStarting _ (by decide)).2 ((keeps_setResetHeld _ (by decide)).2 (keeps.refl _ _))
    · exact (keeps_setResetHeld _ (by decide)).2 (keeps.refl _ _)
  · exact keeps.refl _ _

theorem execProfileLoad_frame (image : Option (List Byte)) (s : State) :
    ∃ t, exec (.profileLoad image) s = .next t ∧ keeps (touches (.profileLoad image)) s t := by
  refine ⟨_, rfl, ?_⟩
  dsimp only [touches]
  split
  · split
    · exact (keeps_setPart _ (by decide)).2 (keeps.refl _ _)
    · rename_i bytes
      split
      · refine keeps.trans ?_ ((State.enterListening_keeps _).mono (by decide))
        exact (keeps_prepare (by decide)).2 ((keeps_setProfile _ _ _ (by decide)).2 (keeps.refl _ _))
      · have read := (keeps_setImage (fs := [.image, .part]) (some bytes) (by decide)).2 (keeps.refl _ s)
        exact ((keeps_setPart .halted (by decide)).2 read).mono (by decide)
  · exact keeps.refl _ _

theorem execListeningTimerExpiry_frame (s : State) :
    ∃ t, exec .listeningTimerExpiry s = .next t ∧ keeps (touches .listeningTimerExpiry) s t := by
  refine ⟨_, rfl, ?_⟩
  split
  · exact keeps.refl _ _
  · split
    · have timer : ∀ d, keeps (touches .listeningTimerExpiry) s { s.reach d with listenTimer := none } := fun d =>
        (keeps_setListenTimer _ (by decide)).2 ((keeps_reach _ (by decide)).2 (keeps.refl _ _))
      dsimp only
      split
      · exact (keeps_endListening (by decide)).2 ((keeps_setPart _ (by decide)).2 (timer _))
      · exact timer _
    · exact keeps.refl _ _

theorem execUplinkCarrierChange_frame (b : Bool) (s : State) :
    ∃ t, exec (.uplinkCarrierChange b) s = .next t ∧ keeps (touches (.uplinkCarrierChange b)) s t := by
  refine ⟨_, rfl, ?_⟩
  dsimp only [touches]
  have input : keeps ([.carrier, .lanes, .out] ++ sessionFields) s { s with carrier := b } :=
    (keeps_setCarrier _ (by decide)).2 (keeps.refl _ _)
  split
  · split
    · exact (keeps_uplinkUp (by decide)).2 input
    · exact (keeps_uplinkDown (by decide)).2 input
  · exact input

theorem execEventLineChange_frame (n : LineNo) (b : Bool) (s : State) :
    ∃ t, exec (.eventLineChange n b) s = .next t ∧ keeps (touches (.eventLineChange n b)) s t := by
  refine ⟨_, rfl, ?_⟩
  dsimp only [touches]
  have input : keeps ([.levels, .unit] ++ sessionFields) s { s with levels := s.levels.set n.val b n.isLt } :=
    (keeps_setLevels _ (by decide)).2 (keeps.refl _ _)
  split
  · exact (keeps_lineChanged _ _ (by decide)).2 input
  · exact input

theorem execRestart_frame (h : OfficeHead) (s : State) :
    ∃ t, exec (.restart h) s = .next t ∧ keeps (touches (.restart h)) s t := by
  refine ⟨_, rfl, ?_⟩
  dsimp only [touches]
  exact State.receive_keeps s _ _ _ _ _ (fun t =>
    State.command_keeps t _ _ _ _ (fun u => (State.actRestart_keeps u).mono (by decide)) (by decide)) (by decide)

/-- A beacon of this station's own number is a clash, and any other is heard as every frame is. -/
theorem execBeaconReceived_frame (f : FrameHead) (b : Beacon) (s : State) :
    ∃ t, exec (.beaconReceived f b) s = .next t ∧ keeps (touches (.beaconReceived f b)) s t := by
  refine ⟨_, rfl, ?_⟩
  dsimp only [touches]
  split
  · exact (State.ownBeacon_keeps s).mono (by decide)
  · exact State.receive_keeps s _ _ _ _ _ (fun t => keeps.refl _ _) (by decide)

/-- A malformed frame reaches the clash only as a BEACON. -/
theorem execMalformedFrameReceived_frame (f : MalformedFrame) (s : State) :
    ∃ t, exec (.malformedFrameReceived f) s = .next t ∧ keeps (touches (.malformedFrameReceived f)) s t := by
  refine ⟨_, rfl, ?_⟩
  obtain ⟨src, dest, kind⟩ := f
  cases kind with dsimp only [touches]
  | beacon =>
    split
    · exact (State.ownBeacon_keeps s).mono (by decide)
    · exact State.receive_keeps s _ _ _ _ _ (fun t => keeps.refl _ _) (by decide)
  | cycleMark =>
    simp only [reduceCtorEq, beq_iff_eq, Bool.and_eq_true, and_false, ↓reduceIte]
    exact State.receive_keeps s _ _ _ _ _ (fun t => keeps.refl _ _) (by decide)
  | other =>
    simp only [reduceCtorEq, beq_iff_eq, Bool.and_eq_true, and_false, ↓reduceIte]
    exact State.receive_keeps s _ _ _ _ _ (fun t => keeps.refl _ _) (by decide)

/-- Every command has an outcome, and its frame is that of the operations it is made of. -/
theorem exec_frame (c : Instr) (s : State) : ∃ t, exec c s = .next t ∧ keeps (touches c) s t := by
  cases c with dsimp only [touches]
  | powerOn => exact execPowerOn_frame s
  | resetLineAsserted => exact execResetLineAsserted_frame s
  | resetLineReleased => exact execResetLineReleased_frame s
  | profileLoad image => exact execProfileLoad_frame image s
  | listeningTimerExpiry => exact execListeningTimerExpiry_frame s
  | powerLoss => exact ⟨_, rfl, (keeps_setPowered _ (by decide)).2 ((keeps_cleared (by decide)).2 (keeps.refl _ _))⟩
  | uplinkCarrierChange b => exact execUplinkCarrierChange_frame b s
  | eventLineChange n b => exact execEventLineChange_frame n b s
  | restart h => exact execRestart_frame h s
  | beaconReceived f b => exact execBeaconReceived_frame f b s
  | malformedFrameReceived f => exact execMalformedFrameReceived_frame f s
  | spotPrice h r =>
    exact ⟨_, rfl, State.office_keeps s _ _ _ (fun t => (State.actSpot_keeps t r).mono (by decide)) (by decide)⟩
  | readEntry h a =>
    exact ⟨_, rfl, State.office_keeps s _ _ _ (fun t => (State.actReadEntry_keeps t a).mono (by decide)) (by decide)⟩
  | bind h l a =>
    exact ⟨_, rfl, State.office_keeps s _ _ _ (fun t => (State.actBind_keeps t l a).mono (by decide)) (by decide)⟩
  | unbind h l =>
    exact ⟨_, rfl, State.office_keeps s _ _ _ (fun t => (State.actUnbind_keeps t l).mono (by decide)) (by decide)⟩
  | readLabel h l =>
    exact ⟨_, rfl, State.office_keeps s _ _ _ (fun t => (State.actReadLabel_keeps t l).mono (by decide)) (by decide)⟩
  | setMode h n =>
    exact ⟨_, rfl, State.office_keeps s _ _ _ (fun t => (State.actSetMode_keeps t n).mono (by decide)) (by decide)⟩
  | setTime h x =>
    exact ⟨_, rfl, State.office_keeps s _ _ _ (fun t => (State.actSetTime_keeps t x).mono (by decide)) (by decide)⟩
  | runSession h =>
    exact ⟨_, rfl, State.office_keeps s _ _ _ (fun t => (State.actRunSession_keeps t).mono (by decide)) (by decide)⟩
  | readAlerts h n =>
    exact ⟨_, rfl, State.office_keeps s _ _ _ (fun t => (State.actReadAlerts_keeps t n).mono (by decide)) (by decide)⟩
  | ackAlert h n =>
    exact ⟨_, rfl, State.office_keeps s _ _ _ (fun t => (State.actAckAlert_keeps t n).mono (by decide)) (by decide)⟩
  | readCounts h g =>
    exact ⟨_, rfl, State.office_keeps s _ _ _ (fun t => (State.actReadCounts_keeps t g).mono (by decide)) (by decide)⟩
  | officeBadCommand h k => exact ⟨_, rfl, State.office_keeps s _ _ _ (fun t => keeps.refl _ _) (by decide)⟩
  | openBasket l b =>
    exact ⟨_, rfl, State.request_keeps s _ _ _ _ (fun t => (State.actOpen_keeps t l).mono (by decide)) (by decide)⟩
  | item l b a q m =>
    exact ⟨_, rfl, State.request_keeps s _ _ _ _ (fun t => (State.actItem_keeps t l a q m).mono (by decide)) (by decide)⟩
  | void l b n =>
    exact ⟨_, rfl, State.request_keeps s _ _ _ _ (fun t => (State.actVoid_keeps t l n).mono (by decide)) (by decide)⟩
  | total l b =>
    exact ⟨_, rfl, State.request_keeps s _ _ _ _ (fun t => (State.actTotal_keeps t l).mono (by decide)) (by decide)⟩
  | close l b x =>
    exact ⟨_, rfl, State.request_keeps s _ _ _ _ (fun t => (State.actClose_keeps t l x).mono (by decide)) (by decide)⟩
  | cancel l b =>
    exact ⟨_, rfl, State.request_keeps s _ _ _ _ (fun t => (State.actCancel_keeps t l).mono (by decide)) (by decide)⟩
  | lookup l b a =>
    exact ⟨_, rfl, State.request_keeps s _ _ _ _ (fun t => (State.actLookup_keeps t a).mono (by decide)) (by decide)⟩
  | auth l b p =>
    refine ⟨_, rfl, ?_⟩
    split
    · exact State.request_keeps s _ _ _ _ (fun t => (State.actAuth_keeps t l b p).mono (by decide)) (by decide)
    · exact (State.discardFrame_keeps s l _).mono (by decide)
  | cycleMarkReceived f n k x =>
    exact ⟨_, rfl, State.receive_keeps s _ _ _ _ _ (fun t => (State.judgeMark_keeps t _ n k x).mono (by decide)) (by decide)⟩
  | labelClaimReceived f l c k x =>
    exact ⟨_, rfl, State.receive_keeps s _ _ _ _ _ (fun t => (State.takeClaim_keeps t _ l k x).mono (by decide)) (by decide)⟩
  | labelRefuseReceived f l x =>
    exact ⟨_, rfl, State.receive_keeps s _ _ _ _ _ (fun t => (State.takeRefusal_keeps t _ l x).mono (by decide)) (by decide)⟩
  | labelHandoverReceived f r =>
    refine ⟨_, rfl, State.receive_keeps s _ _ _ _ _ (fun t => ?_) (by decide)⟩
    split
    · exact (State.takeHandover_keeps t r).mono (by decide)
    · exact keeps.refl _ _
  | labelAdoptedReceived f l n d =>
    refine ⟨_, rfl, State.receive_keeps s _ _ _ _ _ (fun t => ?_) (by decide)⟩
    split
    · exact (State.adoptedElsewhere_keeps t l n).mono (by decide)
    · exact keeps.refl _ _
  | officeReplyReceived f =>
    exact ⟨_, rfl, State.receive_keeps s _ _ _ _ _ (fun t => (State.bump_keeps t _).mono (by decide)) (by decide)⟩
  | priceChangeReceived f rs =>
    exact ⟨_, rfl, State.receive_keeps s _ _ _ _ _ (fun t => (State.applyRecords_keeps t rs).mono (by decide)) (by decide)⟩
  | filePriceChangeReceived f n i rs =>
    refine ⟨_, rfl, State.receive_keeps s _ _ _ _ _ (fun t => ?_) (by decide)⟩
    split
    · exact (State.applyRecords_keeps t rs).mono (by decide)
    · exact (State.takeFileFrame_keeps t _ n i rs).mono (by decide)
  | fileAnnounceReceived f n c k =>
    exact ⟨_, rfl, State.receive_keeps s _ _ _ _ _ (fun t => (State.takeAnnounce_keeps t _ n c k).mono (by decide)) (by decide)⟩
  | fileCloseReceived f n c k =>
    exact ⟨_, rfl, State.receive_keeps s _ _ _ _ _ (fun t => (State.takeFileClose_keeps t _ n c k).mono (by decide)) (by decide)⟩
  | shelfDoneReceived f rs =>
    exact ⟨_, rfl, State.receive_keeps s _ _ _ _ _
      (fun t => foldl_keeps _ _ _ fun u r => (State.takeDone_keeps u _ r).mono (by decide)) (by decide)⟩
  | shelfQueryReceived f rs =>
    exact ⟨_, rfl, State.receive_keeps s _ _ _ _ _ (fun t => (State.answerQuery_keeps t _ rs).mono (by decide)) (by decide)⟩
  | shelfPendingReceived f rs =>
    exact ⟨_, rfl, State.receive_keeps s _ _ _ _ _
      (fun t => foldl_keeps _ _ _ fun u r => (State.takePending_keeps u _ r).mono (by decide)) (by decide)⟩
  | relayReceived f p =>
    exact ⟨_, rfl, State.receive_keeps s _ _ _ _ _ (fun t => (State.takeRelay_keeps t p).mono (by decide)) (by decide)⟩
  | secondTimerExpiry | presenceReceived _ | peerSilent _ | trunkFrameBadCheck | sessionSecondTimer =>
    refine ⟨_, rfl, ?_⟩
    dsimp only
    repeat' split
    all_goals simp [sessionFields, shelfFields, hearFields]
  | _ =>
    refine ⟨_, rfl, ?_⟩
    repeat' split
    all_goals simp [messageFields, sessionFields, shelfFields, resetFields]

theorem step_of_pending {c : Instr} {rest : List Instr} {s : State} (h : s.pending = c :: rest) :
    step s = exec c { s with pending := rest } := by
  simp [step, h]

theorem step_idle {s : State} (h : s.pending = []) : step s = .next s := by
  simp [step, h]

end Sys2Proof.Machine

/-! ### The statements -/

open Sys2Proof Sys2Proof.Machine

/-- Settles O1: `step` is `exec` of the front command on the queue's rest. -/
theorem stepRunsFrontCommand : Obligations.StepRunsFrontCommand :=
  ⟨fun _ _ _ h => step_of_pending h, fun _ h => step_idle h⟩

/-- Settles O2, command by command from the frames of the shared operations. -/
theorem commandsChangeOnlyTheirFields : Obligations.CommandsChangeOnlyTheirFields := exec_frame

end

section
/-! PROOFS. What every step keeps: the relation `Upholds`, which says of two states that the second meets every invariant of the
stored collections that the first meets, and that each primitive update and each update of one collection upholds them. -/

namespace Sys2Proof.Machine

open Sys2Proof

variable {s t u : State} {fs : List Field}

/-- The second state meets each invariant of the stored collections that the first one meets. -/
structure Upholds (s t : State) : Prop where
  journal : s.journal.Ok → t.journal.Ok
  baskets : s.BasketsOk → t.BasketsOk
  book : s.book.Ok → t.book.Ok
  labels : s.labels.Ok → t.labels.Ok
  bounded : s.trunk.Bounded → t.trunk.Bounded
  filed : s.trunk.Filed → t.trunk.Filed
  alerts : s.alerts.Ok → t.alerts.Ok

@[simp] theorem Upholds.refl (s : State) : Upholds s s := ⟨id, id, id, id, id, id, id⟩

theorem Upholds.trans (h : Upholds s t) (k : Upholds t u) : Upholds s u :=
  ⟨k.journal ∘ h.journal, k.baskets ∘ h.baskets, k.book ∘ h.book, k.labels ∘ h.labels, k.bounded ∘ h.bounded,
    k.filed ∘ h.filed, k.alerts ∘ h.alerts⟩

/-- What is asked of the change of a field from `t` to `u` for the invariants that hold in `s` to stay. -/
def Field.upheld (s t u : State) : Field → Prop
  | .journal => s.journal.Ok → t.journal.Ok → u.journal.Ok
  | .lanes => s.BasketsOk → t.BasketsOk → u.BasketsOk
  | .book => s.book.Ok → t.book.Ok → u.book.Ok
  | .labels => s.labels.Ok → t.labels.Ok → u.labels.Ok
  | .trunk =>
    (s.trunk.Bounded → t.trunk.Bounded → u.trunk.Bounded) ∧ (s.trunk.Filed → t.trunk.Filed → u.trunk.Filed)
  | .alerts => s.alerts.Ok → t.alerts.Ok → u.alerts.Ok
  | _ => True

/-- The fields that the invariants speak of. -/
def collections : List Field := [.journal, .lanes, .book, .labels, .trunk, .alerts]

theorem Field.upheld_of_same {f : Field} (h : f.same t u) : f.upheld s t u := by
  cases f
  case lanes => exact fun _ ht => by simpa only [State.BasketsOk, State.lane, show u.lanes = t.lanes from h] using ht
  case trunk => exact ⟨fun _ ht => (show u.trunk = t.trunk from h) ▸ ht, fun _ ht => (show u.trunk = t.trunk from h) ▸ ht⟩
  case journal => exact fun _ ht => (show u.journal = t.journal from h) ▸ ht
  case book => exact fun _ ht => (show u.book = t.book from h) ▸ ht
  case labels => exact fun _ ht => (show u.labels = t.labels from h) ▸ ht
  case alerts => exact fun _ ht => (show u.alerts = t.alerts from h) ▸ ht
  all_goals trivial

/-- Only the fields that an operation may change are to be looked at. -/
theorem Upholds.step (h : Upholds s t) (hk : keeps fs t u) (hf : ∀ f ∈ fs, f.upheld s t u) : Upholds s u := by
  have upheld : ∀ f : Field, f.upheld s t u := fun f => by
    by_cases hm : f ∈ fs
    · exact hf f hm
    · exact Field.upheld_of_same (hk f hm)
  exact ⟨fun hs => upheld .journal hs (h.journal hs), fun hs => upheld .lanes hs (h.baskets hs),
    fun hs => upheld .book hs (h.book hs), fun hs => upheld .labels hs (h.labels hs),
    fun hs => (upheld .trunk).1 hs (h.bounded hs), fun hs => (upheld .trunk).2 hs (h.filed hs),
    fun hs => upheld .alerts hs (h.alerts hs)⟩

/-- An operation that changes none of the collections upholds their invariants. -/
theorem Upholds.frame (h : Upholds s t) (hk : keeps fs t u) (hf : ∀ f ∈ fs, f ∉ collections) : Upholds s u := by
  refine h.step hk fun f hm => ?_
  have hc := hf f hm
  cases f <;> trivial

/-- Of an operation that changes one of the collections, that one is to be looked at. -/
theorem Upholds.change (h : Upholds s t) (c : Field) (hk : keeps fs t u) (hf : ∀ f ∈ fs, f = c ∨ f ∉ collections)
    (hc : c.upheld s t u) : Upholds s u := by
  refine h.step hk fun f hm => ?_
  rcases hf f hm with rfl | hn
  · exact hc
  · cases f <;> trivial

/-- Of an operation that changes two of the collections, these are to be looked at. -/
theorem Upholds.changeTwo (h : Upholds s t) (c d : Field) (hk : keeps fs t u) (hf : ∀ f ∈ fs, f = c ∨ f = d ∨ f ∉ collections)
    (hc : c.upheld s t u) (hd : d.upheld s t u) : Upholds s u := by
  refine h.step hk fun f hm => ?_
  rcases hf f hm with rfl | rfl | hn
  · exact hc
  · exact hd
  · cases f <;> trivial

/-- A fold of operations each of which upholds the invariants upholds them. -/
theorem Upholds.foldl {α : Type} {g : State → α → State} (l : List α) (h : Upholds s t)
    (hg : ∀ u x, Upholds u (g u x)) : Upholds s (l.foldl g t) := by
  induction l generalizing t with
  | nil => exact h
  | cons x l ih => exact ih (h.trans (hg t x))

/-! ### Fields that no invariant speaks of -/

@[simp] theorem Upholds.withCommands (h : Upholds s t) (f : CommandMemory → CommandMemory) : Upholds s (t.withCommands f) :=
  h.frame (t.withCommands_keeps f) (by decide)
@[simp] theorem Upholds.withFwd (h : Upholds s t) (f : Forwarding → Forwarding) : Upholds s (t.withFwd f) :=
  h.frame (t.withFwd_keeps f) (by decide)
@[simp] theorem Upholds.withLink (h : Upholds s t) (f : Link → Link) : Upholds s (t.withLink f) :=
  h.frame (t.withLink_keeps f) (by decide)
@[simp] theorem Upholds.withStaging (h : Upholds s t) (f : Staging → Staging) : Upholds s (t.withStaging f) :=
  h.frame (t.withStaging_keeps f) (by decide)
@[simp] theorem Upholds.withUnit (h : Upholds s t) (f : ModeUnit → ModeUnit) : Upholds s (t.withUnit f) :=
  h.frame (t.withUnit_keeps f) (by decide)
@[simp] theorem Upholds.emit (h : Upholds s t) (o : Output) : Upholds s (t.emit o) := h.frame (t.emit_keeps o) (by decide)
@[simp] theorem Upholds.reach (h : Upholds s t) (d : Nat) : Upholds s (t.reach d) := h.frame (t.reach_keeps d) (by decide)
@[simp] theorem Upholds.bumpBy (h : Upholds s t) (c : Count) (n : Nat) : Upholds s (t.bumpBy c n) :=
  h.frame (t.bumpBy_keeps c n) (by decide)
@[simp] theorem Upholds.bump (h : Upholds s t) (c : Count) : Upholds s (t.bump c) := h.bumpBy c 1
@[simp] theorem Upholds.drawCycle (h : Upholds s t) : Upholds s t.drawCycle.2 := h.frame t.drawCycle_keeps (by decide)

/-! ### The alert list -/

@[simp] theorem Upholds.recordAlert (h : Upholds s t) (k : AlertKind) (v : Severity) (x : Subject) (d : Detail) :
    Upholds s (t.recordAlert k v x d) :=
  h.change .alerts (t.recordAlert_keeps k v x d) (by decide) fun _ => t.recordAlert_ok k v x d

/-! ### The journal -/

@[simp] theorem Upholds.append (h : Upholds s t) (r : JournalRecord) : Upholds s (t.append r).2 := by
  refine h.changeTwo .journal .alerts (t.append_keeps r) (by decide) (fun _ => t.append_journal_ok r) fun _ ha => ?_
  unfold State.append
  dsimp only
  repeat' split
  · simpa using ha
  · simpa using ha
  · exact State.recordAlert_ok _ _ _ _ _ (by simpa using ha)
  · simpa using ha

@[simp] theorem Upholds.takeBatch (h : Upholds s t) (n : Nat) : Upholds s (t.takeBatch n).2 :=
  h.change .journal (t.takeBatch_keeps n) (by decide) fun _ => t.takeBatch_journal_ok n

@[simp] theorem Upholds.acknowledge (h : Upholds s t) (a b : Nat) : Upholds s (t.acknowledge a b) :=
  h.change .journal (t.acknowledge_keeps a b) (by decide) fun _ => t.acknowledge_journal_ok a b

@[simp] theorem Upholds.clearSent (h : Upholds s t) : Upholds s t.clearSent :=
  h.change .journal t.clearSent_keeps (by decide) fun _ => t.clearSent_journal_ok

theorem State.journalLoaded_ok (s : State) (h : s.journal.Ok) : s.journalLoaded.2.journal.Ok := by
  have same := Journal.ok_of_marks h id (fun _ => rfl) s.journal.outstanding h.batches
    (decide (s.settings.highWatermark ≤ s.journal.records.length))
  rw [List.map_id] at same
  unfold State.journalLoaded
  dsimp only
  split
  · simpa using same
  · exact same

@[simp] theorem Upholds.journalLoaded (h : Upholds s t) : Upholds s t.journalLoaded.2 := by
  refine h.changeTwo .journal .alerts t.journalLoaded_keeps (by decide) (fun _ => t.journalLoaded_ok) fun _ ha => ?_
  unfold State.journalLoaded
  dsimp only
  split
  · exact State.recordAlert_ok _ _ _ _ _ (by simpa using ha)
  · simpa using ha

/-! ### Lanes and baskets -/

/-- A change of one lane keeps every basket where it keeps that lane's. -/
theorem State.withLane_basketsOk {l : LaneNo} {f : Lane → Lane} (h : s.BasketsOk)
    (hf : ∀ b, (f (s.lane l)).basket = some b → b.Ok) : (s.withLane l f).BasketsOk := by
  intro m b hb
  by_cases hm : m = l
  · subst hm
    exact hf b (by simpa using hb)
  · rw [State.lane_withLane_ne s hm] at hb
    exact h m b hb

theorem Upholds.withLane_of (h : Upholds s t) (l : LaneNo) (f : Lane → Lane)
    (hf : (∀ b, (t.lane l).basket = some b → b.Ok) → ∀ b, (f (t.lane l)).basket = some b → b.Ok) :
    Upholds s (t.withLane l f) :=
  h.change .lanes (t.withLane_keeps l f) (by decide) fun _ hb => State.withLane_basketsOk hb (hf (hb l))

/-- A change of a lane's record that leaves its basket. -/
@[simp] theorem Upholds.withLane (h : Upholds s t) (l : LaneNo) (f : Lane → Lane) (hf : ∀ x, (f x).basket = x.basket) :
    Upholds s (t.withLane l f) :=
  h.withLane_of l f fun hb => by rw [hf]; exact hb

/-- A basket taken away (R42, R43, R45). -/
@[simp] theorem Upholds.withLane_noBasket (h : Upholds s t) (l : LaneNo) (f : Lane → Lane) (hf : ∀ x, (f x).basket = none) :
    Upholds s (t.withLane l f) :=
  h.withLane_of l f fun _ b hb => by simp [hf] at hb

/-! ### The price book -/

/-- Entries may be changed in place where each one still rises. -/
theorem Book.Ok.modify {b : Book} (h : b.Ok) (a : Nat) (f : Entry → Entry)
    (hf : ∀ e, (a, e) ∈ b.entries → e.Rising → (f e).Rising) : ({ b with entries := AMap.modify b.entries a f } : Book).Ok := by
  refine ⟨AMap.wf_modify _ _ _ h.once, by simpa [AMap.modify] using h.size, fun x hx => ?_⟩
  obtain ⟨y, hy, rfl⟩ := List.mem_map.1 hx
  split
  · rename_i he
    exact hf y.2 (by rw [← he]; exact hy) (h.rising y hy)
  · exact h.rising y hy

/-- What the book holds beside its entries is free. -/
theorem Book.Ok.congr {b c : Book} (h : b.Ok) (hc : c.entries = b.entries) : c.Ok := by
  obtain ⟨once, size, rising⟩ := h
  exact ⟨by rwa [hc], by rwa [hc], by rwa [hc]⟩

@[simp] theorem Upholds.withBook (h : Upholds s t) (f : Book → Book) (hf : ∀ b, (f b).entries = b.entries) :
    Upholds s (t.withBook f) :=
  h.change .book (t.withBook_keeps f) (by decide) fun _ hb => hb.congr (hf _)

theorem Upholds.modifyEntry (h : Upholds s t) (a : Nat) (f : Entry → Entry)
    (hf : s.book.Ok → ∀ e, (a, e) ∈ t.book.entries → e.Rising → (f e).Rising) : Upholds s (t.modifyEntry a f) :=
  h.change .book (t.modifyEntry_keeps a f) (by decide) fun hs ht => ht.modify a f (hf hs)

/-- The bound-label counts take no part in the versions (R23). -/
@[simp] theorem Upholds.countBound (h : Upholds s t) (a : Nat) : Upholds s (t.countBound a) :=
  h.modifyEntry a _ fun _ _ _ he => he

@[simp] theorem Upholds.uncountBound (h : Upholds s t) (a : Nat) : Upholds s (t.uncountBound a) :=
  h.modifyEntry a _ fun _ _ _ he => he

@[simp] theorem Upholds.uncountOpt (h : Upholds s t) (a : Option Nat) : Upholds s (t.uncountOpt a) := by
  cases a with
  | none => exact h
  | some a => exact h.uncountBound a

@[simp] theorem Upholds.countOpt (h : Upholds s t) (a : Option Nat) : Upholds s (t.countOpt a) := by
  cases a with
  | none => exact h
  | some a => exact h.countBound a

theorem Upholds.putEntry (h : Upholds s t) (a : Nat) (e : Entry) (he : t.book.Ok → e.Rising)
    (room : (t.entry a).isSome) : Upholds s (t.putEntry a e) :=
  h.change .book (t.putEntry_keeps a e) (by decide) fun _ ht => State.putEntry_ok t a e ht (he ht) (.inl room)

@[simp] theorem Upholds.removeEntry (h : Upholds s t) (a : Nat) : Upholds s (t.removeEntry a) :=
  h.change .book (t.removeEntry_keeps a) (by decide) fun _ ht => State.removeEntry_ok t a ht

@[simp] theorem Upholds.applyRecord (h : Upholds s t) (r : ChangeRecord) : Upholds s (t.applyRecord r).2 := by
  refine h.changeTwo .book .alerts (t.applyRecord_keeps r) (by decide) (fun _ => t.applyRecord_ok r) fun _ ha => ?_
  unfold State.applyRecord
  dsimp only
  repeat' split
  all_goals first
    | simpa [State.putEntry] using ha
    | exact State.recordAlert_ok _ _ _ _ _ (by simpa using ha)

@[simp] theorem Upholds.applyRecords (h : Upholds s t) (rs : List ChangeRecord) : Upholds s (t.applyRecords rs) :=
  h.foldl rs fun u r => (Upholds.refl u).applyRecord r

/-! ### The label table -/

theorem AMap.length_del_le {α : Type} (m : AMap α) (k : Nat) : (AMap.del m k).length ≤ m.length :=
  List.length_filter_le _ _

/-- A key that is held leaves a place when it goes. -/
theorem AMap.length_del_of_get {α : Type} {m : AMap α} {k : Nat} (h : (AMap.get m k).isSome) :
    (AMap.del m k).length < m.length := by
  obtain ⟨v, hv⟩ := Option.isSome_iff_exists.1 h
  exact List.length_filter_lt_length_iff_exists.2 ⟨_, AMap.mem_of_get hv, by simp⟩

theorem AMap.length_put_le {α : Type} {m : AMap α} (h : AMap.wf m = true) (k : Nat) (v : α) :
    (AMap.put m k v).length ≤ m.length + 1 := by
  rw [AMap.length_put m k v h]
  split <;> omega

namespace Labels.Ok

variable {l m : Labels}

theorem congr (h : l.Ok) (ho : m.owned = l.owned) (hh : m.heard = l.heard) : m.Ok := by
  obtain ⟨owned, heard, apart, size⟩ := h
  exact ⟨by rwa [ho], by rwa [hh], by rwa [ho, hh], by rwa [ho, hh]⟩

/-- An OWNED entry is replaced. -/
theorem putOwned (h : l.Ok) {n : Nat} (o : Owned) (hn : (AMap.get l.owned n).isSome) :
    ({ l with owned := AMap.put l.owned n o } : Labels).Ok := by
  refine ⟨AMap.wf_put _ _ _ h.owned, h.heard, fun k hk => h.apart k ?_, ?_⟩
  · rw [AMap.get_put] at hk
    split at hk
    · next e => rwa [e]
    · exact hk
  · simpa [AMap.length_put _ _ _ h.owned, hn] using h.size

/-- A HEARD entry is replaced. -/
theorem putHeard (h : l.Ok) {n : Nat} (x : Heard) (hn : (AMap.get l.heard n).isSome) :
    ({ l with heard := AMap.put l.heard n x } : Labels).Ok := by
  refine ⟨h.owned, AMap.wf_put _ _ _ h.heard, fun k hk => ?_, ?_⟩
  · have hk' := h.apart k hk
    rw [AMap.get_put]
    split
    · next e => rw [← e, hk'] at hn; cases hn
    · exact hk'
  · simpa [AMap.length_put _ _ _ h.heard, hn] using h.size

/-- A HEARD entry is made where there is a free place (R109, R112). -/
theorem addHeard (h : l.Ok) {n : Nat} (x : Heard) (hn : AMap.get l.owned n = none) (room : l.size < Config.labelCapacity) :
    ({ l with heard := AMap.put l.heard n x } : Labels).Ok := by
  refine ⟨h.owned, AMap.wf_put _ _ _ h.heard, fun k hk => ?_, ?_⟩
  · rw [AMap.get_put]
    split
    · next e => rw [e, hn] at hk; cases hk
    · exact h.apart k hk
  · have := AMap.length_put_le h.heard n x
    simp only [Labels.size] at room
    dsimp only
    omega

/-- An OWNED entry is made, in the place of a HEARD entry of its label or in a free one (R82, R110). -/
theorem makeOwned (h : l.Ok) {n : Nat} (o : Owned) (room : (AMap.get l.heard n).isSome ∨ l.size < Config.labelCapacity) :
    ({ l with heard := AMap.del l.heard n, owned := AMap.put l.owned n o } : Labels).Ok := by
  refine ⟨AMap.wf_put _ _ _ h.owned, AMap.wf_del _ _ h.heard, fun k hk => ?_, ?_⟩
  · rw [AMap.get_del]
    split
    · rfl
    · next e => exact h.apart k (by rwa [AMap.get_put_ne _ _ e] at hk)
  · have put := AMap.length_put_le h.owned n o
    have size := h.size
    dsimp only
    rcases room with hn | hlt
    · have := AMap.length_del_of_get hn
      omega
    · have := AMap.length_del_le l.heard n
      simp only [Labels.size] at hlt
      omega

/-- An OWNED entry is made for a label with no HEARD entry, where there is a free place (R82). -/
theorem addOwned (h : l.Ok) {n : Nat} (o : Owned) (hn : AMap.get l.heard n = none) (room : l.size < Config.labelCapacity) :
    ({ l with owned := AMap.put l.owned n o } : Labels).Ok := by
  refine ⟨AMap.wf_put _ _ _ h.owned, h.heard, fun k hk => ?_, ?_⟩
  · by_cases e : k = n
    · rw [e]; exact hn
    · exact h.apart k (by rwa [AMap.get_put_ne _ _ e] at hk)
  · have := AMap.length_put_le h.owned n o
    simp only [Labels.size] at room
    dsimp only
    omega

/-- An OWNED label becomes HEARD (R111). -/
theorem drop (h : l.Ok) {n : Nat} (x : Heard) (hn : (AMap.get l.owned n).isSome) :
    ({ l with owned := AMap.del l.owned n, heard := AMap.put l.heard n x } : Labels).Ok := by
  refine ⟨AMap.wf_del _ _ h.owned, AMap.wf_put _ _ _ h.heard, fun k hk => ?_, ?_⟩
  · rw [AMap.get_del] at hk
    split at hk
    · cases hk
    · next e => rw [AMap.get_put_ne _ _ e]; exact h.apart k hk
  · have put := AMap.length_put_le h.heard n x
    have del := AMap.length_del_of_get hn
    have size := h.size
    dsimp only
    omega

theorem delHeard (h : l.Ok) (n : Nat) : ({ l with heard := AMap.del l.heard n } : Labels).Ok := by
  refine ⟨h.owned, AMap.wf_del _ _ h.heard, fun k hk => ?_, ?_⟩
  · rw [AMap.get_del]
    split
    · rfl
    · exact h.apart k hk
  · have := AMap.length_del_le l.heard n
    have size := h.size
    dsimp only
    omega

theorem mapOwned (h : l.Ok) (f : Owned → Owned) : ({ l with owned := l.owned.map fun e => (e.1, f e.2) } : Labels).Ok := by
  refine ⟨AMap.wf_map _ _ h.owned, h.heard, fun k hk => h.apart k ?_, by simpa using h.size⟩
  simpa [AMap.get_map] using hk

theorem mapHeard (h : l.Ok) (f : Heard → Heard) : ({ l with heard := l.heard.map fun e => (e.1, f e.2) } : Labels).Ok := by
  refine ⟨h.owned, AMap.wf_map _ _ h.heard, fun k hk => ?_, by simpa using h.size⟩
  simp [AMap.get_map, h.apart k hk]

end Labels.Ok

theorem Upholds.withLabels_of (h : Upholds s t) (f : Labels → Labels) (hf : t.labels.Ok → (f t.labels).Ok) :
    Upholds s (t.withLabels f) :=
  h.change .labels (t.withLabels_keeps f) (by decide) fun _ ht => hf ht

/-- What the label radio controller holds beside its table is free. -/
@[simp] theorem Upholds.withLabels (h : Upholds s t) (f : Labels → Labels)
    (hf : ∀ l, (f l).owned = l.owned ∧ (f l).heard = l.heard) : Upholds s (t.withLabels f) :=
  h.withLabels_of f fun ht => ht.congr (hf _).1 (hf _).2

theorem Upholds.putOwned (h : Upholds s t) {n : Nat} (o : Owned) (hn : (t.owned n).isSome) : Upholds s (t.putOwned n o) :=
  h.withLabels_of _ fun ht => ht.putOwned o hn

theorem Upholds.putHeard (h : Upholds s t) {n : Nat} (x : Heard) (hn : (t.heard n).isSome) : Upholds s (t.putHeard n x) :=
  h.withLabels_of _ fun ht => ht.putHeard x hn

/-! ### The trunk's queues -/

namespace Trunk.Filed

variable {t u : Trunk}

theorem congr (h : t.Filed) (hu : u.urgent = t.urgent) (hn : u.notice = t.notice) (hb : u.bulk = t.bulk)
    (hhn : u.holdNotice = t.holdNotice) (hhb : u.holdBulk = t.holdBulk) (hk : ∀ f ∈ u.kept, f ∈ t.kept) : u.Filed := by
  refine ⟨fun c => ?_, fun c => ?_, fun f hf => h.kept f (hk f hf)⟩
  · have := h.queued c
    cases c <;> simpa only [Trunk.queue, hu, hn, hb] using this
  · have := h.held c
    cases c <;> simpa only [Trunk.hold, hhn, hhb] using this

theorem setQueue (h : t.Filed) (c : TrunkClass) {q : List Frame}
    (hq : ∀ f ∈ q, f.body.trunkClass = c ∧ f.fits = true) : (t.setQueue c q).Filed := by
  refine ⟨fun d => ?_, fun d => ?_, fun f hf => h.kept f ?_⟩
  · have := h.queued d
    cases c <;> cases d <;> first | exact hq | exact this
  · have := h.held d
    cases c <;> exact this
  · cases c <;> exact hf

theorem setHold (h : t.Filed) (c : TrunkClass) {q : List Frame}
    (hq : ∀ f ∈ q, f.body.trunkClass = c ∧ f.fits = true) : (t.setHold c q).Filed := by
  refine ⟨fun d => ?_, fun d => ?_, fun f hf => h.kept f ?_⟩
  · have := h.queued d
    cases c <;> exact this
  · have := h.held d
    cases c <;> cases d <;> first | exact hq | exact this
  · cases c <;> exact hf

end Trunk.Filed

/-- A frame that carries what its purpose asks goes to the queue, the hold line or the kept frames (R122 to R124). -/
theorem State.offer_filed (s : State) (f : Frame) (h : s.trunk.Filed) (hf : f.fits = true) : (s.offer f).2.trunk.Filed := by
  have joins : ∀ q : List Frame, (∀ g ∈ q, g.body.trunkClass = f.body.trunkClass ∧ g.fits = true) →
      ∀ g ∈ q ++ [f], g.body.trunkClass = f.body.trunkClass ∧ g.fits = true := fun q hq g hg => by
    rcases List.mem_append.1 hg with hg | hg
    · exact hq g hg
    · rw [List.mem_singleton.1 hg]; exact ⟨rfl, hf⟩
  unfold State.offer
  dsimp only
  split
  · simpa using h
  split
  · exact h.setQueue _ (joins _ (h.queued _))
  split
  · simpa using h
  split
  · split
    · refine ⟨h.queued, h.held, fun g hg => ?_⟩
      rcases List.mem_append.1 hg with hg | hg
      · exact h.kept g hg
      · rw [List.mem_singleton.1 hg]; exact hf
    · exact h
  · rw [State.bump_trunk, State.withTrunk_trunk]
    exact h.setHold _ (joins _ (h.held _))

@[simp] theorem Upholds.offer (h : Upholds s t) (f : Frame) (hf : f.fits = true) : Upholds s (t.offer f).2 :=
  h.change .trunk (t.offer_keeps f) (by decide) ⟨fun _ => t.offer_bounded f, fun _ ht => t.offer_filed f ht hf⟩

@[simp] theorem Upholds.send (h : Upholds s t) (f : Frame) (hf : f.fits = true) : Upholds s (t.send f) := h.offer f hf

theorem Upholds.withTrunk_of (h : Upholds s t) (f : Trunk → Trunk) (hb : t.trunk.Bounded → (f t.trunk).Bounded)
    (hf : t.trunk.Filed → (f t.trunk).Filed) : Upholds s (t.withTrunk f) :=
  h.change .trunk (t.withTrunk_keeps f) (by decide) ⟨fun _ ht => hb ht, fun _ ht => hf ht⟩

/-- What the trunk controller holds beside its frames is free. -/
@[simp] theorem Upholds.withTrunk (h : Upholds s t) (f : Trunk → Trunk)
    (hf : ∀ x, (f x).urgent = x.urgent ∧ (f x).notice = x.notice ∧ (f x).bulk = x.bulk ∧ (f x).holdNotice = x.holdNotice ∧
      (f x).holdBulk = x.holdBulk ∧ (f x).kept = x.kept) : Upholds s (t.withTrunk f) := by
  obtain ⟨hu, hn, hb, hhn, hhb, hk⟩ := hf t.trunk
  exact h.withTrunk_of f (fun ht => Trunk.bounded_of_queues ht hu hn hb) fun ht => ht.congr hu hn hb hhn hhb (by simp [hk])

@[simp] theorem Upholds.withPeer (h : Upholds s t) (n : Station) (f : Peer → Peer) : Upholds s (t.withPeer n f) :=
  h.withTrunk _ fun _ => ⟨rfl, rfl, rfl, rfl, rfl, rfl⟩

end Sys2Proof.Machine
end

section
/-! PROOFS. That each shared operation of the label table, the forwarding unit and the price book upholds the invariants of the
stored collections. -/

namespace Sys2Proof.Machine

open Sys2Proof

variable {s t u : State}

/-! ### The label table (R84 to R86) -/

@[simp] theorem Upholds.refuseClaim (h : Upholds s t) (l : Nat) (c : Station) (x : Option Int) :
    Upholds s (t.refuseClaim l c x) := h.send _ rfl

theorem State.owned_putOwned_self (s : State) (n : Nat) (o : Owned) : (s.putOwned n o).owned n = some o :=
  AMap.get_put_self _ _ _

/-- Replacing an OWNED entry takes none away. -/
theorem State.owned_putOwned_isSome {n : Nat} (s : State) (k : Nat) (o : Owned) (h : (s.owned n).isSome) :
    ((s.putOwned k o).owned n).isSome := by
  simp only [State.owned, State.putOwned, State.withLabels, AMap.get_put] at h ⊢
  split
  · rfl
  · exact h

@[simp] theorem Upholds.retarget (h : Upholds s t) (l : Nat) (x : Target) : Upholds s (t.retarget l x) := by
  refine h.trans ?_
  unfold State.retarget
  split
  · exact .refl t
  · next o ho =>
    have put : ∀ p, Upholds t (t.putOwned l p) := fun p => (Upholds.refl t).putOwned p (by simp [ho])
    dsimp only
    split
    · exact put _
    · exact put _
    · exact put _
    · exact put _
    · split
      · exact put _
      · exact (put _).refuseClaim _ _ _

@[simp] theorem Upholds.mark (h : Upholds s t) (a : Nat) (x : Target) : Upholds s (t.mark a x) :=
  h.foldl _ fun u l => (Upholds.refl u).retarget l x

@[simp] theorem Upholds.unbindOne (h : Upholds s t) (a l : Nat) : Upholds s (t.unbindOne a l) := by
  refine h.trans ?_
  unfold State.unbindOne
  split
  · exact .refl t
  · next o ho => exact (((Upholds.refl t).putOwned _ (by simp [ho])).retarget _ _).uncountBound _

@[simp] theorem Upholds.unbindAll (h : Upholds s t) (a : Nat) : Upholds s (t.unbindAll a) :=
  h.foldl _ fun u l => (Upholds.refl u).unbindOne a l

/-! ### The forwarding unit (R143 to R163) -/

@[simp] theorem Upholds.endAuth (h : Upholds s t) (l : LaneNo) (f : AuthFlight) (r : LaneReply) :
    Upholds s (t.endAuth l f r) := (h.withLane l (fun x => { x with flight := none, last := some (f.bit, .auth, r) })
  fun _ => rfl).emit _

@[simp] theorem Upholds.lateReply (h : Upholds s t) (l : LaneNo) : Upholds s (t.lateReply l) := h.withLane l _ fun _ => rfl

@[simp] theorem Upholds.dropPending (h : Upholds s t) (l : LaneNo) : Upholds s (t.dropPending l) := h.withFwd _

@[simp] theorem Upholds.addPending (h : Upholds s t) (l : LaneNo) (n : Nat) (x : AuthPath) : Upholds s (t.addPending l n x) :=
  h.withFwd _

@[simp] theorem Upholds.withdrawAuth (h : Upholds s t) (l : LaneNo) (n : Nat) : Upholds s (t.withdrawAuth l n) :=
  h.frame (t.withdrawAuth_keeps l n) (by decide)

@[simp] theorem Upholds.transmit (h : Upholds s t) : Upholds s t.transmit := h.frame t.transmit_keeps (by decide)

@[simp] theorem Upholds.joinUplink (h : Upholds s t) (p : Parcel) : Upholds s (t.joinUplink p) := (h.withFwd _).transmit

@[simp] theorem Upholds.offerGuest (h : Upholds s t) (p : Parcel) : Upholds s (t.offerGuest p).2 := h.frame (t.offerGuest_keeps p) (by decide)

@[simp] theorem Upholds.relaySent (h : Upholds s t) (b : Bool) : Upholds s (t.relaySent b) := h.bump _

@[simp] theorem Upholds.removeSessionParcels (h : Upholds s t) : Upholds s t.removeSessionParcels := h.withFwd _

@[simp] theorem Upholds.admitGuest (h : Upholds s t) (a : Nat) : Upholds s (t.admitGuest a).2 := h.frame (t.admitGuest_keeps a) (by decide)

@[simp] theorem Upholds.bucketTest (h : Upholds s t) (g : Guest) (n : Nat) : Upholds s (t.bucketTest g n).2 :=
  h.frame (t.bucketTest_keeps g n) (by decide)

@[simp] theorem Upholds.guestReply (h : Upholds s t) (p : Parcel) : Upholds s (t.guestReply p) := h.frame (t.guestReply_keeps p) (by decide)

@[simp] theorem Upholds.fwdModeChanged (h : Upholds s t) (m : Mode) : Upholds s (t.fwdModeChanged m) :=
  h.frame (t.fwdModeChanged_keeps m) (by decide)

@[simp] theorem Upholds.authOutcome (h : Upholds s t) (l : LaneNo) (n : Nat) (r : LaneReply) : Upholds s (t.authOutcome l n r) := by
  refine h.trans ?_
  unfold State.authOutcome
  repeat' split
  all_goals simp

@[simp] theorem Upholds.outcomeWithoutEntry (h : Upholds s t) (l : LaneNo) : Upholds s (t.outcomeWithoutEntry l) := by
  refine h.trans ?_
  unfold State.outcomeWithoutEntry
  simp

@[simp] theorem Upholds.pendingOutcome (h : Upholds s t) (l : LaneNo) (n : Nat) (r : LaneReply) : Upholds s (t.pendingOutcome l n r) := by
  refine h.trans ?_
  unfold State.pendingOutcome
  repeat' split
  all_goals simp

@[simp] theorem Upholds.offer_relayOut (h : Upholds s t) (n : Station) (p : Parcel) :
    Upholds s (t.offer (relayFrame n p .relayOut)).2 := h.offer _ rfl

@[simp] theorem Upholds.offer_relayBack (h : Upholds s t) (n : Station) (p : Parcel) :
    Upholds s (t.offer (relayFrame n p .relayBack)).2 := h.offer _ rfl

theorem Upholds.drainRelayBack (q : List Parcel) (h : Upholds s t) : Upholds s (drainRelayBack q t) := by
  induction q generalizing t with
  | nil => exact h.withFwd _
  | cons p q ih =>
    unfold Machine.drainRelayBack
    dsimp only
    split
    · exact h.withFwd _
    split
    · exact ih (h.bump _)
    split
    · exact ih ((h.offer_relayBack _ _).bump _)
    · exact ih (h.offer_relayBack _ _)

@[simp] theorem Upholds.sendBack (h : Upholds s t) (p : Parcel) : Upholds s (t.sendBack p) := by
  refine h.trans ?_
  unfold State.sendBack
  dsimp only
  repeat' split
  all_goals simp

@[simp] theorem Upholds.reportTill (h : Upholds s t) (p : Parcel) (x : ParcelStatus) : Upholds s (t.reportTill p x) := by
  refine h.trans ?_
  unfold State.reportTill
  repeat' split
  all_goals simp

@[simp] theorem Upholds.carryOut (h : Upholds s t) (p : Parcel) : Upholds s (t.carryOut p) := by
  unfold State.carryOut
  dsimp only
  split
  · split
    · exact h.reportTill p _
    · exact h.bump _
    · exact h.bump _
  split
  · split
    · exact (h.bump _).joinUplink p
    · exact h.reportTill p _
  · split
    · exact ((h.bump _).withFwd _).joinUplink p
    · exact h.bump _
  · split
    · exact h.bump _
    split
    · exact (h.offerGuest p).bump _
    · exact h.offerGuest p

@[simp] theorem Upholds.relayLost (h : Upholds s t) (b : Bool) (p : Parcel) : Upholds s (t.relayLost b p) := by
  refine h.trans ?_
  unfold State.relayLost
  repeat' split
  all_goals simp

@[simp] theorem Upholds.routeAuth (h : Upholds s t) (l : LaneNo) (n : Nat) (p : List Byte) : Upholds s (t.routeAuth l n p).2 := by
  refine h.trans ?_
  unfold State.routeAuth
  dsimp only
  repeat' split
  all_goals simp

@[simp] theorem Upholds.handSession (h : Upholds s t) (p : List Byte) : Upholds s (t.handSession p).2 := by
  unfold State.handSession
  dsimp only
  split
  · split
    · exact (h.withFwd _).joinUplink _
    · simp [h]
  split
  · exact h
  · next n hn =>
    have offered := (h.withFwd fun w => { w with sessionPath := some (.holder n) }).offer_relayOut n
    split
    · exact offered _
    · exact offered _
    · dsimp only
      exact (offered _).relayLost _ _

@[simp] theorem Upholds.loseTill (h : Upholds s t) (ps : List Parcel) : Upholds s (t.loseTill ps) :=
  h.foldl ps fun u p => ((Upholds.refl u).bump _).reportTill p _

@[simp] theorem Upholds.uplinkLost (h : Upholds s t) : Upholds s t.uplinkLost := ((h.withFwd _).bumpBy _ _).loseTill _

@[simp] theorem Upholds.routeGuest (h : Upholds s t) (a : Nat) (p : List Byte) : Upholds s (t.routeGuest a p) := by
  refine h.trans ?_
  unfold State.routeGuest
  dsimp only
  repeat' split
  all_goals simp

@[simp] theorem Upholds.guestFrame (h : Upholds s t) (a : Nat) (p : List Byte) : Upholds s (t.guestFrame a p) := by
  unfold State.guestFrame
  dsimp only
  cases findGuest a t.fwd.guests <;> dsimp only
  · have admitted := h.admitGuest a
    split
    · exact admitted
    split
    · exact admitted.withFwd _
    split
    · exact ((admitted.withFwd _).bucketTest _ _).routeGuest _ _
    · exact (admitted.withFwd _).bucketTest _ _
  · split
    · exact h
    split
    · exact h.withFwd _
    split
    · exact ((h.withFwd _).bucketTest _ _).routeGuest _ _
    · exact (h.withFwd _).bucketTest _ _

/-! ### The price book (R8 to R25) -/

/-- A changeover whose queued change, if any, is of a later version than its pending one (R1, R4). -/
def Changeover.Rises (c : Changeover) : Prop := ∀ q, c.queued = some q → c.pending.version < q.version

theorem Entry.Rising.changeover {e : Entry} {c : Changeover} (h : e.Rising) (hp : e.phase = .changing c) :
    e.version < c.pending.version ∧ c.Rises := by
  rw [Entry.Rising, hp] at h
  exact h

theorem Book.Ok.entry_rising {a : Nat} {e : Entry} (h : s.book.Ok) (he : s.entry a = some e) : e.Rising :=
  h.rising _ (AMap.mem_of_get he)

/-- A completed changeover leaves its article's entry with rising versions: the pending version is below a queued one (R18,
R19). -/
theorem Upholds.complete (h : Upholds s t) (a : Nat) {c : Changeover} (hc : s.book.Ok → c.Rises) :
    Upholds s (t.complete a c) := by
  unfold State.complete
  split
  · refine h.modifyEntry a _ fun hs e _ _ => ?_
    cases hq : c.queued with
    | none => simp [Entry.Rising, Entry.completeSet, hq]
    | some q => simpa [Entry.Rising, Entry.completeSet, hq] using hc hs q hq
  · dsimp only
    split
    · exact (h.unbindAll a).removeEntry a
    · next q hq =>
      split
      · exact (h.unbindAll a).modifyEntry a _ fun hs e _ _ => hc hs q hq
      · exact ((h.unbindAll a).removeEntry a).bump _

/-- The CHANGING entry of an article changes what it holds beside its versions (R11, R14). -/
theorem Upholds.setChangeover (h : Upholds s t) {a : Nat} {e : Entry} {c d : Changeover} (he : t.entry a = some e)
    (hp : e.phase = .changing c) (hpend : d.pending = c.pending) (hqueue : d.queued = c.queued) :
    Upholds s (t.modifyEntry a fun e => { e with phase := .changing d }) := by
  refine h.modifyEntry a _ fun hs x hx _ => ?_
  have ht := h.book hs
  have hex : x = e := Option.some.inj (((AMap.get_eq_some_iff ht.once).2 hx).symm.trans he)
  obtain ⟨hlt, hrises⟩ := (ht.entry_rising he).changeover hp
  simp only [Entry.Rising, hex, hpend, hqueue]
  exact ⟨hlt, hrises⟩

theorem Upholds.release (h : Upholds s t) {a : Nat} {e : Entry} {c : Changeover} (he : t.entry a = some e)
    (hp : e.phase = .changing c) (n : Station) : Upholds s (t.release a c n) := by
  have left := h.setChangeover (d := { c with holdout := dropStation n c.holdout }) he hp rfl rfl
  unfold State.release
  dsimp only
  split
  · exact left.complete a fun hs => (((h.book hs).entry_rising he).changeover hp).2
  · exact left


@[simp] theorem Upholds.addReport (h : Upholds s t) (r : Report) : Upholds s (t.addReport r) := by
  refine h.trans ?_
  unfold State.addReport
  repeat' split
  all_goals simp

@[simp] theorem Upholds.formReports (h : Upholds s t) : Upholds s t.formReports := by
  unfold State.formReports
  split
  · exact h
  · exact (h.offer _ rfl).withBook _ fun _ => rfl

theorem State.addReport_entry (s : State) (r : Report) (a : Nat) : (s.addReport r).entry a = s.entry a := by
  unfold State.addReport
  repeat' split
  all_goals simp [State.entry]

@[simp] theorem Upholds.localDone (h : Upholds s t) (a v : Nat) : Upholds s (t.localDone a v) := by
  refine h.trans ?_
  unfold State.localDone
  split
  · exact .refl t
  · next e he =>
    split
    · exact .refl t
    · exact .refl t
    · next c hp =>
      split
      · exact (((Upholds.refl t).addReport _).release (by rw [State.addReport_entry]; exact he) hp _).formReports
      · exact .refl t


@[simp] theorem Upholds.floorReport (h : Upholds s t) (a : Nat) : Upholds s (t.floorReport a) := by
  refine h.trans ?_
  unfold State.floorReport
  repeat' split
  all_goals simp

@[simp] theorem Upholds.floorReportOpt (h : Upholds s t) (a : Option Nat) : Upholds s (t.floorReportOpt a) := by
  refine h.trans ?_
  unfold State.floorReportOpt
  repeat' split
  all_goals simp

@[simp] theorem Upholds.startChangeover (h : Upholds s t) {a : Nat} {e : Entry} {p : Change} (he : t.entry a = some e)
    (hp : e.phase = .waiting p) : Upholds s (t.startChangeover a e p) := by
  refine h.trans ?_
  have starts : ∀ x : Target, Upholds t ((t.putEntry a { e with phase := .changing ⟨p, none, t.newHoldout, t.newDeadline, 0⟩ }).mark a x) := fun x =>
    ((Upholds.refl t).putEntry a _ (fun ht => by simpa [Entry.Rising, hp] using ht.entry_rising he) (by simp [he])).mark a x
  unfold State.startChangeover
  dsimp only
  split
  · exact (starts _).complete a fun _ q hq => by cases hq
  · have done := fun x => (starts x).localDone a p.version
    split <;> split
    · exact done _
    · exact starts _
    · exact done _
    · exact starts _

theorem Upholds.effectiveTimeReached (h : Upholds s t) {a : Nat} {e : Entry} {p : Change} (he : t.entry a = some e)
    (hp : e.phase = .waiting p) : Upholds s (t.effectiveTimeReached a e p) := by
  unfold State.effectiveTimeReached
  split
  · exact h.startChangeover he hp
  split
  · exact h.putEntry a _ (fun _ => trivial) (by simp [he])
  · exact h.removeEntry a

@[simp] theorem Upholds.examine (h : Upholds s t) (a : Nat) : Upholds s (t.examine a) := by
  unfold State.examine
  split
  · exact h
  · next e he =>
    split
    · exact h
    · next p hp =>
      split
      · exact h.effectiveTimeReached he hp
      · exact h
    · next c hp =>
      exact h.putEntry a _ (fun ht => by simpa [Entry.Rising, Changeover.tick, hp] using ht.entry_rising he) (by simp [he])

@[simp] theorem Upholds.setQueryStatus (h : Upholds s t) (n : Station) (q : QueryStatus) (a : Nat) :
    Upholds s (t.setQueryStatus n q a) := by
  refine h.modifyEntry a _ fun _ e _ he => ?_
  split
  · exact he
  · exact he
  · next c hp => simpa [Entry.Rising, hp] using he

@[simp] theorem Upholds.queryStation (h : Upholds s t) (n : Station) : Upholds s (t.queryStation n) := by
  unfold State.queryStation
  dsimp only
  split
  · exact ((h.send _ rfl).foldl _ fun u q => (Upholds.refl u).setQueryStatus n _ _).withBook _ fun _ => rfl
  · exact h

@[simp] theorem Upholds.takeDone (h : Upholds s t) (n : Station) (r : Report) : Upholds s (t.takeDone n r) := by
  unfold State.takeDone
  split
  · exact h
  · next e he =>
    split
    · exact h
    · exact h
    · next c hp =>
      split
      · exact h.release he hp n
      · exact h

@[simp] theorem Upholds.answerQuery (h : Upholds s t) (n : Station) (rs : List Report) : Upholds s (t.answerQuery n rs) := by
  unfold State.answerQuery
  dsimp only
  repeat' split
  · exact h
  · exact h.send _ rfl
  · exact h.send _ rfl
  · exact (h.send _ rfl).send _ rfl


@[simp] theorem Upholds.takePending (h : Upholds s t) (n : Station) (r : Report) : Upholds s (t.takePending n r) := by
  refine h.trans ?_
  unfold State.takePending
  repeat' split
  all_goals simp

@[simp] theorem Upholds.listeningCheck (h : Upholds s t) (a : Nat) : Upholds s (t.listeningCheck a) := by
  refine h.trans ?_
  unfold State.listeningCheck
  repeat' split
  all_goals simp

@[simp] theorem Upholds.listeningShelfCheck (h : Upholds s t) : Upholds s t.listeningShelfCheck :=
  h.foldl _ fun u a => (Upholds.refl u).listeningCheck a

end Sys2Proof.Machine
end

section
/-! PROOFS. That each shared operation of the session, the staging list, the mode and event unit and the lanes upholds the
invariants of the stored collections. -/

namespace Sys2Proof.Machine

open Sys2Proof

variable {s t u : State}

/-! ### Attempts (R169 to R183) -/

@[simp] theorem Upholds.attemptDone (h : Upholds s t) : Upholds s t.attemptDone := h.frame t.attemptDone_keeps (by decide)

@[simp] theorem Upholds.discardCollecting (h : Upholds s t) : Upholds s t.discardCollecting := h.frame t.discardCollecting_keeps (by decide)

@[simp] theorem Upholds.stopAttempt (h : Upholds s t) : Upholds s t.stopAttempt :=
  ((h.withLink _).clearSent.removeSessionParcels.discardCollecting).bump _

@[simp] theorem Upholds.sessionFailed (h : Upholds s t) (r : FailReason) (c : Option Nat) : Upholds s (t.sessionFailed r c) :=
  (h.withLink _).recordAlert _ _ _ _

@[simp] theorem Upholds.restOrDone (h : Upholds s t) (r : FailReason) : Upholds s (t.restOrDone r) := by
  refine h.trans ?_
  unfold State.restOrDone
  dsimp only
  repeat' split
  all_goals simp

@[simp] theorem Upholds.failAttempt (h : Upholds s t) (r : FailReason) : Upholds s (t.failAttempt r) := h.stopAttempt.restOrDone r

@[simp] theorem Upholds.sessionEvent (h : Upholds s t) (r : FailReason) : Upholds s (t.sessionEvent r) := by
  refine h.trans ?_
  unfold State.sessionEvent
  repeat' split
  all_goals simp

@[simp] theorem Upholds.joinBatch (h : Upholds s t) (rs : List JournalRecord) : Upholds s (t.joinBatch rs) := h.frame (t.joinBatch_keeps rs) (by decide)

@[simp] theorem Upholds.closing (h : Upholds s t) (ms : List OutMessage) (o : FileOutcome) : Upholds s (t.closing ms o) :=
  h.withLink _

@[simp] theorem Upholds.downloadDecision (h : Upholds s t) : Upholds s t.downloadDecision := h.frame t.downloadDecision_keeps (by decide)

@[simp] theorem Upholds.onQueued (h : Upholds s t) (m : OutMessage) : Upholds s (t.onQueued m) := h.frame (t.onQueued_keeps m) (by decide)

theorem Upholds.pump (n : Nat) (h : Upholds s t) : Upholds s (pump n t) := by
  induction n generalizing t with
  | zero => exact h
  | succ n ih =>
    unfold Machine.pump
    dsimp only
    split
    · exact h
    split
    · next m _ _ =>
      have handed := h.handSession (messageBytes m)
      split
      · exact ih (handed.onQueued m)
      · exact handed.withLink _
      · exact handed.sessionEvent _
    · split
      · have taken := h.takeBatch (t.link.cut.getD 0)
        split
        · exact taken
        · split
          · exact ih taken.downloadDecision
          · exact taken
        · exact ih (taken.joinBatch _)
      · exact h

@[simp] theorem Upholds.pumpSession (h : Upholds s t) : Upholds s t.pumpSession := h.pump _

@[simp] theorem Upholds.toldQueued (h : Upholds s t) : Upholds s t.toldQueued := by
  refine h.trans ?_
  unfold State.toldQueued
  repeat' split
  all_goals simp

@[simp] theorem Upholds.serveHeld (h : Upholds s t) : Upholds s t.serveHeld := by
  unfold State.serveHeld
  split
  · exact h
  · split
    · exact (h.withFwd _).transmit.toldQueued
    · exact h

@[simp] theorem Upholds.startAttempt (h : Upholds s t) (k : AttemptKind) : Upholds s (t.startAttempt k) :=
  ((h.withLink _).bump _).pumpSession

@[simp] theorem Upholds.testWindowStart (h : Upholds s t) : Upholds s t.testWindowStart := by
  refine h.trans ?_
  unfold State.testWindowStart
  dsimp only
  repeat' split
  all_goals simp

@[simp] theorem Upholds.keyEdge (h : Upholds s t) : Upholds s t.keyEdge := by
  refine h.trans ?_
  unfold State.keyEdge
  repeat' split
  all_goals simp

@[simp] theorem Upholds.earlyStart (h : Upholds s t) : Upholds s t.earlyStart := by
  refine h.trans ?_
  unfold State.earlyStart
  repeat' split
  all_goals simp

@[simp] theorem Upholds.watermarkCrossed (h : Upholds s t) : Upholds s t.watermarkCrossed := by
  refine h.trans ?_
  unfold State.watermarkCrossed
  repeat' split
  all_goals simp

@[simp] theorem Upholds.takeEarlyNotice (h : Upholds s t) : Upholds s t.takeEarlyNotice := by
  refine h.trans ?_
  unfold State.takeEarlyNotice
  repeat' split
  all_goals simp

@[simp] theorem Upholds.judgeHolder (h : Upholds s t) : Upholds s t.judgeHolder := by
  unfold State.judgeHolder
  dsimp only
  split
  · exact h
  split
  · exact (h.withFwd _).bump _
  split
  · exact ((h.withFwd _).bump _).sessionEvent _
  · exact (h.withFwd _).bump _

/-! ### The staging list (R184 to R188) -/

@[simp] theorem Upholds.storeRecords (h : Upholds s t) (i : Nat) (rs : List ChangeRecord) : Upholds s (storeRecords i rs t) :=
  h.frame (storeRecords_keeps i rs t) (by decide)

@[simp] theorem Upholds.freeStaging (h : Upholds s t) : Upholds s t.freeStaging := h.frame t.freeStaging_keeps (by decide)

/-- A share frame is an announce, a run of records, or a close (R188). -/
theorem Staging.shareFrame_fits (g : Staging) (p : Nat) : (Frame.new none (g.shareFrame p) .share).fits = true := by
  unfold Staging.shareFrame
  dsimp only
  repeat' split
  all_goals rfl

theorem Upholds.shareFrom (n : Nat) (h : Upholds s t) : Upholds s (shareFrom n t) := by
  induction n generalizing t with
  | zero => exact h
  | succ n ih =>
    unfold Machine.shareFrom
    dsimp only
    split
    · exact h
    split
    · exact (h.withStaging _).freeStaging
    · next p _ _ =>
      have offered := h.offer _ (t.staging.shareFrame_fits p)
      split
      · exact ih (offered.withStaging _)
      · exact offered
      · exact ih ((offered.bump _).withStaging _)

@[simp] theorem Upholds.shareOn (h : Upholds s t) : Upholds s t.shareOn := h.shareFrom _

@[simp] theorem Upholds.shareNext (h : Upholds s t) : Upholds s t.shareNext := by
  refine h.trans ?_
  unfold State.shareNext
  repeat' split
  all_goals simp

@[simp] theorem Upholds.releaseComplete (h : Upholds s t) : Upholds s t.releaseComplete :=
  ((((h.withBook (fun b => { b with cursor := none }) fun _ => rfl).withLink _).bump _).withStaging _).freeStaging

@[simp] theorem Upholds.beginRelease (h : Upholds s t) : Upholds s t.beginRelease := by
  have begun : ∀ f, Upholds s ((t.withStaging f).withBook fun b => { b with cursor := some 0 }) := fun f =>
    (h.withStaging f).withBook _ fun _ => rfl
  unfold State.beginRelease
  dsimp only
  repeat' split
  all_goals first | exact (begun _).releaseComplete.shareOn | exact (begun _).shareOn

/-! ### The mode and event unit (R190 to R199) -/

@[simp] theorem Upholds.noticeMode (h : Upholds s t) (m : Mode) : Upholds s (t.noticeMode m) := by
  refine h.trans ?_
  unfold State.noticeMode
  dsimp only
  repeat' split
  all_goals simp

@[simp] theorem Upholds.changeMode (h : Upholds s t) (m : Mode) : Upholds s (t.changeMode m) := by
  have noticed := ((h.withUnit fun u => { u with mode := m }).bump .modeChanges).noticeMode m
  unfold State.changeMode
  dsimp only
  split
  · exact noticed.recordAlert _ _ _ _
  · exact noticed

@[simp] theorem Upholds.decideMode (h : Upholds s t) : Upholds s t.decideMode := by
  refine h.trans ?_
  unfold State.decideMode
  dsimp only
  repeat' split
  all_goals simp

@[simp] theorem Upholds.recordSchedule (h : Upholds s t) : Upholds s t.recordSchedule := h.frame t.recordSchedule_keeps (by decide)

@[simp] theorem Upholds.testRollover (h : Upholds s t) : Upholds s t.testRollover := h.frame t.testRollover_keeps (by decide)

@[simp] theorem Upholds.afterClock (h : Upholds s t) : Upholds s t.afterClock := h.recordSchedule.decideMode.testRollover

@[simp] theorem Upholds.takeTime (h : Upholds s t) (x : StoreTime) (c : Count) : Upholds s (t.takeTime x c) :=
  ((h.withUnit _).bump _).afterClock

@[simp] theorem Upholds.timeFromMark (h : Upholds s t) (x : StoreTime) : Upholds s (t.timeFromMark x) := by
  refine h.trans ?_
  unfold State.timeFromMark
  repeat' split
  all_goals simp

@[simp] theorem Upholds.timeFromAccept (h : Upholds s t) (x : StoreTime) : Upholds s (t.timeFromAccept x) := by
  refine h.trans ?_
  unfold State.timeFromAccept
  repeat' split
  all_goals simp

@[simp] theorem Upholds.mainsChanged (h : Upholds s t) (b : Bool) : Upholds s (t.mainsChanged b) := h.frame (t.mainsChanged_keeps b) (by decide)

@[simp] theorem Upholds.readLines (h : Upholds s t) : Upholds s t.readLines := h.frame t.readLines_keeps (by decide)

@[simp] theorem Upholds.endOverride (h : Upholds s t) : Upholds s t.endOverride := h.frame t.endOverride_keeps (by decide)

@[simp] theorem Upholds.lineChanged (h : Upholds s t) (n : LineNo) (b : Bool) : Upholds s (t.lineChanged n b) := by
  have level := fun f => h.withUnit f
  unfold State.lineChanged
  dsimp only
  split <;> split
  · exact (level _).decideMode.keyEdge
  · exact ((level _).mainsChanged _).decideMode.keyEdge
  · exact (level _).decideMode
  · exact ((level _).mainsChanged _).decideMode

/-! ### Messages from head office (R173 to R180) -/

@[simp] theorem Upholds.unexpected (h : Upholds s t) : Upholds s t.unexpected := h.bump _

@[simp] theorem Upholds.restartReply (h : Upholds s t) : Upholds s t.restartReply := h.withLink _

@[simp] theorem Upholds.takeAccept (h : Upholds s t) (x : StoreTime) (n : Nat) : Upholds s (t.takeAccept x n) :=
  ((h.withLink _).restartReply.timeFromAccept x).pumpSession

@[simp] theorem Upholds.takeRefuse (h : Upholds s t) (n : Nat) : Upholds s (t.takeRefuse n) :=
  (h.stopAttempt.withLink _).sessionFailed _ _

@[simp] theorem Upholds.takeBatchTaken (h : Upholds s t) (n : Nat) : Upholds s (t.takeBatchTaken n) := by
  unfold State.takeBatchTaken
  split
  · exact h.failAttempt _
  · split
    · exact ((((h.acknowledge _ _).withLink _).restartReply).bump _).pumpSession
    · exact h.failAttempt _

@[simp] theorem Upholds.refuseFile (h : Upholds s t) (n : Nat) (b : Bool) : Upholds s (t.refuseFile n b) :=
  (((h.withStaging _).bump _).closing _ _).pumpSession

@[simp] theorem Upholds.takeFileStart (h : Upholds s t) (n : Nat) (c : Nat) (k : Nat) : Upholds s (t.takeFileStart n c k) := by
  refine h.trans ?_
  unfold State.takeFileStart
  repeat' split
  all_goals simp

@[simp] theorem Upholds.fileFailed (h : Upholds s t) (n : Nat) : Upholds s (t.fileFailed n) :=
  ((((h.recordAlert _ _ _ _).bump _).withStaging _).withLink _).pumpSession

@[simp] theorem Upholds.takeFileEnd (h : Upholds s t) (n : Nat) : Upholds s (t.takeFileEnd n) := by
  unfold State.takeFileEnd
  split
  · exact ((h.bump _).beginRelease.closing _ _).pumpSession
  · exact h.fileFailed n

@[simp] theorem Upholds.fileOver (h : Upholds s t) (f : Staging → Staging) (ms : List OutMessage) (o : FileOutcome) :
    Upholds s ((t.withStaging f).closing ms o).pumpSession := ((h.withStaging f).closing ms o).pumpSession

@[simp] theorem Upholds.awaited (h : Upholds s t) (m : InMessage) : Upholds s (t.awaited m) := by
  refine h.trans ?_
  unfold State.awaited
  repeat' split
  all_goals simp

@[simp] theorem Upholds.message (h : Upholds s t) (n : Nat) (m : InMessage) : Upholds s (t.message n m) := by
  refine h.trans ?_
  unfold State.message
  repeat' split
  all_goals simp

@[simp] theorem Upholds.deliverMessage (h : Upholds s t) (n : Nat) (m : InMessage) : Upholds s (t.deliverMessage n m) := by
  refine h.trans ?_
  unfold State.deliverMessage
  repeat' split
  all_goals simp

@[simp] theorem Upholds.openWindow (h : Upholds s t) : Upholds s t.openWindow := h.frame t.openWindow_keeps (by decide)

@[simp] theorem Upholds.testResting (h : Upholds s t) : Upholds s t.testResting := by
  refine h.trans ?_
  unfold State.testResting
  dsimp only
  repeat' split
  all_goals simp

/-! ### Lanes and baskets (R27 to R46) -/

@[simp] theorem Upholds.goodFrame (h : Upholds s t) (l : LaneNo) : Upholds s (t.goodFrame l) :=
  h.withLane l (fun x => { x with state := .up, timer := some (t.now + Config.seconds 10) }) fun _ => rfl

@[simp] theorem Upholds.answer (h : Upholds s t) (l : LaneNo) (b : Bool) (k : RequestKind) (r : LaneReply) :
    Upholds s (t.answer l b k r) :=
  (h.withLane l (fun x => { x with last := some (b, k, r), restart := false }) fun _ => rfl).emit _

/-- A basket's lists and running total are free of when it was last used and of its total result. -/
theorem Basket.Ok.congr {b c : Basket} (h : b.Ok) (hl : c.lines = b.lines) (ht : c.terms = b.terms)
    (hr : c.running = b.running) : c.Ok := by
  obtain ⟨lines, terms, once, running, limit⟩ := h
  exact ⟨by rwa [hl], by rwa [ht], by rwa [ht], by rw [hr, hl]; exact running, by rwa [hr]⟩

@[simp] theorem Upholds.touch (h : Upholds s t) (l : LaneNo) : Upholds s (t.touch l) :=
  h.withLane_of l _ fun hb c hc => by
    obtain ⟨b, hbasket, rfl⟩ := Option.map_eq_some_iff.1 hc
    exact (hb b hbasket).congr rfl rfl rfl

theorem Upholds.setBasket (h : Upholds s t) (l : LaneNo) (b : Basket)
    (hb : (∀ x, (t.lane l).basket = some x → x.Ok) → b.Ok) : Upholds s (t.setBasket l (some b)) :=
  h.withLane_of l _ fun hx c hc => by
    cases hc
    exact hb hx

@[simp] theorem Upholds.setBasket_none (h : Upholds s t) (l : LaneNo) : Upholds s (t.setBasket l none) :=
  h.withLane_noBasket l _ fun _ => rfl

theorem Basket.ok_empty (id now : Nat) :
    ({ id := id, lines := [], terms := [], running := 0, lastActivity := now, result := none } : Basket).Ok :=
  ⟨Nat.zero_le _, Nat.zero_le _, List.nodup_nil, rfl, Nat.zero_le _⟩

@[simp] theorem Upholds.actOpen (h : Upholds s t) (l : LaneNo) : Upholds s (t.actOpen l).2 := by
  unfold State.actOpen
  split
  · exact h
  · dsimp only
    refine h.withLane_of l _ fun _ b hb => ?_
    cases hb
    exact Basket.ok_empty _ _

/-- The terms an ITEM is priced from are the basket's of that article, or new ones of an article the basket has none of, in a
list that is not full (R37). -/
theorem State.itemTerms_eq {s : State} {b : Basket} {a : Nat} {x : TermsRecord} {new : Bool}
    (h : s.itemTerms b a = .inr (x, new)) :
    (new = false ∧ x ∈ b.terms) ∨
      (new = true ∧ x.article = a ∧ a ∉ b.terms.map (·.article) ∧ b.terms.length < Config.termsCapacity) := by
  unfold State.itemTerms at h
  split at h
  · next y hy =>
    cases h
    exact .inl ⟨rfl, List.mem_of_find?_eq_some hy⟩
  · next hnone =>
    have hfree : a ∉ b.terms.map (·.article) := fun hmem => by
      obtain ⟨y, hy, rfl⟩ := List.mem_map.1 hmem
      simpa using List.find?_eq_none.1 hnone y hy
    split at h
    · cases h
    split at h
    · cases h
    split at h
    · cases h
    · next e he y hy =>
      split at h
      · cases h
      · next hroom =>
        cases h
        obtain ⟨c, _, rfl⟩ := Option.map_eq_some_iff.1 hy
        exact .inr ⟨rfl, rfl, hfree, Nat.lt_of_not_le hroom⟩

/-- An accepted ITEM keeps the basket: its line is live and its amount joins the total, which stays within the limit (R38, R56,
R57). -/
theorem Basket.Ok.add {b : Basket} (h : b.Ok) {x : TermsRecord} {new : Bool} {line : Line}
    (hlines : b.lines.length < Config.lineCapacity) (hvoid : line.void = false)
    (hnew : new = true → x.article ∉ b.terms.map (·.article) ∧ b.terms.length < Config.termsCapacity)
    (hlimit : b.running + line.amount ≤ runningMax) : (b.add x new line (b.running + line.amount)).Ok := by
  refine ⟨?_, ?_, ?_, ?_, hlimit⟩
  · simpa [Basket.add] using hlines
  · cases new with
    | false => exact h.terms
    | true => simpa [Basket.add] using (hnew rfl).2
  · cases new with
    | false => exact h.once
    | true =>
      obtain ⟨hfree, _⟩ := hnew rfl
      simp only [Basket.add, if_true, List.map_append, List.map_cons, List.map_nil]
      exact List.Nodup.append h.once (List.nodup_singleton _) (by simpa using hfree)
  · simp [Basket.add, List.filter_append, hvoid, sumAmount, h.running]

theorem priceLine_eq_some {x : TermsRecord} {q m r a n : Nat} (h : priceLine x q m r = some (a, n)) :
    a = lineAmount x q m ∧ n = r + a ∧ r + a ≤ runningMax := by
  unfold priceLine at h
  dsimp only at h
  split at h
  · next hle => cases h; exact ⟨rfl, rfl, hle.2⟩
  · cases h

@[simp] theorem Upholds.actItem (h : Upholds s t) (l : LaneNo) (a q : Nat) (m : Option Nat) :
    Upholds s (t.actItem l a q m).2 := by
  unfold State.actItem
  split
  · exact h
  · next b hb =>
    split
    · exact h
    · next hroom =>
      split
      · exact h
      · next x new hx =>
        dsimp only
        split
        · exact h
        split
        · exact h
        · next amount running hp =>
          obtain ⟨_, rfl, hlimit⟩ := priceLine_eq_some hp
          refine h.setBasket l _ fun hok => (hok b hb).add (line := newLine x q (m.getD 0) amount) (Nat.lt_of_not_le hroom) rfl
            (fun hnew => ?_) hlimit
          rcases State.itemTerms_eq hx with ⟨hf, _⟩ | ⟨_, rfl, hfree, hlen⟩
          · rw [hf] at hnew; cases hnew
          · exact ⟨hfree, hlen⟩

/-- The amount of a live line that is voided leaves the sum of the live lines. -/
theorem sumAmount_modify_void {x : Line} (hv : x.void = false) : ∀ {lines : List Line} {i : Nat}, lines[i]? = some x →
    sumAmount ((lines.modify i fun y => { y with void := true }).filter fun y => !y.void) + x.amount =
      sumAmount (lines.filter fun y => !y.void)
  | [], _, h => by simp at h
  | y :: l, 0, h => by
    obtain rfl : y = x := by simpa using h
    simp [sumAmount, hv, Nat.add_comm]
  | y :: l, i + 1, h => by
    have ih := sumAmount_modify_void hv (lines := l) (i := i) (by simpa using h)
    simp only [sumAmount] at ih ⊢
    cases hy : y.void <;> simp [hy] <;> omega

theorem Basket.live_spec {b : Basket} {n : Nat} {x : Line} (h : b.live n = some x) :
    b.lines[n - 1]? = some x ∧ x.void = false := by
  unfold Basket.live at h
  split at h
  · cases h
  split at h
  · cases h
  split at h
  · cases h
  · next y hy hv =>
    cases h
    exact ⟨hy, by simpa using hv⟩

/-- A VOID keeps the basket: the line's amount leaves the total with it (R39). -/
theorem Basket.Ok.voidLine {b : Basket} (h : b.Ok) {n : Nat} {x : Line} (hx : b.live n = some x) :
    (b.voidLine n x.amount).Ok := by
  obtain ⟨hget, hvoid⟩ := Basket.live_spec hx
  have hsum := sumAmount_modify_void hvoid hget
  have hrun := h.running
  refine ⟨by simpa [Basket.voidLine] using h.lines, h.terms, h.once, ?_, Nat.le_trans (Nat.sub_le _ _) h.limit⟩
  simp only [Basket.voidLine]
  omega

@[simp] theorem Upholds.actVoid (h : Upholds s t) (l : LaneNo) (n : Nat) : Upholds s (t.actVoid l n).2 := by
  unfold State.actVoid
  split
  · exact h
  · next b hb =>
    split
    · exact h
    · next x hx => exact h.setBasket l _ fun hok => (hok b hb).voidLine hx

@[simp] theorem Upholds.actTotal (h : Upholds s t) (l : LaneNo) : Upholds s (t.actTotal l).2 := by
  unfold State.actTotal
  split
  · exact h
  · next b hb => exact h.setBasket l _ fun hok => (hok b hb).congr rfl rfl rfl

@[simp] theorem Upholds.actClose (h : Upholds s t) (l : LaneNo) (x : Tender) : Upholds s (t.actClose l x).2 := by
  unfold State.actClose
  dsimp only
  split
  · exact h
  split
  · exact h
  split
  · exact h
  · have appended := h.append
    split
    · exact appended _
    · next n crossed _ =>
      have closed := fun r => (appended r).withLane_noBasket l (fun x => { x with lastClosed := n, basket := none })
        fun _ => rfl
      dsimp only
      split
      · exact (closed _).watermarkCrossed
      · exact closed _

@[simp] theorem Upholds.actCancel (h : Upholds s t) (l : LaneNo) : Upholds s (t.actCancel l).2 := by
  unfold State.actCancel
  split
  · exact h
  · exact (h.setBasket_none l).bump _

@[simp] theorem Upholds.actLookup (h : Upholds s t) (a : Nat) : Upholds s (t.actLookup a).2 := h.frame (t.actLookup_keeps a) (by decide)

@[simp] theorem Upholds.actAuth (h : Upholds s t) (l : LaneNo) (b : Bool) (p : List Byte) : Upholds s (t.actAuth l b p).2 := by
  have routed := ((h.withLane l (fun x => { x with authCount := nextId (t.lane l).authCount }) fun _ => rfl).routeAuth l
    (nextId (t.lane l).authCount) p)
  unfold State.actAuth
  dsimp only
  split
  · dsimp only
    exact routed.withLane l _ fun _ => rfl
  · exact routed
  · exact routed

theorem Upholds.request (h : Upholds s t) (l : LaneNo) (b : Bool) (k : RequestKind) {act : State → Acted}
    (ha : ∀ u, Upholds u (act u).2) : Upholds s (t.request l b k act) := by
  unfold State.request
  dsimp only
  split
  · exact h
  split
  · exact (h.goodFrame l).emit _
  split
  · exact h
  split
  · exact (h.goodFrame l).answer _ _ _ _
  split
  · exact (h.goodFrame l).emit _
  split
  · exact (h.goodFrame l).emit _
  · have acted := ((h.goodFrame l).touch l).trans (ha _)
    unfold State.newRequest
    dsimp only
    split
    · exact acted
    · exact acted.answer _ _ _ _

@[simp] theorem Upholds.discardFrame (h : Upholds s t) (l : LaneNo) (w : LaneFault) : Upholds s (t.discardFrame l w) := by
  unfold State.discardFrame
  split
  · exact h
  split
  · exact h
  · exact h.withLane l _ fun x => by cases w <;> rfl

end Sys2Proof.Machine
end

section
/-! PROOFS. That each shared operation of the label radio controller upholds the invariants of the stored collections. An operation
on an OWNED or a HEARD entry replaces it, makes it in a free place, or moves it from one part of the table to the other, so
the lemmas ask for the entry, or for the place. -/

namespace Sys2Proof.Machine

open Sys2Proof

variable {s t u : State}

/-! ### Entries that stay -/

theorem State.owned_of_keeps {fs : List Field} (h : keeps fs s t) (hl : Field.labels ∉ fs) (n : Nat) : t.owned n = s.owned n := by
  simp only [State.owned, show t.labels = s.labels from h _ hl]

theorem State.heard_of_keeps {fs : List Field} (h : keeps fs s t) (hl : Field.labels ∉ fs) (n : Nat) : t.heard n = s.heard n := by
  simp only [State.heard, show t.labels = s.labels from h _ hl]

@[simp] theorem State.owned_bump (s : State) (c : Count) (n : Nat) : (s.bump c).owned n = s.owned n :=
  State.owned_of_keeps (s.bump_keeps c) (by decide) n

@[simp] theorem State.heard_bump (s : State) (c : Count) (n : Nat) : (s.bump c).heard n = s.heard n :=
  State.heard_of_keeps (s.bump_keeps c) (by decide) n

@[simp] theorem State.owned_recordAlert (s : State) (k : AlertKind) (v : Severity) (x : Subject) (d : Detail) (n : Nat) :
    (s.recordAlert k v x d).owned n = s.owned n :=
  State.owned_of_keeps (s.recordAlert_keeps k v x d) (by decide) n

@[simp] theorem State.owned_offer (s : State) (f : Frame) (n : Nat) : (s.offer f).2.owned n = s.owned n :=
  State.owned_of_keeps (s.offer_keeps f) (by decide) n

@[simp] theorem State.owned_refuseClaim (s : State) (l : Nat) (c : Station) (x : Option Int) (n : Nat) :
    (s.refuseClaim l c x).owned n = s.owned n :=
  State.owned_of_keeps (s.refuseClaim_keeps l c x) (by decide) n

/-! ### Battery and unanswered attempts (R93 to R97) -/

@[simp] theorem Upholds.takeBattery (h : Upholds s t) (l : Nat) (b : Battery) : Upholds s (t.takeBattery l b) := by
  unfold State.takeBattery
  split
  · exact h
  · next o ho =>
    have put := h.putOwned (n := l) { o with battery := b } (by simp [ho])
    dsimp only
    split
    · exact put.recordAlert _ _ _ _
    · exact put

theorem State.owned_takeBattery_isSome {n : Nat} (s : State) (l : Nat) (b : Battery) (h : (s.owned n).isSome) :
    ((s.takeBattery l b).owned n).isSome := by
  unfold State.takeBattery
  split
  · exact h
  · dsimp only
    split
    · simpa using s.owned_putOwned_isSome l _ h
    · exact s.owned_putOwned_isSome l _ h

theorem Upholds.unanswered (h : Upholds s t) {l : Nat} (o : Owned) (hl : (t.owned l).isSome) :
    Upholds s (t.unanswered l o) := by
  have put := fun p => (h.bump .unansweredAttempts).putOwned (n := l) p (by simpa using hl)
  unfold State.unanswered
  dsimp only
  split
  · exact put _
  · exact (((put _).bump _).recordAlert _ _ _ _).floorReportOpt _

theorem Upholds.moveUnanswered (h : Upholds s t) {l : Nat} (o : Owned) (m : Move) (hl : (t.owned l).isSome) :
    Upholds s (t.moveUnanswered l o m) := by
  have put := fun p => (h.bump .unansweredAttempts).putOwned (n := l) p (by simpa using hl)
  unfold State.moveUnanswered
  dsimp only
  split
  · exact put _
  · exact ((put _).bump _).refuseClaim _ _ _

@[simp] theorem Upholds.endTurn (h : Upholds s t) (l : Nat) : Upholds s (t.endTurn l) := by
  unfold State.endTurn
  split
  · exact h
  · next o ho =>
    split
    · exact h
    · exact h
    · exact h.unanswered o (by simp [ho])
    · split
      · exact h.moveUnanswered o _ (by simp [ho])
      · exact h
    · exact h

@[simp] theorem Upholds.endTurns (h : Upholds s t) : Upholds s t.endTurns := h.foldl _ fun u l => (Upholds.refl u).endTurn l

@[simp] theorem Upholds.cutTurn (h : Upholds s t) (l : Nat) : Upholds s (t.cutTurn l) := by
  unfold State.cutTurn
  split
  · exact h
  · next o ho =>
    split
    · exact h
    · exact h
    · exact (h.putOwned _ (by simp [ho])).bump _
    · exact h.putOwned _ (by simp [ho])
    · exact h

@[simp] theorem Upholds.cutTurns (h : Upholds s t) : Upholds s t.cutTurns := h.foldl _ fun u l => (Upholds.refl u).cutTurn l

/-! ### The turns of a slot (R88 to R90, R116) -/

@[simp] theorem Upholds.unbindStray (h : Upholds s t) (l a : Nat) : Upholds s (t.unbindStray l a) := by
  unfold State.unbindStray
  split
  · exact h
  · next o ho => exact (((h.putOwned _ (by simp [ho])).retarget _ _).uncountOpt _).floorReport _


@[simp] theorem Upholds.redirect (h : Upholds s t) (l : Nat) : Upholds s (t.redirect l) := by
  refine h.trans ?_
  unfold State.redirect
  repeat' split
  all_goals simp

theorem Upholds.sendPacket (h : Upholds s t) {l : Nat} (d : Nat) (o : Owned) (hl : (t.owned l).isSome) :
    Upholds s (t.sendPacket l d o) := by
  have marked := fun x => h.putOwned { o with state := .sent d, lastSent := some x } hl
  unfold State.sendPacket
  dsimp only
  split
  · split
    · exact h
    · exact ((marked _).emit _).bump _
  · exact ((marked _).emit _).bump _
  · exact ((marked _).emit _).bump _

@[simp] theorem Upholds.takeTurn (h : Upholds s t) (l : Nat) : Upholds s (t.takeTurn l) := by
  have redirected := h.redirect l
  unfold State.takeTurn
  dsimp only
  split
  · exact redirected
  · next o ho =>
    split
    · exact redirected.sendPacket _ o (by simp [ho])
    all_goals exact redirected

@[simp] theorem Upholds.sendMove (h : Upholds s t) (l : Nat) : Upholds s (t.sendMove l) := by
  unfold State.sendMove
  split
  · exact h
  · next o ho =>
    split
    · exact (h.putOwned _ (by simp [ho])).emit _
    all_goals exact h

@[simp] theorem Upholds.beginSlot (h : Upholds s t) : Upholds s t.beginSlot := by
  unfold State.beginSlot
  split
  · exact ((h.emit _).foldl _ fun u l => (Upholds.refl u).sendMove l).foldl _ fun u l => (Upholds.refl u).takeTurn l
  · exact h

/-! ### Room in the table (R109) -/

theorem leastHeard_mem {m : List (Nat × Heard)} {e : Nat × Heard} (h : leastHeard m = some e) : e ∈ m := by
  induction m with
  | nil => cases h
  | cons x m ih =>
    unfold leastHeard at h
    split at h
    · cases h; exact List.mem_cons_self ..
    · next f hf =>
      split at h
      · cases h; exact List.mem_cons_self ..
      · cases h; exact List.mem_cons_of_mem _ (ih hf)

/-- The entry that gives way is a HEARD entry of the table. -/
theorem victim_mem {m : List (Nat × Heard)} {e : Nat × Heard} (h : victim m = some e) : e ∈ m := by
  unfold victim at h
  split at h
  · next f hf => cases h; exact List.mem_of_mem_filter (leastHeard_mem hf)
  · exact leastHeard_mem h

@[simp] theorem Upholds.makeRoom (h : Upholds s t) : Upholds s t.makeRoom.2 := by
  unfold State.makeRoom
  split
  · exact h
  split
  · exact h
  · exact (h.withLabels_of _ fun ht => ht.delHeard _).bump _

@[simp] theorem State.makeRoom_owned (s : State) (n : Nat) : s.makeRoom.2.owned n = s.owned n := by
  unfold State.makeRoom
  repeat' split
  all_goals simp [State.owned]

theorem State.makeRoom_heard_none {n : Nat} (h : s.heard n = none) : s.makeRoom.2.heard n = none := by
  unfold State.makeRoom
  repeat' split
  · exact h
  · exact h
  · simpa [State.heard, AMap.get_del] using fun _ => h

/-- A table that has made room holds fewer than 2,048 entries (R109). -/
theorem State.makeRoom_size (h : s.labels.Ok) (ok : s.makeRoom.1 = true) : s.makeRoom.2.labels.size < Config.labelCapacity := by
  unfold State.makeRoom at ok ⊢
  split
  · assumption
  · next hfull =>
    rw [if_neg hfull] at ok
    split at ok
    · cases ok
    · next e he =>
      have held : (AMap.get s.labels.heard e.1).isSome := by
        rw [(AMap.get_eq_some_iff h.heard).2 (victim_mem he)]; rfl
      have := AMap.length_del_of_get held
      have := h.size
      simp only [State.bump_labels, State.withLabels_labels, Labels.size] at hfull ⊢
      omega

/-! ### Taking in and dropping to HEARD (R110, R111) -/

theorem Upholds.makeOwned (h : Upholds s t) (l : Nat) (d : Display) (b : Battery) (a : Option Nat) (x : Hearing)
    (room : s.labels.Ok → (t.heard l).isSome ∨ t.labels.size < Config.labelCapacity) :
    Upholds s (t.makeOwned l d b a x) := by
  unfold State.makeOwned
  dsimp only
  refine Upholds.countOpt (h.change .labels (fs := [.labels]) ?_ (by decide) (fun hs ht => ht.makeOwned _ (room hs))) _
  exact (keeps_putOwned _ _ (by decide)).2 ((keeps_withLabels _ (by decide)).2 (keeps.refl _ _))

@[simp] theorem Upholds.unheard (h : Upholds s t) : Upholds s t.unheard.2 := h.frame t.unheard_keeps (by decide)

@[simp] theorem Upholds.takeIn (h : Upholds s t) (l : Nat) (d : Display) (b : Battery) (a : Option Nat) (x : Option Hearing)
    (k : Count) : Upholds s (t.takeIn l d b a x k).2 := by
  refine h.trans ?_
  have self := Upholds.refl t
  unfold State.takeIn
  split
  · next y hy => exact (self.makeOwned l d b a _ fun _ => .inl (by simp [hy])).bump _
  · dsimp only
    split
    · next ok =>
      have room : t.labels.Ok → t.makeRoom.2.labels.size < Config.labelCapacity := fun ht => State.makeRoom_size ht ok
      split
      · exact (self.makeRoom.makeOwned l d b a _ fun ht => .inr (room ht)).bump _
      · exact (self.makeRoom.unheard.makeOwned l d b a _ fun ht => .inr (room ht)).bump _
    · exact self.makeRoom.bump _

theorem Upholds.dropToHeard (h : Upholds s t) {l : Nat} (o : Owned) (n : Station) (x : Option Int) (hl : (t.owned l).isSome) :
    Upholds s (t.dropToHeard l o n x) := by
  unfold State.dropToHeard
  dsimp only
  refine ((Upholds.bump (h.change .labels (fs := [.labels]) ?_ (by decide)
    (fun _ ht => ht.drop _ hl)) _).uncountOpt _).floorReportOpt _
  exact (keeps_putHeard _ _ (by decide)).2 ((keeps_withLabels _ (by decide)).2 (keeps.refl _ _))

@[simp] theorem Upholds.dropOwned (h : Upholds s t) (l : Nat) (n : Station) : Upholds s (t.dropOwned l n) := by
  unfold State.dropOwned
  split
  · exact h
  · next o ho =>
    dsimp only
    split
    · exact (h.refuseClaim _ _ _).dropToHeard o n none (by simp [ho])
    all_goals exact h.dropToHeard o n none (by simp [ho])

theorem Upholds.moveDone (h : Upholds s t) {l : Nat} (o : Owned) (m : Move) (hl : (t.owned l).isSome) :
    Upholds s (t.moveDone l o m) := by
  have offered := h.offer (Frame.new (some m.claimant)
    (.labelHandover { label := l, bound := o.bound, display := o.display, battery := o.battery }) .label) rfl
  unfold State.moveDone
  dsimp only
  split
  · split
    · exact offered.dropToHeard o _ _ (by simpa using hl)
    · exact (offered.bump _).dropToHeard o _ _ (by simpa using hl)
  · exact h.dropToHeard o _ _ hl

/-! ### Acknowledgements (R91, R92, R116) -/

theorem Upholds.ackSent (h : Upholds s t) (a : AckPacket) (o : Owned) (hl : (t.owned a.label).isSome) :
    Upholds s (t.ackSent a o) := by
  unfold State.ackSent
  dsimp only
  split
  · exact ((h.putOwned _ hl).takeBattery _ _).floorReportOpt _
  · exact ((h.unanswered _ hl).takeBattery _ _).floorReportOpt _

theorem Upholds.ackReport (h : Upholds s t) (a : AckPacket) (o : Owned) (hl : (t.owned a.label).isSome) :
    Upholds s (t.ackReport a o) := ((h.putOwned _ hl).takeBattery _ _).floorReportOpt _

theorem Upholds.ackMoving (h : Upholds s t) (a : AckPacket) (o : Owned) (m : Move) (hl : (t.owned a.label).isSome) :
    Upholds s (t.ackMoving a o m) := by
  unfold State.ackMoving
  split
  · exact (h.takeBattery _ _).moveDone _ m (t.owned_takeBattery_isSome _ _ hl)
  split
  · exact (h.moveUnanswered o m hl).takeBattery _ _
  · exact h.takeBattery _ _

@[simp] theorem Upholds.hearAdoptionAck (h : Upholds s t) (a : AckPacket) : Upholds s (t.hearAdoptionAck a) := by
  unfold State.hearAdoptionAck
  split
  · exact h.withLabels _ fun _ => ⟨rfl, rfl⟩
  · exact h

@[simp] theorem Upholds.takeAck (h : Upholds s t) (a : AckPacket) : Upholds s (t.takeAck a) := by
  have heard := h.hearAdoptionAck a
  unfold State.takeAck
  dsimp only
  split
  · exact heard.bump _
  · next o ho =>
    have held : (((t.hearAdoptionAck a).bump .acksTaken).owned a.label).isSome := by rw [State.owned_bump, ho]; rfl
    split
    · exact (heard.bump _).ackSent a o held
    · exact (heard.bump _).ackMoving a o _ held
    all_goals exact (heard.bump _).ackReport a o held

/-! ### Office commands on labels (R81 to R83) -/

theorem Upholds.bindLabel {l : Nat} (a : Nat) (e : Entry) (o : Owned) (put : ∀ p, Upholds s (t.putOwned l p)) :
    Upholds s (t.bindLabel l a e o) := by
  unfold State.bindLabel
  dsimp only
  split
  · exact put _
  · exact (((put _).uncountOpt _).floorReportOpt _).countBound _

@[simp] theorem Upholds.actBind (h : Upholds s t) (l a : Nat) : Upholds s (t.actBind l a).2 := by
  refine h.trans ?_
  unfold State.actBind
  dsimp only
  split
  · exact .refl t
  split
  · exact .refl t
  · exact .refl t
  split
  · exact .refl t
  · next hheard =>
    split
    · next o ho =>
      have put : ∀ p, Upholds t (t.putOwned l p) := fun p => (Upholds.refl t).putOwned p (by simp [ho])
      split
      · exact .refl t
      all_goals exact Upholds.bindLabel a _ o put
    · split
      · next ok =>
        dsimp only
        refine Upholds.bindLabel a _ _ fun p => (Upholds.refl t).makeRoom.drawCycle.change .labels
          (State.putOwned_keeps _ l p) (by decide) fun ht hu => hu.addOwned p ?_ ?_
        · exact State.makeRoom_heard_none hheard
        · exact State.makeRoom_size ht ok
      · exact .refl t

theorem Upholds.unbindLabel (h : Upholds s t) {l : Nat} (o : Owned) (hl : (t.owned l).isSome) :
    Upholds s (t.unbindLabel l o) := ((h.putOwned _ hl).uncountOpt _).floorReportOpt _

@[simp] theorem Upholds.actUnbind (h : Upholds s t) (l : Nat) : Upholds s (t.actUnbind l).2 := by
  unfold State.actUnbind
  dsimp only
  split
  · exact h
  split
  · exact h
  · next o ho =>
    split
    · exact h
    all_goals exact h.unbindLabel o (by simp [ho])

/-! ### The reference and the cycle (R87, R103 to R107) -/

@[simp] theorem Upholds.judgeReference (h : Upholds s t) : Upholds s t.judgeReference := by
  unfold State.judgeReference
  exact .withLabels h _ fun _ => ⟨rfl, rfl⟩

@[simp] theorem Upholds.ageClaims (h : Upholds s t) : Upholds s t.ageClaims := h.withLabels_of _ fun ht => ht.mapHeard _

@[simp] theorem Upholds.sendMark (h : Upholds s t) : Upholds s t.sendMark := by
  unfold State.sendMark
  split
  · exact (h.offer _ rfl).bump _
  · exact h

@[simp] theorem Upholds.nextSlot (h : Upholds s t) (d : Nat) : Upholds s (t.nextSlot d) := by
  unfold State.nextSlot
  split
  · exact .beginSlot (.withLabels h _ fun _ => ⟨rfl, rfl⟩)
  · exact .beginSlot (.sendMark (.ageClaims (.withLabels h _ fun _ => ⟨rfl, rfl⟩)))

@[simp] theorem Upholds.takeMark (h : Upholds s t) (n k : Nat) (x : Option StoreTime) : Upholds s (t.takeMark n k x) := by
  have timed : ∀ u, Upholds s u → Upholds s (match x with | none => u | some y => u.timeFromMark y) := fun u hu => by
    cases x with
    | none => exact hu
    | some y => exact hu.timeFromMark y
  unfold State.takeMark
  dsimp only
  refine timed _ ?_
  split
  · exact .withLabels (h.bump _) _ fun _ => ⟨rfl, rfl⟩
  · exact .beginSlot (.ageClaims (.withLabels (h.bump _).cutTurns _ fun _ => ⟨rfl, rfl⟩))

@[simp] theorem Upholds.judgeMark (h : Upholds s t) (n : Station) (a b : Nat) (x : Option StoreTime) :
    Upholds s (t.judgeMark n a b x) := by
  unfold State.judgeMark
  split
  · exact h.takeMark _ _ _
  · exact h.bump _

/-! ### Presences (R112 to R118) -/

theorem Upholds.presenceOwn (h : Upholds s t) (p : PresencePacket) (o : Owned) (hl : (t.owned p.label).isSome) :
    Upholds s (t.presenceOwn p o) := by
  unfold State.presenceOwn
  split
  · exact (h.putOwned _ hl).floorReportOpt _
  · exact h.putOwned _ hl
  · exact h.putOwned _ hl
  · exact h
  · exact h

theorem Upholds.claim (h : Upholds s t) {l : Nat} (x : Heard) (hl : (t.heard l).isSome) : Upholds s (t.claim l x) := by
  unfold State.claim
  split
  · exact ((h.putHeard _ hl).offer _ rfl).bump _
  · exact h

theorem Upholds.presenceOwned (h : Upholds s t) (p : PresencePacket) (o : Owned) (hl : (t.owned p.label).isSome) :
    Upholds s (t.presenceOwned p o) := by
  have battery := h.takeBattery p.label p.battery
  have held := t.owned_takeBattery_isSome p.label p.battery hl
  unfold State.presenceOwned
  dsimp only
  split
  · exact battery.presenceOwn p _ held
  split
  · split
    · exact battery.moveDone _ _ held
    · exact battery.dropOwned _ _
  all_goals exact battery.dropOwned _ _

theorem Upholds.presenceHeard (h : Upholds s t) (p : PresencePacket) (x : Heard) (hl : (t.heard p.label).isSome) :
    Upholds s (t.presenceHeard p x) := by
  unfold State.presenceHeard
  split
  · split
    · exact h
    · exact h.takeIn _ _ _ _ _ _
  split
  · exact h
  · exact h.claim x hl

@[simp] theorem Upholds.answerOrphan (h : Upholds s t) (p : PresencePacket) : Upholds s (t.answerOrphan p) := by
  unfold State.answerOrphan
  split
  · exact (h.emit _).withLabels _ fun _ => ⟨rfl, rfl⟩
  · exact h

theorem Upholds.newHeard (h : Upholds s t) (p : PresencePacket) (hn : t.owned p.label = none) :
    Upholds s (t.newHeard p).2 := by
  refine h.trans ?_
  unfold State.newHeard
  dsimp only
  split
  · next ok =>
    refine (Upholds.refl t).makeRoom.change .labels (State.putHeard_keeps _ _ _) (by decide)
      (fun ht hu => hu.addHeard _ ?_ ?_)
    · exact (t.makeRoom_owned _).trans hn
    · exact State.makeRoom_size ht ok
  · exact (Upholds.refl t).makeRoom.bump _

@[simp] theorem Upholds.takePresence (h : Upholds s t) (p : PresencePacket) : Upholds s (t.takePresence p) := by
  have counted := (h.withLabels (fun l => { l with stamp := t.labels.stamp + 1 }) fun _ => ⟨rfl, rfl⟩).bump .presencesTaken
  have answered : ∀ u, Upholds s u → Upholds s (if p.orphan then u.answerOrphan p else u) := fun u hu => by
    split
    · exact hu.answerOrphan p
    · exact hu
  unfold State.takePresence
  refine answered _ ?_
  split
  · next o ho =>
    refine (counted.putOwned _ (by rw [ho]; rfl)).presenceOwned p _ ?_
    rw [State.owned_putOwned_self]; rfl
  split
  · next x hx =>
    refine (counted.putHeard _ (by rw [hx]; rfl)).presenceHeard p _ ?_
    simp [State.heard, State.putHeard, AMap.get_put_self]
  · exact counted

/-! ### Adoption, claims and handovers (R115 to R119) -/

@[simp] theorem Upholds.announceAdopted (h : Upholds s t) (l : Nat) : Upholds s (t.announceAdopted l) := by
  unfold State.announceAdopted
  split
  · exact h
  · exact h.send _ rfl

@[simp] theorem Upholds.setOwner (h : Upholds s t) (l : Nat) (n : Station) : Upholds s (t.setOwner l n) := by
  unfold State.setOwner
  split
  · exact h
  · next x hx => exact h.putHeard _ (by simp [hx])


@[simp] theorem Upholds.adoptedElsewhere (h : Upholds s t) (l : Nat) (n : Station) : Upholds s (t.adoptedElsewhere l n) := by
  refine h.trans ?_
  unfold State.adoptedElsewhere
  repeat' split
  all_goals simp

@[simp] theorem Upholds.endAdoption (h : Upholds s t) (a : Adoption) : Upholds s (t.endAdoption a) := by
  have taken := h.takeIn a.presence.label a.presence.display a.presence.battery (shownArticle a.presence.display) (some a.hearing)
    .takenByAdoption
  unfold State.endAdoption
  split
  · exact h
  split
  · split
    · next o ho => exact (h.putOwned _ (by simp [ho])).announceAdopted _
    · dsimp only
      split
      · exact taken.announceAdopted _
      · exact taken
  · exact h.adoptedElsewhere _ _

/-- A claim is accepted of an OWNED label only (R115). -/
theorem State.judgeClaim_accept {l : Nat} {x : Int} {o : Owned} (h : s.judgeClaim l x = .accept o) : s.owned l = some o := by
  unfold State.judgeClaim at h
  split at h
  · cases h
  split at h
  · cases h
  · next p hp =>
    split at h
    · cases h
    · split at h <;> cases h
      exact hp

@[simp] theorem Upholds.takeClaim (h : Upholds s t) (c : Station) (l k : Nat) (x : Int) : Upholds s (t.takeClaim c l k x) := by
  have counted := h.bump .claimsReceived
  unfold State.takeClaim
  dsimp only
  split
  · exact counted
  split
  · exact (counted.bump _).refuseClaim _ _ _
  · next o ho => exact counted.putOwned _ (by rw [State.owned_bump, State.judgeClaim_accept ho]; rfl)

@[simp] theorem Upholds.takeRefusal (h : Upholds s t) (n : Station) (l : Nat) (x : Option Int) :
    Upholds s (t.takeRefusal n l x) := by
  unfold State.takeRefusal
  split
  · exact h
  · next y hy =>
    split
    · exact h.putHeard _ (by simp [hy])
    · exact h

@[simp] theorem Upholds.takeHandover (h : Upholds s t) (r : Handover) : Upholds s (t.takeHandover r) := by
  unfold State.takeHandover
  split
  · exact h.bump _
  · exact h.takeIn _ _ _ _ _ _

end Sys2Proof.Machine
end

section
/-! PROOFS. What every step keeps, carried on to the trunk controller, the office commands, the relays, the start-up and the
resets, and so to every command. -/

namespace Sys2Proof.Machine

open Sys2Proof

variable {s t u : State}

/-! ### Resets (R74, R208) -/

theorem Journal.Ok.initial {j : Journal} (h : j.Ok) :
    (Journal.initial (j.records.map fun r => { r with sent := false }) j.counter).Ok := by
  obtain ⟨size, rising, issued, counter, -⟩ := h
  exact ⟨by simpa [Journal.initial] using size, by simpa [Journal.initial, List.map_map, Function.comp_def] using rising,
    by simpa [Journal.initial] using issued, counter, by simp [Journal.initial]⟩

theorem Entry.Rising.afterReset {e : Entry} (h : e.Rising) : e.afterReset.Rising := by
  obtain ⟨k, n, v, p⟩ := e
  cases p <;> exact h

theorem Book.Ok.initial {b : Book} (h : b.Ok) (now : Nat) :
    (Book.initial now (b.entries.map fun e => (e.1, e.2.afterReset))).Ok := by
  obtain ⟨once, size, rising⟩ := h
  refine ⟨AMap.wf_map b.entries (fun e : Nat × Entry => e.2.afterReset) once, by simpa [Book.initial] using size, fun x hx => ?_⟩
  obtain ⟨y, hy, rfl⟩ := List.mem_map.1 hx
  exact (rising y hy).afterReset

theorem Labels.Ok.initial {l : Labels} (h : l.Ok) (f : Owned → Owned) :
    (Labels.initial (l.owned.map fun e => (e.1, f e.2))).Ok := by
  refine ⟨AMap.wf_map _ (fun e => f e.2) h.owned, rfl, fun _ _ => rfl, ?_⟩
  have := h.size
  simp only [Labels.initial, List.length_map, List.length_nil]
  omega

theorem Trunk.bounded_initial : Trunk.initial.Bounded := fun c => by cases c <;> decide

theorem Trunk.filed_initial : Trunk.initial.Filed :=
  ⟨fun c f hf => by cases c <;> simp [Trunk.initial, Trunk.queue] at hf,
    fun c f hf => by cases c <;> simp [Trunk.initial, Trunk.hold] at hf, fun f hf => by simp [Trunk.initial] at hf⟩

@[simp] theorem Upholds.cleared (h : Upholds s t) : Upholds s t.cleared where
  journal hs := (h.journal hs).initial
  baskets _ l b hb := by simp [State.lane, State.cleared, Lane.initial] at hb
  book hs := (h.book hs).initial _
  labels hs := (h.labels hs).initial _
  bounded _ := Trunk.bounded_initial
  filed _ := Trunk.filed_initial
  alerts _ := by simp [AlertList.Ok, State.cleared]

@[simp] theorem Upholds.enterStarting (h : Upholds s t) (c : Cause) : Upholds s (t.enterStarting c) := by
  obtain ⟨journal, baskets, book, labels, bounded, filed, alerts⟩ := h.cleared
  have cleared : Upholds s { t.cleared with cause := c } := ⟨journal, baskets, book, labels, bounded, filed, alerts⟩
  exact cleared.recordAlert _ _ _ _

/-! ### Outcomes of frames (R124, R129, R138) -/

@[simp] theorem Upholds.tell (h : Upholds s t) (b : Bool) (f : Frame) : Upholds s (t.tell b f) := by
  have lost : ∀ c : Count, Upholds s (if b then t else t.bump c) := fun c => by
    split
    · exact h
    · exact h.bump c
  have relayed : ∀ o p, Upholds s (if b then t.relaySent o else t.relayLost o p) := fun o p => by
    split
    · exact h.relaySent o
    · exact h.relayLost o p
  unfold State.tell
  split
  case h_4 => exact .formReports (.withBook h _ fun _ => rfl)
  case h_8 => exact lost _
  case h_9 => exact lost _
  case h_10 =>
    split
    · exact relayed _ _
    · exact h
  case h_11 =>
    split
    · exact relayed _ _
    · exact h
  all_goals exact h

@[simp] theorem Upholds.notifyQueued (h : Upholds s t) (f : Frame) : Upholds s (t.notifyQueued f) := by
  unfold State.notifyQueued
  split
  case h_8 => exact h.shareNext
  case h_10 =>
    split
    · split
      · exact h.toldQueued
      · exact h
    · exact h
  all_goals exact h

/-- A kept frame leaves the kept frames and is handed over. -/
theorem State.offer_kept_filed (s : State) (g : Frame) (h : s.trunk.Filed) (hg : g ∈ s.trunk.kept) :
    ((s.withTrunk fun t => { t with kept := t.kept.erase g }).offer g).2.trunk.Filed :=
  State.offer_filed _ g (h.congr rfl rfl rfl rfl rfl fun _ hf => List.mem_of_mem_erase hf) (h.kept g hg)

theorem serveKept_filed (b : Sender) (c : TrunkClass) (n : Nat) (s : State) (h : s.trunk.Filed) :
    (serveKept b c n s).2.trunk.Filed := by
  induction n generalizing s with
  | zero => exact h
  | succ n ih =>
    unfold serveKept
    split
    · exact h
    split
    · exact h
    · next g _ hg =>
      have hk : g ∈ s.trunk.kept := (List.mem_filter.1 (hg ▸ List.mem_cons_self : g ∈ s.trunk.keptBy b c)).1
      have offered := s.offer_kept_filed g h hk
      dsimp only
      split
      · exact ih _ offered
      · exact offered

theorem serveKept_bounded (b : Sender) (c : TrunkClass) (n : Nat) (s : State) (h : s.trunk.Bounded) :
    (serveKept b c n s).2.trunk.Bounded := by
  induction n generalizing s with
  | zero => exact h
  | succ n ih =>
    unfold serveKept
    split
    · exact h
    split
    · exact h
    · next g _ hg =>
      have offered := State.offer_bounded (s.withTrunk fun t => { t with kept := t.kept.erase g }) g
        (Trunk.bounded_of_queues h rfl rfl rfl)
      dsimp only
      split
      · exact ih _ offered
      · exact offered

@[simp] theorem Upholds.serveKept (h : Upholds s t) (b : Sender) (c : TrunkClass) (n : Nat) :
    Upholds s (serveKept b c n t).2 :=
  h.change .trunk (serveKept_keeps b c n t) (by decide)
    ⟨fun _ => serveKept_bounded b c n t, fun _ => serveKept_filed b c n t⟩

@[simp] theorem Upholds.afterQueued (h : Upholds s t) (c : TrunkClass) (g : Frame) : Upholds s (t.afterQueued c g) := by
  have told := Upholds.foldl (g := State.notifyQueued) (g :: (Machine.serveKept g.sender c t.trunk.kept.length t).1)
    (h.serveKept g.sender c t.trunk.kept.length) fun u f => (Upholds.refl u).notifyQueued f
  unfold State.afterQueued
  dsimp only
  split
  · exact told.drainRelayBack _
  · exact told

theorem Trunk.Filed.popAdmit {x : Trunk} (h : x.Filed) (c : TrunkClass) : (x.popAdmit c).2.Filed := by
  have popped : ({ x.setQueue c ((x.queue c).drop 1) with inAir := none } : Trunk).Filed :=
    (h.setQueue c fun f hf => h.queued c f (List.mem_of_mem_drop hf)).congr rfl rfl rfl rfl rfl fun _ hf => hf
  unfold Trunk.popAdmit
  dsimp only
  split
  · exact popped
  · next g q hq =>
    have front := popped.held c
    rw [hq] at front
    refine (popped.setQueue c fun f hf => ?_).setHold c fun f hf => front f (List.mem_cons_of_mem _ hf)
    rcases List.mem_append.1 hf with hf | hf
    · exact popped.queued c f hf
    · rw [List.mem_singleton.1 hf]; exact front g List.mem_cons_self

@[simp] theorem Upholds.outcome (h : Upholds s t) (c : TrunkClass) (f : Frame) (b : Bool) : Upholds s (t.outcome c f b) := by
  have told := (h.withTrunk_of (fun _ => (t.trunk.popAdmit c).2) (fun ht => Trunk.popAdmit_bounded ht c)
    fun ht => ht.popAdmit c).tell b f
  unfold State.outcome
  split
  · exact h.enterStarting _
  · dsimp only
    split
    · exact told
    · exact told.afterQueued c _

/-- A frame that stays at the front of its queue counts the attempt (R129). -/
theorem Upholds.attemptEnd (h : Upholds s t) {c : TrunkClass} {f : Frame} {rest : List Frame}
    (hq : t.trunk.queue c = f :: rest) (a b : Bool) : Upholds s (t.attemptEnd c f rest a b) := by
  unfold State.attemptEnd
  split
  · exact (h.bump _).outcome c f true
  · dsimp only
    split
    · refine (h.bump _).withTrunk_of _ (fun ht => ?_) fun ht => ?_
      · refine Trunk.bounded_of_queues (Trunk.setQueue_bounded ht c ({ f with attempts := f.attempts + 1 } :: rest) ?_)
          rfl rfl rfl
        have := ht c
        rw [State.bump_trunk, hq] at this
        exact this
      · have front := ht.queued c
        rw [State.bump_trunk, hq] at front
        refine (ht.setQueue c fun g hg => ?_).congr rfl rfl rfl rfl rfl fun _ hg => hg
        rcases List.mem_cons.1 hg with rfl | hg
        · exact front f List.mem_cons_self
        · exact front g (List.mem_cons_of_mem _ hg)
    · exact ((h.bump _).bump _).outcome c f false

/-! ### LISTEN-ONLY (R137, R138) -/

@[simp] theorem Upholds.endListening (h : Upholds s t) : Upholds s t.endListening :=
  h.listeningShelfCheck.judgeReference.judgeHolder.takeEarlyNotice

theorem State.offer_of_not_canSend (s : State) (f : Frame) (h : s.canSend = false) :
    s.offer f = (.notTaken, s.bump (notTakenCount f.body.trunkClass)) := by
  unfold State.offer
  simp [h]

theorem State.canSend_of_keeps {fs : List Field} (h : keeps fs s t) (hf : .part ∉ fs) : t.canSend = s.canSend := by
  have hp : t.part = s.part := h .part hf
  simp only [State.canSend, hp]

/-- Frames handed over by a part that may not send are not taken, and their blocks are told (R138). -/
theorem Upholds.loseKept (h : Upholds s t) (off : t.canSend = false) (fs : List Frame) : Upholds s (t.loseKept fs) := by
  induction fs generalizing t with
  | nil => exact h
  | cons f fs ih =>
    have refused : (t.offer f).2 = t.bump (notTakenCount f.body.trunkClass) := by rw [State.offer_of_not_canSend t f off]
    have told : Upholds s ((t.offer f).2.tell false f) := by
      rw [refused]
      exact (h.bump _).tell _ _
    exact ih told ((State.canSend_of_keeps ((t.offer f).2.tell_keeps false f) (by decide)).trans
      ((State.canSend_of_keeps (t.offer_keeps f) (by decide)).trans off))

theorem Upholds.dropAll (h : Upholds s t) (off : t.canSend = false) : Upholds s t.dropAll := by
  have emptied := h.withTrunk_of (fun x =>
      { x with urgent := [], notice := [], bulk := [], holdNotice := [], holdBulk := [], kept := [], inAir := none,
               beaconTimer := none })
    (fun _ c => by cases c <;> exact Nat.zero_le _)
    (fun _ => ⟨fun c f hf => (by cases c <;> cases hf), fun c f hf => (by cases c <;> cases hf), fun f hf => (by cases hf)⟩)
  unfold State.dropAll
  dsimp only
  split
  · exact emptied.enterStarting _
  · have told := emptied.foldl (g := fun s f => s.tell false f) t.trunk.frames fun u f => (Upholds.refl u).tell false f
    have silent : ∀ u : State, (t.trunk.frames.foldl (fun s f => s.tell false f) u).canSend = u.canSend := fun u =>
      State.canSend_of_keeps (fs := [.book, .trunk, .counts, .lanes, .out, .fwd])
        (foldl_keeps (fun s f => s.tell false f) t.trunk.frames u fun u f => u.tell_keeps false f) (by decide)
    exact ((told.loseKept ((silent _).trans off) _).shareNext).drainRelayBack _

theorem Upholds.setPart (h : Upholds s t) (p : PartState) : Upholds s { t with part := p } :=
  ⟨h.journal, h.baskets, h.book, h.labels, h.bounded, h.filed, h.alerts⟩

@[simp] theorem Upholds.clash (h : Upholds s t) : Upholds s t.clash := by
  have noted : Upholds s ((t.recordAlert .stationClash .warn .self .nothing).withTrunk fun x => { x with clash := true }) :=
    .withTrunk (h.recordAlert _ _ _ _) _ fun _ => ⟨rfl, rfl, rfl, rfl, rfl, rfl⟩
  have dropped := (noted.setPart .listenOnly).dropAll rfl
  unfold State.clash
  dsimp only
  split
  · exact dropped
  split
  · exact dropped.endListening
  · exact dropped.judgeReference.judgeHolder

@[simp] theorem Upholds.ownBeacon (h : Upholds s t) : Upholds s t.ownBeacon := by
  unfold State.ownBeacon
  split
  · exact h.clash
  · exact h.bump _

/-! ### Reception (R127, R131, R135) -/

@[simp] theorem Upholds.hear (h : Upholds s t) (n : Station) (f : Peer → Peer) : Upholds s (t.hear n f) := by
  unfold State.hear
  dsimp only
  split
  · exact (h.withPeer n _).judgeReference.judgeHolder
  · exact h.withPeer n _

@[simp] theorem Upholds.assertTaken (h : Upholds s t) : Upholds s t.assertTaken := h.frame t.assertTaken_keeps (by decide)

theorem Upholds.receive (h : Upholds s t) (f : FrameHead) (a ok : Bool) (upd : Peer → Peer) {deliver : State → State}
    (hd : ∀ u, Upholds u (deliver u)) : Upholds s (t.receive f a ok upd deliver) := by
  have heard := h.hear f.src upd
  unfold State.receive
  split
  · exact h
  split
  · exact h.bump _
  · dsimp only
    split
    · exact heard.bump _
    · split
      · split
        · exact heard.assertTaken.trans (hd _)
        · exact heard.assertTaken.bump _
      · exact heard
    · split
      · exact heard.assertTaken.trans (hd _)
      · exact heard.assertTaken.bump _

theorem Upholds.receivePlain (h : Upholds s t) (f : FrameHead) (a ok : Bool) {deliver : State → State}
    (hd : ∀ u, Upholds u (deliver u)) : Upholds s (t.receivePlain f a ok deliver) := h.receive f a ok id hd

/-! ### Beacons (R134) -/

/-- A new beacon takes the place of one in the queue: the queue keeps its length, and holds but frames it held and the new
one. -/
theorem replaceBeacon_spec {new : Frame} {q r : List Frame} (h : replaceBeacon new q = some r) :
    r.length = q.length ∧ ∀ f ∈ r, f = new ∨ f ∈ q := by
  induction q generalizing r with
  | nil => cases h
  | cons g q ih =>
    unfold replaceBeacon at h
    split at h
    · cases h
      exact ⟨rfl, fun f hf => (List.mem_cons.1 hf).imp id (List.mem_cons_of_mem _)⟩
    · obtain ⟨r', hr', rfl⟩ := Option.map_eq_some_iff.1 h
      obtain ⟨len, mem⟩ := ih hr'
      refine ⟨congrArg (· + 1) len, fun f hf => ?_⟩
      rcases List.mem_cons.1 hf with rfl | hf
      · exact .inr List.mem_cons_self
      · exact (mem f hf).imp id (List.mem_cons_of_mem _)

theorem Trunk.replacedBeacon_spec {x : Trunk} {new : Frame} {q : List Frame} (h : x.replacedBeacon new = some q) :
    q.length = x.urgent.length ∧ ∀ f ∈ q, f = new ∨ f ∈ x.urgent := by
  unfold Trunk.replacedBeacon at h
  split at h
  · obtain ⟨r, hr, rfl⟩ := Option.map_eq_some_iff.1 h
    obtain ⟨len, mem⟩ := replaceBeacon_spec hr
    refine ⟨?_, fun f hf => ?_⟩
    · simp only [List.length_append, List.length_take, len, List.length_drop]
      omega
    · rcases List.mem_append.1 hf with hf | hf
      · exact .inr (List.mem_of_mem_take hf)
      · exact (mem f hf).imp id List.mem_of_mem_drop
  · exact replaceBeacon_spec h

@[simp] theorem Upholds.queueBeacon (h : Upholds s t) : Upholds s t.queueBeacon := by
  unfold State.queueBeacon
  dsimp only
  split
  · next q hq =>
    obtain ⟨len, mem⟩ := Trunk.replacedBeacon_spec hq
    refine Upholds.bump (h.withTrunk_of _ (fun ht c => ?_) fun ht => ?_) _
    · have := ht c
      cases c
      · simpa only [Trunk.queue, len] using this
      all_goals exact this
    · refine ht.setQueue .urgent fun f hf => ?_
      rcases mem f hf with rfl | hf
      · exact ⟨rfl, rfl⟩
      · exact ht.queued .urgent f hf
  · have offered := h.offer (Frame.new none (.beacon t.ownBeaconFields) .beacon) rfl
    split
    · exact offered
    · exact offered.bump _

/-! ### Office commands (R3, R170, R191, R195, R202, R209, R211) -/

@[simp] theorem Upholds.giveReply (h : Upholds s t) (n : Station) (r : OfficeReply) (b : Bool) :
    Upholds s (t.giveReply n r b) := by
  have offered := h.offer (Frame.new (some n) (.officeReply r) (.reply b)) rfl
  unfold State.giveReply
  dsimp only
  split
  · split
    · exact offered.enterStarting _
    · exact offered.bump _
  · exact offered

theorem Upholds.command (h : Upholds s t) (x : OfficeHead) (k : Nat) (b : Bool) {act : State → OfficeOutcome × State}
    (ha : ∀ u, Upholds u (act u).2) : Upholds s (t.command x k b act) := by
  unfold State.command
  split
  · exact h.bump _
  split
  · exact (h.bump _).giveReply _ _ _
  · exact ((h.trans (ha t)).withCommands _).giveReply _ _ _

theorem Upholds.office (h : Upholds s t) (x : OfficeHead) (k : Nat) {act : State → OfficeOutcome × State}
    (ha : ∀ u, Upholds u (act u).2) : Upholds s (t.office x k act) :=
  h.receivePlain _ _ _ fun u => (Upholds.refl u).command x k false ha

@[simp] theorem Upholds.actSpot (h : Upholds s t) (r : ChangeRecord) : Upholds s (t.actSpot r).2 := by
  have applied := h.applyRecord r
  unfold State.actSpot
  split
  · exact h.bump _
  · dsimp only
    split
    · exact applied.send _ rfl
    all_goals exact applied

@[simp] theorem Upholds.actRunSession (h : Upholds s t) : Upholds s t.actRunSession.2 := by
  unfold State.actRunSession
  split
  · exact h
  · exact h.startAttempt _

@[simp] theorem Upholds.actSetMode (h : Upholds s t) (n : Nat) : Upholds s (t.actSetMode n).2 := by
  unfold State.actSetMode
  split
  · exact h.endOverride.decideMode
  split
  · exact h
  · exact ((h.withUnit _).bump _).decideMode

@[simp] theorem Upholds.actSetTime (h : Upholds s t) (x : StoreTime) : Upholds s (t.actSetTime x).2 := by
  unfold State.actSetTime
  split
  · exact h.bump _
  split
  · exact h.takeTime _ _
  · exact h.bump _

@[simp] theorem Upholds.actAckAlert (h : Upholds s t) (n : Nat) : Upholds s (t.actAckAlert n).2 := by
  refine h.change .alerts (t.actAckAlert_keeps n) (by decide) (fun _ ha => ?_)
  unfold State.actAckAlert
  dsimp only
  split
  · simpa [AlertList.Ok] using ha
  · exact ha

/-! ### Trunk files (R185, R186) and relays (R140 to R153) -/

@[simp] theorem Upholds.takeAnnounce (h : Upholds s t) (n : Station) (a c k : Nat) : Upholds s (t.takeAnnounce n a c k) :=
  h.frame (t.takeAnnounce_keeps n a c k) (by decide)

@[simp] theorem Upholds.takeFileFrame (h : Upholds s t) (n : Station) (a i : Nat) (rs : List ChangeRecord) :
    Upholds s (t.takeFileFrame n a i rs) := h.frame (t.takeFileFrame_keeps n a i rs) (by decide)

@[simp] theorem Upholds.dropTrunkFile (h : Upholds s t) : Upholds s t.dropTrunkFile := h.frame t.dropTrunkFile_keeps (by decide)

@[simp] theorem Upholds.takeFileClose (h : Upholds s t) (n : Station) (a c k : Nat) :
    Upholds s (t.takeFileClose n a c k) := by
  unfold State.takeFileClose
  split
  · split
    · exact (h.bump _).beginRelease
    · exact h.dropTrunkFile
  · exact h.bump _

@[simp] theorem Upholds.deliverBack (h : Upholds s t) (p : Parcel) : Upholds s (t.deliverBack p) := by
  unfold State.deliverBack
  split
  · exact h.pendingOutcome _ _ _
  · exact h.message _ _
  · exact h.guestReply p

@[simp] theorem Upholds.takeRelay (h : Upholds s t) (p : Parcel) : Upholds s (t.takeRelay p) := by
  unfold State.takeRelay
  repeat' split
  · exact h.bump _
  · exact h.bump _
  · exact h.deliverBack p
  · exact h.carryOut p

@[simp] theorem Upholds.uplinkUp (h : Upholds s t) : Upholds s t.uplinkUp := (h.withFwd _).judgeHolder.transmit

@[simp] theorem Upholds.uplinkDown (h : Upholds s t) : Upholds s t.uplinkDown :=
  (h.uplinkLost.sessionEvent .pathLost).judgeHolder

@[simp] theorem Upholds.recordSent (h : Upholds s t) (p : Parcel) : Upholds s (t.recordSent p) :=
  h.frame (t.recordSent_keeps p) (by decide)

/-! ### The profile and the start-up (R50, R76, R120, R206, R207) -/

@[simp] theorem Upholds.settleLanes (h : Upholds s t) : Upholds s t.settleLanes := by
  refine h.change .lanes t.settleLanes_keeps (by decide) (fun _ ht l b hb => ht l b ?_)
  simpa [State.lane, State.settleLanes] using hb

@[simp] theorem Upholds.ownLabels (h : Upholds s t) : Upholds s t.ownLabels := by
  unfold State.ownLabels
  exact h.withLabels_of _ fun ht => ht.mapOwned fun o => { o with hearing := { o.hearing with owner := t.self } }

@[simp] theorem Upholds.settleJournal (h : Upholds s t) : Upholds s t.settleJournal := by
  unfold State.settleJournal
  dsimp only
  split
  · exact h.journalLoaded.watermarkCrossed
  · exact h.journalLoaded

@[simp] theorem Upholds.prepare (h : Upholds s t) : Upholds s t.prepare :=
  ((h.settleLanes.ownLabels.settleJournal.withFwd _).readLines).decideMode

@[simp] theorem Upholds.enterListening (h : Upholds s t) : Upholds s t.enterListening := by
  have listening : Upholds s { t with part := .listening, listenTimer := some (t.now + Config.seconds 3) } :=
    ⟨h.journal, h.baskets, h.book, h.labels, h.bounded, h.filed, h.alerts⟩
  have begun := (listening.withTrunk (fun x => { x with beaconTimer := some t.now })
    fun _ => ⟨rfl, rfl, rfl, rfl, rfl, rfl⟩).judgeReference.judgeHolder
  unfold State.enterListening
  exact .withLabels begun _ fun _ => ⟨rfl, rfl⟩

/-! ### Commands of several operations -/

/-- A field of which no invariant speaks is written. -/
theorem Upholds.of_collections (h : Upholds s t) (hj : u.journal = t.journal) (hl : u.lanes = t.lanes) (hb : u.book = t.book)
    (hx : u.labels = t.labels) (ht : u.trunk = t.trunk) (ha : u.alerts = t.alerts) : Upholds s u := by
  obtain ⟨journal, baskets, book, labels, bounded, filed, alerts⟩ := h
  refine ⟨?_, ?_, ?_, ?_, ?_, ?_, ?_⟩
  · rwa [hj]
  · simpa only [State.BasketsOk, State.lane, hl] using baskets
  · rwa [hb]
  · rwa [hx]
  · rwa [ht]
  · rwa [ht]
  · rwa [ha]

theorem Upholds.changeoverDeadline (a : Nat) (s : State) : ∃ t, exec (.changeoverDeadline a) s = .next t ∧ Upholds s t := by
  refine ⟨_, rfl, ?_⟩
  split
  · split
    · exact .refl s
    · next e he =>
      split
      · exact .refl s
      · exact .refl s
      · next c hc =>
        split
        · have rises : s.book.Ok → c.Rises := fun ok => ((ok.entry_rising he).changeover hc).2
          have dropped := (Upholds.refl s).setChangeover (d := { c with holdout := [] }) he hc rfl rfl
          exact ((dropped.complete a (c := { c with holdout := [] }) rises).bump _).recordAlert _ _ _ _
        · exact .refl s
  · exact .refl s

theorem Upholds.secondTimerExpiry (s : State) : ∃ t, exec .secondTimerExpiry s = .next t ∧ Upholds s t := by
  refine ⟨_, rfl, ?_⟩
  have timed : Upholds s ((s.reach s.book.timer).withBook fun b => { b with timer := b.timer + Config.seconds 1 }) :=
    ((Upholds.refl s).reach _).withBook _ fun _ => rfl
  split
  · dsimp only
    split
    · exact (timed.foldl (g := fun s a => s.examine a) _ fun u a => (Upholds.refl u).examine a).foldl
        (g := fun s n => s.queryStation n) _ fun u n => (Upholds.refl u).queryStation n
    · exact timed
  · exact .refl s

theorem Upholds.releaseRecord (s : State) : ∃ t, exec .releaseRecord s = .next t ∧ Upholds s t := by
  refine ⟨_, rfl, ?_⟩
  split
  · exact .refl s
  · next i _ =>
    split
    · have applied : Upholds s (match AMap.get s.staging.records i with | none => s | some r => (s.applyRecord r).2) := by
        split
        · exact .refl s
        · exact (Upholds.refl s).applyRecord _
      dsimp only
      split
      · exact applied.releaseComplete
      · exact applied.withBook _ fun _ => rfl
    · exact .refl s

theorem Upholds.peerSilent (n : Station) (s : State) : ∃ t, exec (.peerSilent n) s = .next t ∧ Upholds s t := by
  refine ⟨_, rfl, ?_⟩
  dsimp only
  split
  · exact .refl s
  · next due _ =>
    split
    · exact (((((Upholds.refl s).reach due).withPeer n _).withCommands _).recordAlert _ _ _ _).judgeReference.judgeHolder
    · exact .refl s

theorem Upholds.trunkAttemptEnd (a b : Bool) (s : State) : ∃ t, exec (.trunkAttemptEnd a b) s = .next t ∧ Upholds s t := by
  refine ⟨_, rfl, ?_⟩
  split
  · split
    · exact .refl s
    · split
      · exact .refl s
      · next hq => exact (Upholds.refl s).attemptEnd hq a b
  · exact .refl s

theorem Upholds.profileLoad (x : Option (List Byte)) (s : State) :
    ∃ t, exec (.profileLoad x) s = .next t ∧ Upholds s t := by
  refine ⟨_, rfl, ?_⟩
  split
  · split
    · exact (Upholds.refl s).of_collections rfl rfl rfl rfl rfl rfl
    · next bytes =>
      split
      · generalize readProfile bytes = given
        obtain ⟨c, n⟩ := given
        exact .enterListening (.prepare ((Upholds.refl s).of_collections rfl rfl rfl rfl rfl rfl))
      · exact (Upholds.refl s).of_collections rfl rfl rfl rfl rfl rfl
  · exact .refl s

theorem Upholds.listeningTimerExpiry (s : State) : ∃ t, exec .listeningTimerExpiry s = .next t ∧ Upholds s t := by
  refine ⟨_, rfl, ?_⟩
  split
  · exact .refl s
  · next due _ =>
    have ended := (Upholds.refl s).reach due
    split
    · dsimp only
      split
      · exact (ended.of_collections (u := { s.reach due with listenTimer := none, part := .running }) rfl rfl rfl rfl rfl
          rfl).endListening
      · exact ended.of_collections rfl rfl rfl rfl rfl rfl
    · exact .refl s

theorem Upholds.powerOn (s : State) : ∃ t, exec .powerOn s = .next t ∧ Upholds s t := by
  refine ⟨_, rfl, ?_⟩
  split
  · exact (Upholds.refl s).cleared.of_collections rfl rfl rfl rfl rfl rfl
  · have powered : Upholds s { s with powered := true } := (Upholds.refl s).of_collections rfl rfl rfl rfl rfl rfl
    exact powered.enterStarting _

theorem Upholds.resetLineAsserted (s : State) : ∃ t, exec .resetLineAsserted s = .next t ∧ Upholds s t := by
  refine ⟨_, rfl, ?_⟩
  split
  · exact (Upholds.refl s).cleared.of_collections rfl rfl rfl rfl rfl rfl
  · exact (Upholds.refl s).of_collections rfl rfl rfl rfl rfl rfl

theorem Upholds.resetLineReleased (s : State) : ∃ t, exec .resetLineReleased s = .next t ∧ Upholds s t := by
  refine ⟨_, rfl, ?_⟩
  split
  · split
    · have released : Upholds s { s with resetHeld := false } := (Upholds.refl s).of_collections rfl rfl rfl rfl rfl rfl
      exact released.enterStarting _
    · exact (Upholds.refl s).of_collections rfl rfl rfl rfl rfl rfl
  · exact .refl s

theorem Upholds.presenceReceived (p : PresencePacket) (s : State) :
    ∃ t, exec (.presenceReceived p) s = .next t ∧ Upholds s t := by
  refine ⟨_, rfl, ?_⟩
  split
  · split
    · exact (Upholds.refl s).takePresence p
    · next hn =>
      have heard := (Upholds.refl s).newHeard p (by simpa using And.left (by simpa using hn))
      dsimp only
      split
      · exact heard.takePresence p
      · exact heard
  · exact .refl s

theorem Upholds.eventLineChange (n : LineNo) (b : Bool) (s : State) :
    ∃ t, exec (.eventLineChange n b) s = .next t ∧ Upholds s t := by
  refine ⟨_, rfl, ?_⟩
  have set : Upholds s { s with levels := s.levels.set n.val b n.isLt } :=
    (Upholds.refl s).of_collections rfl rfl rfl rfl rfl rfl
  dsimp only
  split
  · exact set.lineChanged n b
  · exact set

theorem Upholds.uplinkCarrierChange (b : Bool) (s : State) :
    ∃ t, exec (.uplinkCarrierChange b) s = .next t ∧ Upholds s t := by
  refine ⟨_, rfl, ?_⟩
  have set : Upholds s { s with carrier := b } := (Upholds.refl s).of_collections rfl rfl rfl rfl rfl rfl
  dsimp only
  repeat' split
  · exact set.uplinkUp
  · exact set.uplinkDown
  · exact set

theorem Upholds.beaconTimerExpiry (s : State) : ∃ t, exec .beaconTimerExpiry s = .next t ∧ Upholds s t := by
  refine ⟨_, rfl, ?_⟩
  split
  · exact .refl s
  · next due _ =>
    split
    · exact .queueBeacon (.withTrunk ((Upholds.refl s).reach due) _ fun _ => ⟨rfl, rfl, rfl, rfl, rfl, rfl⟩)
    · exact .refl s

theorem Upholds.trunkFrameOtherDest (f : FrameHead) (b : Overheard) (s : State) :
    ∃ t, exec (.trunkFrameOtherDest f b) s = .next t ∧ Upholds s t := by
  refine ⟨_, rfl, ?_⟩
  have heard := (Upholds.refl s).hear f.src (slotUpdate b)
  split
  · exact .refl s
  split
  · split
    · exact (Upholds.refl s).ownBeacon
    · exact (Upholds.refl s).bump _
  · dsimp only
    split
    · exact heard.bump _
    · exact heard
    · exact heard

end Sys2Proof.Machine
end

section
/-! PROOFS. Every command, and so every step, upholds the invariants of the stored collections. -/

namespace Sys2Proof.Machine

open Sys2Proof

variable {s t u : State}

/-- A command that touches none of the collections upholds their invariants by its frame. -/
theorem Upholds.of_frame (c : Instr) (s : State) (h : ∀ f ∈ [.journal, .lanes, .book, .labels, .trunk, .alerts], f ∉ touches c) :
    ∃ t, exec c s = .next t ∧ Upholds s t := by
  obtain ⟨t, ht, hk⟩ := exec_frame c s
  exact ⟨t, ht, (Upholds.refl s).of_collections (hk _ (h .journal (by decide))) (hk _ (h .lanes (by decide)))
    (hk _ (h .book (by decide))) (hk _ (h .labels (by decide))) (hk _ (h .trunk (by decide))) (hk _ (h .alerts (by decide)))⟩

theorem exec_upholds (c : Instr) (s : State) : ∃ t, exec c s = .next t ∧ Upholds s t := by
  have same : Upholds s s := .refl s
  cases c with
  | powerOn => exact Upholds.powerOn s
  | resetLineAsserted => exact Upholds.resetLineAsserted s
  | resetLineReleased => exact Upholds.resetLineReleased s
  | powerLoss => exact ⟨_, rfl, same.cleared.of_collections rfl rfl rfl rfl rfl rfl⟩
  | profileLoad image => exact Upholds.profileLoad image s
  | listeningTimerExpiry => exact Upholds.listeningTimerExpiry s
  | secondTimerExpiry => exact Upholds.secondTimerExpiry s
  | changeoverDeadline a => exact Upholds.changeoverDeadline a s
  | releaseRecord => exact Upholds.releaseRecord s
  | spotPrice h r => exact ⟨_, rfl, same.office _ _ fun u => (Upholds.refl u).actSpot r⟩
  | readEntry h a => exact ⟨_, rfl, same.office _ _ fun u => (Upholds.refl u).frame (State.actReadEntry_keeps u a) (by decide)⟩
  | bind h l a => exact ⟨_, rfl, same.office _ _ fun u => (Upholds.refl u).actBind l a⟩
  | unbind h l => exact ⟨_, rfl, same.office _ _ fun u => (Upholds.refl u).actUnbind l⟩
  | readLabel h l => exact ⟨_, rfl, same.office _ _ fun u => (Upholds.refl u).frame (State.actReadLabel_keeps u l) (by decide)⟩
  | setMode h n => exact ⟨_, rfl, same.office _ _ fun u => (Upholds.refl u).actSetMode n⟩
  | setTime h x => exact ⟨_, rfl, same.office _ _ fun u => (Upholds.refl u).actSetTime x⟩
  | runSession h => exact ⟨_, rfl, same.office _ _ fun u => (Upholds.refl u).actRunSession⟩
  | readAlerts h n => exact ⟨_, rfl, same.office _ _ fun u => .refl u⟩
  | ackAlert h n => exact ⟨_, rfl, same.office _ _ fun u => (Upholds.refl u).actAckAlert n⟩
  | readCounts h g => exact ⟨_, rfl, same.office _ _ fun u => (Upholds.refl u).frame (State.actReadCounts_keeps u g) (by decide)⟩
  | restart h =>
    exact ⟨_, rfl, same.receivePlain _ _ _ fun u => (Upholds.refl u).command _ _ _ fun v =>
      (Upholds.refl v).frame (State.actRestart_keeps v) (by decide)⟩
  | officeBadCommand h k => exact ⟨_, rfl, same.office _ _ fun u => .refl u⟩
  | laneFrameBad l w => exact ⟨_, rfl, same.discardFrame l w⟩
  | laneTimeout l =>
    refine ⟨_, rfl, ?_⟩
    split
    · exact same
    · split
      · exact (same.reach _).withLane l _ fun _ => rfl
      · exact same
  | openBasket l b => exact ⟨_, rfl, same.request l b _ fun u => (Upholds.refl u).actOpen l⟩
  | item l b a q m => exact ⟨_, rfl, same.request l b _ fun u => (Upholds.refl u).actItem l a q m⟩
  | void l b n => exact ⟨_, rfl, same.request l b _ fun u => (Upholds.refl u).actVoid l n⟩
  | total l b => exact ⟨_, rfl, same.request l b _ fun u => (Upholds.refl u).actTotal l⟩
  | close l b x => exact ⟨_, rfl, same.request l b _ fun u => (Upholds.refl u).actClose l x⟩
  | cancel l b => exact ⟨_, rfl, same.request l b _ fun u => (Upholds.refl u).actCancel l⟩
  | lookup l b a => exact ⟨_, rfl, same.request l b _ fun u => (Upholds.refl u).actLookup a⟩
  | auth l b p =>
    refine ⟨_, rfl, ?_⟩
    split
    · exact same.request l b _ fun u => (Upholds.refl u).actAuth l b p
    · exact same.discardFrame l _
  | authTimeout l =>
    refine ⟨_, rfl, ?_⟩
    split
    · exact same
    · split
      · exact ((same.reach _).endAuth l _ _).withdrawAuth l _
      · exact same
  | basketAbandon l =>
    refine ⟨_, rfl, ?_⟩
    split
    · exact same
    · split
      · exact ((same.reach _).setBasket_none l).bump _
      · exact same
  | slotEnd =>
    refine ⟨_, rfl, ?_⟩
    split
    · exact same
    · split
      · exact (same.reach _).endTurns.nextSlot _
      · exact same
  | claimExpiry l =>
    refine ⟨_, rfl, ?_⟩
    split
    · exact same
    · next x hx =>
      split
      · exact same.putHeard _ (by simp [hx])
      · exact same
  | ackReceived a =>
    refine ⟨_, rfl, ?_⟩
    split
    · exact same.takeAck a
    · exact same
  | presenceReceived p => exact Upholds.presenceReceived p s
  | presenceWindowEnd =>
    refine ⟨_, rfl, ?_⟩
    split
    · exact .foldl _ (.withLabels same _ fun _ => ⟨rfl, rfl⟩) fun u a => (Upholds.refl u).endAdoption a
    · exact same
  | cycleMarkReceived f n k x => exact ⟨_, rfl, same.receive _ _ _ _ fun u => (Upholds.refl u).judgeMark _ n k x⟩
  | labelClaimReceived f l c k x => exact ⟨_, rfl, same.receivePlain _ _ _ fun u => (Upholds.refl u).takeClaim _ l k x⟩
  | labelRefuseReceived f l x => exact ⟨_, rfl, same.receivePlain _ _ _ fun u => (Upholds.refl u).takeRefusal _ l x⟩
  | labelHandoverReceived f r =>
    refine ⟨_, rfl, same.receivePlain _ _ _ fun u => ?_⟩
    split
    · exact (Upholds.refl u).takeHandover r
    · exact .refl u
  | labelAdoptedReceived f l n d =>
    refine ⟨_, rfl, same.receivePlain _ _ _ fun u => ?_⟩
    split
    · exact (Upholds.refl u).adoptedElsewhere l n
    · exact .refl u
  | beaconTimerExpiry => exact Upholds.beaconTimerExpiry s
  | beaconReceived f b =>
    refine ⟨_, rfl, ?_⟩
    split
    · exact same.ownBeacon
    · exact same.receive _ _ _ _ fun u => .refl u
  | peerSilent n => exact Upholds.peerSilent n s
  | trunkFrameBegin hs =>
    refine ⟨_, rfl, ?_⟩
    split
    · split
      · exact same
      · split
        · exact same.bump _
        · next c _ _ _ =>
          exact (same.withTrunk (fun x => { x with inAir := some c }) fun _ => ⟨rfl, rfl, rfl, rfl, rfl, rfl⟩).emit _
    · exact same
  | trunkAttemptEnd a b => exact Upholds.trunkAttemptEnd a b s
  | trunkFrameBadCheck => exact Upholds.of_frame _ s (by decide)
  | trunkFrameOtherDest f b => exact Upholds.trunkFrameOtherDest f b s
  | officeReplyReceived f => exact ⟨_, rfl, same.receivePlain _ _ _ fun u => (Upholds.refl u).bump _⟩
  | priceChangeReceived f rs => exact ⟨_, rfl, same.receivePlain _ _ _ fun u => (Upholds.refl u).applyRecords rs⟩
  | filePriceChangeReceived f n i rs =>
    refine ⟨_, rfl, same.receivePlain _ _ _ fun u => ?_⟩
    split
    · exact (Upholds.refl u).applyRecords rs
    · exact (Upholds.refl u).takeFileFrame _ n i rs
  | fileAnnounceReceived f n c k => exact ⟨_, rfl, same.receivePlain _ _ _ fun u => (Upholds.refl u).takeAnnounce _ n c k⟩
  | fileCloseReceived f n c k => exact ⟨_, rfl, same.receivePlain _ _ _ fun u => (Upholds.refl u).takeFileClose _ n c k⟩
  | trunkCollectionTimeout => exact Upholds.of_frame _ s (by decide)
  | shelfDoneReceived f rs =>
    exact ⟨_, rfl, same.receivePlain _ _ _ fun u => (Upholds.refl u).foldl rs fun v r => (Upholds.refl v).takeDone f.src r⟩
  | shelfQueryReceived f rs => exact ⟨_, rfl, same.receivePlain _ _ _ fun u => (Upholds.refl u).answerQuery _ rs⟩
  | shelfPendingReceived f rs =>
    exact ⟨_, rfl, same.receivePlain _ _ _ fun u => (Upholds.refl u).foldl rs fun v r => (Upholds.refl v).takePending f.src r⟩
  | relayReceived f p => exact ⟨_, rfl, same.receivePlain _ _ _ fun u => (Upholds.refl u).takeRelay p⟩
  | uplinkCarrierChange b => exact Upholds.uplinkCarrierChange b s
  | uplinkSendEnd =>
    refine ⟨_, rfl, ?_⟩
    split
    · exact same
    · split
      · exact (((((same.reach _).withFwd _).emit _).bump _).recordSent _).transmit.serveHeld
      · exact same
  | uplinkParcelReceived p =>
    refine ⟨_, rfl, ?_⟩
    repeat' split
    · exact same.bump _
    · exact same.deliverBack p
    · exact same.sendBack p
    · exact same
  | guestFrameReceived a d p =>
    refine ⟨_, rfl, ?_⟩
    repeat' split
    · exact same.frame (s.reject_keeps a _) (by decide)
    · exact same.bump _
    · exact same.bump _
    · exact same.guestFrame a p
    · exact same
  | guestRefillTimer => exact Upholds.of_frame _ s (by decide)
  | sessionSecondTimer =>
    have timed := (same.reach s.link.timer).withLink fun l => { l with timer := l.timer + Config.seconds 1 }
    refine ⟨_, rfl, ?_⟩
    dsimp only
    repeat' split
    · exact timed.openWindow.testResting.testWindowStart
    · exact timed
    · exact same
  | restTimerExpiry =>
    refine ⟨_, rfl, ?_⟩
    repeat' split
    · exact same
    · exact ((same.reach _).withLink _).testWindowStart
    · exact same
  | sessionReplyTimeout =>
    refine ⟨_, rfl, ?_⟩
    repeat' split
    · exact same
    · exact ((same.reach _).withLink _).sessionEvent _
    · exact same
  | accept n x k => exact ⟨_, rfl, same.deliverMessage _ _⟩
  | defer n => exact ⟨_, rfl, same.deliverMessage _ _⟩
  | refuse n k => exact ⟨_, rfl, same.deliverMessage _ _⟩
  | batchTaken n k => exact ⟨_, rfl, same.deliverMessage _ _⟩
  | fileStart n k c x => exact ⟨_, rfl, same.deliverMessage _ _⟩
  | filePart n k i rs => exact ⟨_, rfl, same.deliverMessage _ _⟩
  | fileEnd n k => exact ⟨_, rfl, same.deliverMessage _ _⟩
  | noResend n k => exact ⟨_, rfl, same.deliverMessage _ _⟩
  | clockTimerExpiry =>
    refine ⟨_, rfl, ?_⟩
    repeat' split
    · exact ((same.reach _).withUnit _).afterClock
    · exact same
    · exact same
  | eventLineChange n b => exact Upholds.eventLineChange n b s
  | mainsRiseTimeout =>
    refine ⟨_, rfl, ?_⟩
    split
    · exact same
    · split
      · exact ((same.reach _).withUnit _).decideMode
      · exact same
    · exact same
    · exact same
  | mainsFallTimeout =>
    refine ⟨_, rfl, ?_⟩
    split
    · exact same
    · exact same
    · exact same
    · split
      · exact ((same.reach _).withUnit _).decideMode
      · exact same
  | malformedFrameReceived f =>
    refine ⟨_, rfl, ?_⟩
    split
    · exact same.ownBeacon
    · exact same.receive _ _ _ _ fun u => .refl u

theorem step_upholds {s t : State} (h : step s = .next t) : Upholds s t := by
  cases hp : s.pending with
  | nil =>
    rw [step_idle hp] at h
    cases h
    exact .refl s
  | cons c rest =>
    rw [step_of_pending hp] at h
    obtain ⟨u, hu, upheld⟩ := exec_upholds c { s with pending := rest }
    cases hu.symm.trans h
    have taken : Upholds s { s with pending := rest } := (Upholds.refl s).of_collections rfl rfl rfl rfl rfl rfl
    exact taken.trans upheld

end Sys2Proof.Machine

/-! ### The statements -/

open Sys2Proof Sys2Proof.Machine

/-- Settles O54: every command upholds the journal's invariant. -/
theorem journalStaysOrdered : Obligations.JournalStaysOrdered := fun _ _ hs h => (step_upholds h).journal hs

/-- Settles O55: every command upholds the baskets' invariant. -/
theorem basketsStayWithinLimits : Obligations.BasketsStayWithinLimits := fun _ _ hs h => (step_upholds h).baskets hs

/-- Settles O56: every command upholds the price book's invariant. -/
theorem bookVersionsStayRising : Obligations.BookVersionsStayRising := fun _ _ hs h => (step_upholds h).book hs

/-- Settles O57: every command upholds the label table's invariant. -/
theorem labelsStayOwnedOrHeard : Obligations.LabelsStayOwnedOrHeard := fun _ _ hs h => (step_upholds h).labels hs

/-- Settles O58: every command upholds the bounds of the queues and of the alert list. -/
theorem queuesAndAlertsStayBounded : Obligations.QueuesAndAlertsStayBounded :=
  fun _ _ h => ⟨(step_upholds h).bounded, (step_upholds h).alerts⟩

/-- Settles O60: every command keeps the frames in the queues and hold lines of their class. -/
theorem framesStayInTheirQueues : Obligations.FramesStayInTheirQueues := fun _ _ hs h => (step_upholds h).filed hs

/-- Settles O59: the fields are those `State.reset` is made of, and each invariant holds of an empty collection. -/
theorem resetStateIsSound : Obligations.ResetStateIsSound := by
  refine ⟨⟨rfl, rfl, rfl, rfl, rfl, rfl, rfl, rfl, rfl, fun l => ?_, rfl, rfl, rfl, rfl, rfl, rfl, rfl⟩,
    ⟨by decide, by decide, fun r hr => (by cases hr), ⟨by decide, by decide⟩, by decide⟩, fun l b hb => ?_,
    ⟨rfl, by decide, fun x hx => (by cases hx)⟩, ⟨rfl, rfl, fun _ _ => rfl, by decide⟩, Trunk.bounded_initial,
    show 1 ≤ Config.alertCapacity by decide, Trunk.filed_initial⟩
  · simp [State.lane, State.reset, Lane.initial]
  · simp [State.lane, State.reset, Lane.initial] at hb

end

section
/-! PROOFS. Lane frames outside service (R28, R29), the silent lane (R27), OPEN-BASKET, CANCEL and the abandoned basket (R36, R43,
R45), ITEM (R37, R38) and the refusals of CLOSE (R41); a lane's command leaves the other lanes. -/

namespace Sys2Proof.Machine

open Sys2Proof

variable {s t : State} {l m : LaneNo}

theorem inRange_iff (n hi : Nat) : inRange n hi = true ↔ 1 ≤ n ∧ n ≤ hi := by
  simp [inRange]

theorem inRange_eq_false_iff (n hi : Nat) : inRange n hi = false ↔ n = 0 ∨ hi < n := by
  rw [← Bool.not_eq_true, inRange_iff]
  omega

/-! ### The other lanes (R26, R34) -/

theorem State.lane_of_keeps {fs : List Field} (h : keeps fs s t) (hf : .lanes ∉ fs) (m : LaneNo) : t.lane m = s.lane m := by
  rw [State.lane, State.lane, show t.lanes = s.lanes from h _ hf]

theorem State.lane_answer_ne (s : State) (h : m ≠ l) (bit : Bool) (k : RequestKind) (r : LaneReply) :
    (s.answer l bit k r).lane m = s.lane m := by
  rw [State.answer, State.lane_emit, State.lane_withLane_ne s h]

theorem State.lane_touch_ne (s : State) (h : m ≠ l) : (s.touch l).lane m = s.lane m := State.lane_withLane_ne s h _

theorem State.lane_goodFrame_ne (s : State) (h : m ≠ l) : (s.goodFrame l).lane m = s.lane m := State.lane_withLane_ne s h _

theorem State.lane_setBasket_ne (s : State) (h : m ≠ l) (b : Option Basket) : (s.setBasket l b).lane m = s.lane m :=
  State.lane_withLane_ne s h _

/-- A request changes another lane's record only where its act does. -/
theorem State.lane_request_ne (s : State) (h : m ≠ l) (bit : Bool) (k : RequestKind) {act : State → Acted}
    (ha : ∀ u, (act u).2.lane m = u.lane m) : (s.request l bit k act).lane m = s.lane m := by
  have good := s.lane_goodFrame_ne h
  unfold State.request
  split
  · rfl
  split
  · exact good
  split
  · rfl
  dsimp only
  split
  · rw [State.lane_answer_ne _ h, good]
  split
  · exact good
  split
  · exact good
  · have acted : (act ((s.goodFrame l).touch l)).2.lane m = s.lane m := by rw [ha, State.lane_touch_ne _ h, good]
    unfold State.newRequest
    dsimp only
    split
    · exact acted
    · rw [State.lane_answer_ne _ h, acted]

theorem State.lane_discardFrame_ne (s : State) (h : m ≠ l) (why : LaneFault) :
    (s.discardFrame l why).lane m = s.lane m := by
  unfold State.discardFrame
  split
  · rfl
  split
  · rfl
  · exact State.lane_withLane_ne s h _

theorem State.lane_endAuth_ne (s : State) (h : m ≠ l) (f : AuthFlight) (r : LaneReply) :
    (s.endAuth l f r).lane m = s.lane m := by
  rw [State.endAuth, State.lane_emit, State.lane_withLane_ne s h]

theorem State.lane_actOpen_ne (s : State) (h : m ≠ l) : (s.actOpen l).2.lane m = s.lane m := by
  unfold State.actOpen
  split
  · rfl
  · exact State.lane_withLane_ne s h _

theorem State.lane_actItem_ne (s : State) (h : m ≠ l) (a q : Nat) (x : Option Nat) :
    (s.actItem l a q x).2.lane m = s.lane m := by
  unfold State.actItem
  repeat' (first | split | dsimp only)
  all_goals first
    | rfl
    | exact s.lane_setBasket_ne h _

theorem State.lane_actVoid_ne (s : State) (h : m ≠ l) (n : Nat) : (s.actVoid l n).2.lane m = s.lane m := by
  unfold State.actVoid
  repeat' split
  · rfl
  · rfl
  · exact s.lane_setBasket_ne h _

theorem State.lane_actTotal_ne (s : State) (h : m ≠ l) : (s.actTotal l).2.lane m = s.lane m := by
  unfold State.actTotal
  split
  · rfl
  · exact s.lane_setBasket_ne h _

theorem State.lane_actCancel_ne (s : State) (h : m ≠ l) : (s.actCancel l).2.lane m = s.lane m := by
  unfold State.actCancel
  split
  · rfl
  · rw [State.lane_of_keeps (State.bump_keeps _ _) (by decide), State.lane_setBasket_ne _ h]

theorem State.lane_actClose_ne (s : State) (h : m ≠ l) (x : Tender) : (s.actClose l x).2.lane m = s.lane m := by
  unfold State.actClose
  split
  · rfl
  split
  · rfl
  split
  · rfl
  · next b _ r _ _ =>
    have appended := fun r => State.lane_of_keeps (s.append_keeps r) (by decide) m
    dsimp only
    split
    · exact appended _
    · dsimp only
      split
      · rw [State.lane_of_keeps (State.watermarkCrossed_keeps _) (by decide), State.lane_withLane_ne _ h, appended]
      · rw [State.lane_withLane_ne _ h, appended]

theorem State.lane_actAuth_ne (s : State) (h : m ≠ l) (bit : Bool) (p : List Byte) :
    (s.actAuth l bit p).2.lane m = s.lane m := by
  have routed : ∀ (u : State) n, (u.routeAuth l n p).2.lane m = u.lane m := fun u n =>
    State.lane_of_keeps (u.routeAuth_keeps l n p) (by decide) m
  unfold State.actAuth
  dsimp only
  split
  · rw [State.lane_withLane_ne _ h, routed, State.lane_withLane_ne _ h]
  · rw [routed, State.lane_withLane_ne _ h]
  · rw [routed, State.lane_withLane_ne _ h]

theorem exec_lane_ne {c : Instr} (hc : laneOf c = some l) (h : m ≠ l) (s : State) :
    ∃ t, exec c s = .next t ∧ t.lane m = s.lane m := by
  cases c <;> cases hc
  case laneFrameBad why => exact ⟨_, rfl, s.lane_discardFrame_ne h why⟩
  case laneTimeout =>
    refine ⟨_, rfl, ?_⟩
    repeat' split
    · rfl
    · rw [State.lane_withLane_ne _ h]; rfl
    · rfl
  case openBasket bit => exact ⟨_, rfl, s.lane_request_ne h bit _ fun u => u.lane_actOpen_ne h⟩
  case item bit a q x => exact ⟨_, rfl, s.lane_request_ne h bit _ fun u => u.lane_actItem_ne h a q x⟩
  case void bit n => exact ⟨_, rfl, s.lane_request_ne h bit _ fun u => u.lane_actVoid_ne h n⟩
  case total bit => exact ⟨_, rfl, s.lane_request_ne h bit _ fun u => u.lane_actTotal_ne h⟩
  case close bit x => exact ⟨_, rfl, s.lane_request_ne h bit _ fun u => u.lane_actClose_ne h x⟩
  case cancel bit => exact ⟨_, rfl, s.lane_request_ne h bit _ fun u => u.lane_actCancel_ne h⟩
  case lookup bit a =>
    exact ⟨_, rfl, s.lane_request_ne h bit _ fun u => State.lane_of_keeps (u.actLookup_keeps a) (by decide) m⟩
  case auth bit p =>
    refine ⟨_, rfl, ?_⟩
    split
    · exact s.lane_request_ne h bit _ fun u => u.lane_actAuth_ne h bit p
    · exact s.lane_discardFrame_ne h _
  case authTimeout =>
    refine ⟨_, rfl, ?_⟩
    repeat' split
    · rfl
    · rw [State.lane_of_keeps (State.withdrawAuth_keeps _ _ _) (by decide), State.lane_endAuth_ne _ h]; rfl
    · rfl
  case basketAbandon =>
    refine ⟨_, rfl, ?_⟩
    repeat' split
    · rfl
    · rw [State.lane_of_keeps (State.bump_keeps _ _) (by decide), State.lane_setBasket_ne _ h]; rfl
    · rfl

/-! ### Lanes that serve none (R28, R29) -/

theorem State.request_starting (s : State) (l : LaneNo) (bit : Bool) (k : RequestKind) (act : State → Acted)
    (h : s.part = .starting) : s.request l bit k act = s := by
  simp [State.request, h]

theorem State.request_halted (s : State) (l : LaneNo) (bit : Bool) (k : RequestKind) (act : State → Acted)
    (hl : s.live = true) (h : s.part = .halted) :
    s.request l bit k act = (s.goodFrame l).emit (.laneReply l bit .halt) := by
  simp [State.request, hl, h]

theorem State.serving_part (h : s.serving = true) : s.part ≠ .starting ∧ s.part ≠ .halted := by
  constructor <;> intro hp <;> simp [State.serving, State.working, hp] at h

theorem State.request_disabled (s : State) (l : LaneNo) (bit : Bool) (k : RequestKind) (act : State → Acted)
    (h : s.serving = true) (hd : (s.lane l).state = .disabled) : s.request l bit k act = s := by
  obtain ⟨_, hhalted⟩ := State.serving_part h
  simp [State.request, hhalted, hd]

/-- A bad frame of a lane that takes notice of it raises one of the lane's counts (R28). -/
theorem State.discardFrame_counted (s : State) (l : LaneNo) (why : LaneFault) (hl : s.live = true)
    (hs : s.part ≠ .starting) (h : s.part = .halted ∨ (s.lane l).state ≠ .disabled) :
    s.discardFrame l why = s.withLane l fun x =>
      { x with oversize := if why = .oversize ∨ why = .authLength then min (x.oversize + 1) 4294967295 else x.oversize
               checkErrors :=
                 if why = .check ∨ why = .tender then min (x.checkErrors + 1) 4294967295 else x.checkErrors } := by
  have hserves : ¬(s.part ≠ .halted ∧ (s.lane l).state = .disabled) := fun ⟨hh, hd⟩ => h.elim hh (· hd)
  cases why <;> simp [State.discardFrame, hl, hs, hserves, raise, Config.countMax]

theorem State.discardFrame_starting (s : State) (l : LaneNo) (why : LaneFault) (h : s.part = .starting) :
    s.discardFrame l why = s := by
  simp [State.discardFrame, h]

theorem State.discardFrame_disabled (s : State) (l : LaneNo) (why : LaneFault) (h : s.serving = true)
    (hd : (s.lane l).state = .disabled) : s.discardFrame l why = s := by
  obtain ⟨_, hhalted⟩ := State.serving_part h
  simp [State.discardFrame, hhalted, hd]

/-! ### OPEN-BASKET and CANCEL (R36, R43) -/

/-- A new request whose act answers and changes the lane's record. -/
theorem State.TakesNew.request_withLane {bit : Bool} {k : RequestKind} {act : State → Acted} {r : LaneReply}
    {f : Lane → Lane} (h : s.TakesNew l bit k)
    (ha : act ((s.goodFrame l).touch l) = (some r, ((s.goodFrame l).touch l).withLane l f)) :
    s.request l bit k act = s.served l bit k r f :=
  (h.request_reply ha).trans (s.answer_touched l bit k r f)

/-- A new request whose act answers, changes the lane's record and raises a count. -/
theorem State.TakesNew.request_withLane_bump {bit : Bool} {k : RequestKind} {act : State → Acted} {r : LaneReply}
    {f : Lane → Lane} {c : Count} (h : s.TakesNew l bit k)
    (ha : act ((s.goodFrame l).touch l) = (some r, (((s.goodFrame l).touch l).withLane l f).bump c)) :
    s.request l bit k act = (s.bump c).served l bit k r f := by
  rw [h.request_reply ha, ← State.answer_touched]
  rfl

theorem exec_openBasket (l : LaneNo) (bit : Bool) (s : State) :
    exec (.openBasket l bit) s = .next (s.request l bit .openBasket (State.actOpen l)) := rfl

theorem exec_cancel (l : LaneNo) (bit : Bool) (s : State) :
    exec (.cancel l bit) s = .next (s.request l bit .cancel (State.actCancel l)) := rfl

theorem State.actOpen_open {b : Basket} (h : (s.lane l).basket = some b) :
    s.actOpen l = (some (.basketOpen b.id), s) := by
  simp [State.actOpen, h]

theorem State.actOpen_new (h : (s.lane l).basket = none) :
    s.actOpen l = (some (.ok (some (nextId (s.lane l).basketId))), s.withLane l fun x =>
      { x with
        basketId := nextId (s.lane l).basketId
        basket := some { id := nextId (s.lane l).basketId, lines := [], terms := [], running := 0, lastActivity := s.now
                         result := none } }) := by
  simp [State.actOpen, h]

theorem State.actCancel_noBasket (h : (s.lane l).basket = none) : s.actCancel l = (some .noBasket, s) := by
  simp [State.actCancel, h]

theorem State.actCancel_basket (h : (s.lane l).basket ≠ none) :
    s.actCancel l = (some (.ok none), (s.setBasket l none).bump .basketsCancelled) := by
  obtain ⟨b, hb⟩ := Option.ne_none_iff_exists'.1 h
  simp [State.actCancel, hb]

@[simp] theorem State.basketId_touched (s : State) (l : LaneNo) :
    (((s.goodFrame l).touch l).lane l).basketId = (s.lane l).basketId := by
  simp [State.touch_goodFrame]

@[simp] theorem State.now_touched (s : State) (l : LaneNo) : ((s.goodFrame l).touch l).now = s.now := rfl

/-! ### ITEM (R37, R38) -/

theorem exec_item (l : LaneNo) (bit : Bool) (a q : Nat) (x : Option Nat) (s : State) :
    exec (.item l bit a q x) s = .next (s.request l bit .item (State.actItem l a q x)) := rfl

theorem State.actItem_noBasket (h : (s.lane l).basket = none) (a q : Nat) (x : Option Nat) :
    s.actItem l a q x = (some .noBasket, s) := by
  simp [State.actItem, h]

section Item
variable {b : Basket} {a q : Nat} {x : Option Nat}

theorem State.actItem_fullLines (h : (s.lane l).basket = some b) (hlines : 250 ≤ b.lines.length) :
    s.actItem l a q x = (some .basketFull, s) := by
  simp [State.actItem, h, Config.lineCapacity, hlines]

/-- An ITEM that names no terms it can be priced from is refused by test 3 (R37). -/
theorem State.actItem_noTerms {r : LaneReply} (h : (s.lane l).basket = some b) (hlines : b.lines.length < 250)
    (ht : s.itemTerms b a = .inl r) : s.actItem l a q x = (some r, s) := by
  have : ¬ 250 ≤ b.lines.length := by omega
  simp [State.actItem, h, Config.lineCapacity, this, ht]

theorem State.actItem_badQuantity {y : TermsRecord} {new : Bool} (h : (s.lane l).basket = some b)
    (hlines : b.lines.length < 250) (ht : s.itemTerms b a = .inr (y, new)) (hq : quantityOk y.kind q (x.getD 0) = false) :
    s.actItem l a q x = (some .badQuantity, s) := by
  have : ¬ 250 ≤ b.lines.length := by omega
  simp [State.actItem, h, Config.lineCapacity, this, ht, hq]

theorem priceLine_overlimit {y : TermsRecord} {q m running : Nat}
    (h : 9999999 < lineAmount y q m ∨ 99999999 < running + lineAmount y q m) : priceLine y q m running = none := by
  have : ¬(lineAmount y q m ≤ lineMax ∧ running + lineAmount y q m ≤ runningMax) := by
    simp only [lineMax, runningMax]
    omega
  simp [priceLine, this]

theorem priceLine_within {y : TermsRecord} {q m running : Nat} (h : lineAmount y q m ≤ 9999999)
    (hr : running + lineAmount y q m ≤ 99999999) :
    priceLine y q m running = some (lineAmount y q m, running + lineAmount y q m) := by
  simp [priceLine, lineMax, runningMax, h, hr]

theorem State.actItem_overlimit {y : TermsRecord} {new : Bool} (h : (s.lane l).basket = some b)
    (hlines : b.lines.length < 250) (ht : s.itemTerms b a = .inr (y, new)) (hq : quantityOk y.kind q (x.getD 0) = true)
    (ho : priceLine y q (x.getD 0) b.running = none) : s.actItem l a q x = (some .overlimit, s) := by
  have : ¬ 250 ≤ b.lines.length := by omega
  simp [State.actItem, h, Config.lineCapacity, this, ht, hq, ho]

theorem State.actItem_accepted {y : TermsRecord} {new : Bool} {amount running : Nat} (h : (s.lane l).basket = some b)
    (hlines : b.lines.length < 250) (ht : s.itemTerms b a = .inr (y, new)) (hq : quantityOk y.kind q (x.getD 0) = true)
    (hp : priceLine y q (x.getD 0) b.running = some (amount, running)) :
    s.actItem l a q x = (some (.itemOk (b.lines.length + 1) amount running),
      s.setBasket l (some (b.add y new (newLine y q (x.getD 0) amount) running))) := by
  have : ¬ 250 ≤ b.lines.length := by omega
  simp [State.actItem, h, Config.lineCapacity, this, ht, hq, hp]

theorem Basket.find?_terms_eq_none (h : ∀ y ∈ b.terms, y.article ≠ a) : b.terms.find? (fun y => y.article == a) = none :=
  List.find?_eq_none.2 fun y hy => by simpa using h y hy

theorem State.itemTerms_unknown (hterms : ∀ y ∈ b.terms, y.article ≠ a)
    (h : a = 0 ∨ 9999999999999 < a ∨ s.entry a = none) : s.itemTerms b a = .inl .unknownItem := by
  unfold State.itemTerms
  rw [Basket.find?_terms_eq_none hterms]
  dsimp only
  split
  · rfl
  · next ha =>
    obtain ⟨hlo, (hhi : a ≤ 9999999999999)⟩ := (articleOk_iff a).1 (by simpa using ha)
    have he : s.entry a = none := by
      rcases h with h | h | h
      · omega
      · omega
      · exact h
    rw [he]

/-- The terms of an article that the basket has none of are those of its entry (R37). -/
theorem State.itemTerms_entry (hterms : ∀ y ∈ b.terms, y.article ≠ a) (hlo : 1 ≤ a) (hhi : a ≤ 9999999999999) {e : Entry}
    (he : s.entry a = some e) :
    s.itemTerms b a = match termsOf a e with
      | none => .inl .notForSale
      | some y => if 100 ≤ b.terms.length then .inl .basketFull else .inr (y, true) := by
  have ha : articleOk a = true := (articleOk_iff a).2 ⟨hlo, hhi⟩
  unfold State.itemTerms
  simp only [Basket.find?_terms_eq_none hterms, ha, he, Bool.not_true, Bool.false_eq_true, if_false, Config.termsCapacity]
  rfl

theorem State.itemTerms_held {y : TermsRecord} (h : b.terms.find? (fun y => y.article == a) = some y) :
    s.itemTerms b a = .inr (y, false) := by
  simp [State.itemTerms, h]

@[simp] theorem State.itemTerms_active (s : State) (b : Basket) (n a : Nat) :
    s.itemTerms (b.active n) a = s.itemTerms b a := rfl

@[simp] theorem State.itemTerms_touched (s : State) (l : LaneNo) (b : Basket) (a : Nat) :
    ((s.goodFrame l).touch l).itemTerms b a = s.itemTerms b a := rfl

end Item

/-! ### The refusals of CLOSE (R41) -/

theorem exec_close (l : LaneNo) (bit : Bool) (x : Tender) (s : State) :
    exec (.close l bit x) s = .next (s.request l bit .close (State.actClose l x)) := rfl

theorem State.actClose_noBasket (h : (s.lane l).basket = none) (x : Tender) : s.actClose l x = (some .noBasket, s) := by
  simp [State.actClose, h]

theorem State.actClose_notTotalled {b : Basket} (h : (s.lane l).basket = some b) (hr : b.result = none) (x : Tender) :
    s.actClose l x = (some .notTotalled, s) := by
  simp [State.actClose, h, hr]

theorem State.actClose_empty {b : Basket} {r : TotalResult} (h : (s.lane l).basket = some b) (hr : b.result = some r)
    (hv : ∀ y ∈ b.lines, y.void = true) (x : Tender) : s.actClose l x = (some .empty, s) := by
  simp [State.actClose, h, hr, List.all_eq_true.2 hv]

/-- A full journal, or a counter that has issued its last serial, takes no record (R66, R67). -/
theorem State.append_refused (h : 16384 ≤ s.journal.records.length ∨ s.journal.counter = .exhausted) (r : JournalRecord) :
    s.append r = (none, s.bump .appendsRefused) := by
  unfold State.append
  split
  · rfl
  · next n hn =>
    have : s.journal.records.length ≥ Config.journalCapacity := by
      rcases h with h | h
      · exact h
      · rw [hn] at h; cases h
    simp [this]

theorem State.actClose_journalFull {b : Basket} {r : TotalResult} (h : (s.lane l).basket = some b)
    (hr : b.result = some r) (hv : ∃ y ∈ b.lines, y.void = false)
    (hj : 16384 ≤ s.journal.records.length ∨ s.journal.counter = .exhausted) (x : Tender) :
    s.actClose l x = (some .journalFull, s.bump .appendsRefused) := by
  have hall : b.lines.all (·.void) = false := by
    obtain ⟨y, hy, hf⟩ := hv
    exact List.all_eq_false.2 ⟨y, hy, by simp [hf]⟩
  simp [State.actClose, h, hr, hall, State.append_refused hj]

end Sys2Proof.Machine

/-! ### The statements -/

open Sys2Proof Sys2Proof.Machine

/-- Settles O3, act by act: each writes the record of its own lane alone. -/
theorem laneCommandsLeaveOtherLanes : Obligations.LaneCommandsLeaveOtherLanes := by
  intro c l m s t hc hm ht
  obtain ⟨u, hu, lane⟩ := exec_lane_ne hc hm s
  cases hu.symm.trans ht
  exact lane

/-- Settles O4: a request of any kind meets `request_starting`, `request_halted` or `request_disabled`. -/
theorem lanesOutsideServiceAndSilence : Obligations.LanesOutsideServiceAndSilence := by
  refine ⟨fun c l bit k s hc hl => ?requests, fun l why s hl => ⟨fun hs h => ?counted, fun hs => ?starting,
    fun hs hd => ?disabled, fun bit p hp => ?auth⟩, fun l due s hl ht => ?silent⟩
  case requests =>
    obtain ⟨act, hact⟩ := exec_of_laneRequest hc
    rw [hact]
    exact ⟨fun h => by rw [s.request_starting l bit k act h], fun h => by rw [s.request_halted l bit k act hl h]; rfl,
      fun h hd => by rw [s.request_disabled l bit k act h hd]⟩
  case counted => exact congrArg _ (s.discardFrame_counted l why hl hs h)
  case starting => exact congrArg _ (s.discardFrame_starting l why hs)
  case disabled => exact congrArg _ (s.discardFrame_disabled l why hs hd)
  case auth =>
    have hbad : authPayloadOk p = false := (inRange_eq_false_iff _ _).2 hp
    simp [exec, execAuth, execLaneFrameBad, hbad]
  case silent => simp [exec, execLaneTimeout, ht, hl]; rfl

/-- Settles O6, from what OPEN-BASKET and CANCEL do to the basket that a new request finds. -/
theorem basketsOpenAndEnd : Obligations.BasketsOpenAndEnd := by
  refine ⟨fun l bit s h => ⟨fun hb => ?new, fun b hb => ?held⟩, fun l bit s h => ⟨fun hb => ?noBasket, fun hb => ?cancel⟩,
    fun l s b hl hb => ?abandon⟩
  case new =>
    rw [exec_openBasket, h.request_withLane (State.actOpen_new (by simp [hb]))]
    simp only [State.basketId_touched, State.now_touched]
    rfl
  case held =>
    rw [exec_openBasket, h.request_unchanged (State.actOpen_open (b := b.active s.now) (by simp [hb]))]
    rfl
  case noBasket => rw [exec_cancel, h.request_unchanged (State.actCancel_noBasket (by simp [hb]))]
  case cancel => rw [exec_cancel, h.request_withLane_bump (State.actCancel_basket (by simp [hb]))]
  case abandon => simp [exec, execBasketAbandon, hb, hl]; rfl

/-- Settles O7, test by test: the act answers and leaves the state that a new request finds. -/
theorem itemAndCloseTestsInOrder : Obligations.ItemAndCloseTestsInOrder := by
  refine ⟨fun l bit a q m s h => ⟨fun hb => ?noBasket, fun b hb => ⟨fun hlines => ?fullLines, fun hlines =>
      ⟨fun hterms => ⟨fun hu => ?unknown, fun hlo hhi e he => ⟨fun hc => ?notForSale, fun hc hfull => ?fullTerms⟩⟩,
        fun t new ht => ⟨fun hq => ?badQuantity, fun hq ho => ?overlimit⟩⟩⟩⟩,
    fun l bit x s h => ⟨fun hb => ?closeNoBasket, fun b hb => ⟨fun hr => ?notTotalled, fun hr hv => ?empty,
      fun hr hv hj => ?journalFull⟩⟩⟩
  case noBasket => rw [exec_item, h.request_unchanged (State.actItem_noBasket (by simp [hb]) a q m)]
  case closeNoBasket => exact congrArg _ (h.request_unchanged (State.actClose_noBasket (by simp [hb]) x))
  all_goals have found : (((s.goodFrame l).touch l).lane l).basket = some (b.active s.now) := by simp [hb]
  case fullLines => rw [exec_item, h.request_unchanged (State.actItem_fullLines found hlines)]
  case unknown =>
    rw [exec_item, h.request_unchanged (State.actItem_noTerms found hlines (State.itemTerms_unknown hterms (by simpa using hu)))]
  case notForSale =>
    have ht : s.itemTerms b a = .inl .notForSale := by
      rw [s.itemTerms_entry hterms hlo hhi he]
      simp [termsOf, hc]
    rw [exec_item, h.request_unchanged (State.actItem_noTerms found hlines ht)]
  case fullTerms =>
    obtain ⟨c, hcur⟩ := Option.ne_none_iff_exists'.1 hc
    have ht : s.itemTerms b a = .inl .basketFull := by
      rw [s.itemTerms_entry hterms hlo hhi he]
      simp [termsOf, hcur, hfull]
    rw [exec_item, h.request_unchanged (State.actItem_noTerms found hlines ht)]
  case badQuantity => rw [exec_item, h.request_unchanged (State.actItem_badQuantity found hlines ht hq)]
  case overlimit =>
    rw [exec_item, h.request_unchanged (State.actItem_overlimit found hlines ht hq (priceLine_overlimit ho))]
  case notTotalled => exact congrArg _ (h.request_unchanged (State.actClose_notTotalled found hr x))
  case empty =>
    obtain ⟨r, hr⟩ := Option.ne_none_iff_exists'.1 hr
    exact congrArg _ (h.request_unchanged (State.actClose_empty found hr hv x))
  case journalFull =>
    obtain ⟨r, hr⟩ := Option.ne_none_iff_exists'.1 hr
    have refused := State.actClose_journalFull found hr hv (by simpa [State.touch_goodFrame] using hj) x
    exact congrArg _ ((h.request_reply refused).trans ((s.bump .appendsRefused).answer_touched_id l bit .close _))

/-- Settles O8: the terms are the basket's own or the entry's view, and the line they price is appended. -/
theorem itemAppendsOneLine : Obligations.ItemAppendsOneLine := by
  intro l bit a q m s b t first h hb hlines hheld hfirst hq hamount hrunning
  have found : (((s.goodFrame l).touch l).lane l).basket = some (b.active s.now) := by simp [hb]
  have hterms : s.itemTerms b a = .inr (t, first) := by
    cases first with
    | false => exact State.itemTerms_held (hheld rfl)
    | true =>
      obtain ⟨hfree, hroom, hlo, hhi, e, c, he, hc, rfl⟩ := hfirst rfl
      rw [s.itemTerms_entry hfree hlo hhi he]
      simp [termsOf, hc, Nat.not_le.2 hroom]
  rw [exec_item, h.request_setBasket (State.actItem_accepted found hlines hterms hq (priceLine_within hamount hrunning))]
  rfl

end

section
/-! PROOFS. Authorisations handed on and their outcomes (R46 to R48, R151 to R155), and the pricing unit (03). -/

namespace Sys2Proof.Machine

open Sys2Proof

variable {s t : State} {l : LaneNo} {n : Nat} {p : List Byte}

/-! ### The routing of an AUTH (R46, R151) -/

theorem exec_auth (l : LaneNo) (bit : Bool) (h : authPayloadOk p = true) (s : State) :
    exec (.auth l bit p) s = .next (s.request l bit .auth (State.actAuth l bit p)) := by
  simp [exec, execAuth, h]

/-- The parcel of an AUTH (R151). -/
def authParcel (s : State) (l : LaneNo) (n : Nat) (p : List Byte) : Parcel :=
  { cls := .till, origin := s.settings.station, port := .lane l, tag := n, guest := none, status := .data, payload := p }

theorem Forwarding.fits_till {w : Forwarding} {q : Parcel} (h : q.cls = .till) :
    w.fits q = true ↔ (w.till.map (·.payload.length)).sum + q.payload.length ≤ 16384 := by
  simp [Forwarding.fits, h, Forwarding.queue, bytesOf, Config.uplinkCapacity]

theorem State.routeAuth_queued (hup : s.fwd.up = true)
    (hroom : (s.fwd.till.map (·.payload.length)).sum + p.length ≤ 16384) (hsend : s.fwd.sending ≠ none) :
    s.routeAuth l n p = (.accepted, { s with fwd := { s.fwd with
      till := s.fwd.till ++ [authParcel s l n p]
      pendingTable := AMap.put s.fwd.pendingTable l.val ⟨n, .local false⟩ } }) := by
  have hfits : s.fwd.fits (authParcel s l n p) = true := (Forwarding.fits_till rfl).2 hroom
  have hbusy : s.fwd.sending.isNone = false := Option.isNone_eq_false_iff.2 (Option.isSome_iff_ne_none.2 hsend)
  simp only [authParcel] at hfits ⊢
  simp [State.routeAuth, State.self, hup, hfits, State.joinUplink, State.transmit, State.addPending, Forwarding.queue,
    Forwarding.setQueue, hbusy, State.withFwd]

theorem State.routeAuth_sent (hup : s.fwd.up = true) (htill : s.fwd.till = []) (hp : p.length ≤ 512)
    (hsend : s.fwd.sending = none) :
    s.routeAuth l n p = (.accepted, { s with fwd := { s.fwd with
      sending := some (authParcel s l n p, s.now + p.length * 8000 / s.settings.uplinkRate)
      pendingTable := AMap.put s.fwd.pendingTable l.val ⟨n, .local false⟩ } }) := by
  have hfits : s.fwd.fits (authParcel s l n p) = true := (Forwarding.fits_till rfl).2 (by
    simp only [htill, authParcel, List.map_nil, List.sum_nil]
    omega)
  simp only [authParcel] at hfits ⊢
  simp [State.routeAuth, State.self, hup, hfits, State.joinUplink, State.transmit, State.addPending, Forwarding.queue,
    Forwarding.setQueue, hsend, State.withFwd, Forwarding.choose, htill, sendTime]

theorem State.routeAuth_full (hup : s.fwd.up = true)
    (hfull : 16384 < (s.fwd.till.map (·.payload.length)).sum + p.length) :
    s.routeAuth l n p = (.busy, s.bump .tillBusy) := by
  have hfits : s.fwd.fits (authParcel s l n p) = false := by
    rw [← Bool.not_eq_true, Forwarding.fits_till rfl]
    exact Nat.not_le.2 hfull
  simp only [authParcel] at hfits
  simp [State.routeAuth, State.self, hup, hfits]

theorem State.offer_urgent_queued {f : Frame} (hc : f.body.trunkClass = .urgent) (hsend : s.canSend = true)
    (hroom : s.trunk.urgent.length < 8) :
    s.offer f = (.queued, { s with trunk := { s.trunk with urgent := s.trunk.urgent ++ [f] } }) := by
  simp [State.offer, hc, hsend, Trunk.queue, Trunk.setQueue, Config.queueCapacity, hroom, State.withTrunk]

theorem State.offer_urgent_refused {f : Frame} (hc : f.body.trunkClass = .urgent) (hw : f.body.waits = false)
    (h : s.canSend = false ∨ 8 ≤ s.trunk.urgent.length) : s.offer f = (.notTaken, s.bump .notTakenUrgent) := by
  rcases Bool.eq_false_or_eq_true s.canSend with hsend | hsend
  · have hfull : ¬ s.trunk.urgent.length < 8 := by
      rcases h with h | h
      · rw [hsend] at h; cases h
      · omega
    simp [State.offer, hc, hw, hsend, Trunk.queue, Config.queueCapacity, hfull, notTakenCount]
  · simp [State.offer, hc, hsend, notTakenCount]

theorem State.routeAuth_relayed {h : Station} (hup : s.fwd.up = false) (hh : s.fwd.holder = some h)
    (hsend : s.canSend = true) (hroom : s.trunk.urgent.length < 8) :
    s.routeAuth l n p = (.accepted, { s with
      trunk := { s.trunk with
        urgent := s.trunk.urgent ++
          [{ dest := some h, body := .relay (authParcel s l n p), purpose := .relayOut, attempts := 0 }] }
      fwd := { s.fwd with pendingTable := AMap.put s.fwd.pendingTable l.val ⟨n, .relay h⟩ } }) := by
  have queued := State.offer_urgent_queued (f := relayFrame h (authParcel s l n p) .relayOut) rfl hsend hroom
  simp only [authParcel] at queued
  conv_lhs => simp only [State.routeAuth, State.self, hup, hh, queued, Bool.false_eq_true, if_false, if_true]
  rfl

theorem State.routeAuth_refused {h : Station} (hup : s.fwd.up = false) (hh : s.fwd.holder = some h)
    (hr : s.canSend = false ∨ 8 ≤ s.trunk.urgent.length) :
    s.routeAuth l n p = (.busy, (s.bump .notTakenUrgent).bump .tillBusy) := by
  have refused := State.offer_urgent_refused (f := relayFrame h (authParcel s l n p) .relayOut) rfl rfl hr
  simp only [authParcel] at refused
  simp [State.routeAuth, State.self, hup, hh, refused]

theorem State.routeAuth_noRoute (hup : s.fwd.up = false) (hh : s.fwd.holder = none) :
    s.routeAuth l n p = (.noRoute, s.bump .tillNoRoute) := by
  simp [State.routeAuth, hup, hh]

/-! ### The lane's part of an AUTH (R46) -/

/-- What the routing of an AUTH gives does not depend on the lane records, and leaves them. -/
structure Routed (s : State) (l : LaneNo) (n : Nat) (p : List Byte) (a : AuthAnswer) (t : State) : Prop where
  route : ∀ f : Lane → Lane, (s.withLane l f).routeAuth l n p = (a, t.withLane l f)

@[simp] theorem State.authCount_touched (s : State) (l : LaneNo) :
    (((s.goodFrame l).touch l).lane l).authCount = (s.lane l).authCount := by
  simp [State.touch_goodFrame]

section Acts
variable {bit : Bool}

/-- The lane awaits the outcome of an AUTH that has been handed on (R46). -/
theorem State.TakesNew.request_auth_accepted (h : s.TakesNew l bit .auth)
    (hr : Routed s l (nextId (s.lane l).authCount) p .accepted t) :
    s.request l bit .auth (State.actAuth l bit p) = t.withLane l fun x =>
      { x with state := .up, timer := some (s.now + Config.seconds 10), basket := x.basket.map (·.active s.now)
               authCount := nextId (s.lane l).authCount
               flight := some { count := nextId (s.lane l).authCount, bit := bit, due := s.now + Config.seconds 20 } } := by
  refine h.request_none ?_
  simp only [State.actAuth, State.authCount_touched]
  simp only [State.touch_goodFrame, State.withLane_withLane, hr.route]
  rfl

/-- An AUTH that has not been handed on is answered at once (R46). -/
theorem State.TakesNew.request_auth_refused (h : s.TakesNew l bit .auth) {a : AuthAnswer} {r : LaneReply}
    (hr : Routed s l (nextId (s.lane l).authCount) p a t) (ha : a = .busy ∧ r = .busy ∨ a = .noRoute ∧ r = .noRoute)
    (hnow : t.now = s.now) :
    s.request l bit .auth (State.actAuth l bit p) =
      t.served l bit .auth r fun x => { x with authCount := nextId (s.lane l).authCount } := by
  have acted : State.actAuth l bit p ((s.goodFrame l).touch l) = (some r, t.withLane l fun x =>
      { x with state := .up, timer := some (s.now + Config.seconds 10), basket := x.basket.map (·.active s.now)
               authCount := nextId (s.lane l).authCount }) := by
    simp only [State.actAuth, State.authCount_touched]
    simp only [State.touch_goodFrame, State.withLane_withLane, hr.route]
    rcases ha with ⟨rfl, rfl⟩ | ⟨rfl, rfl⟩ <;> rfl
  rw [h.request_reply acted]
  simp [State.answer, State.served, hnow]

end Acts

/-! ### The end of an AUTH (R47, R48, R155) -/

theorem State.withdrawAuth_held {path : AuthPath} (h : AMap.get s.fwd.pendingTable l.val = some ⟨n, path⟩) :
    s.withdrawAuth l n = s.withFwd fun w =>
      { w with
        pendingTable := AMap.del w.pendingTable l.val
        till := match path with
          | .local _ => w.till.filter fun p =>
            !(p.cls == .till && p.origin == s.settings.station && p.port == .lane l && p.tag == n)
          | .relay _ => w.till } := by
  simp only [State.withdrawAuth, h, if_true]
  cases path <;> rfl

theorem State.pendingOutcome_noEntry (h : ∀ e, AMap.get s.fwd.pendingTable l.val = some e → e.count ≠ n) (r : LaneReply) :
    s.pendingOutcome l n r = (s.bump .repliesNoEntry).lateReply l := by
  unfold State.pendingOutcome
  split
  · rfl
  · next e he => rw [if_neg (h e he)]; rfl

theorem State.pendingOutcome_entry {e : PendingAuth} (h : AMap.get s.fwd.pendingTable l.val = some e) (hn : e.count = n)
    (r : LaneReply) : s.pendingOutcome l n r = (if r.carries then s.dropPending l else s).authOutcome l n r := by
  simp [State.pendingOutcome, h, hn]

theorem State.authOutcome_flight {a : AuthFlight} {r : LaneReply} (h : (s.lane l).flight = some a) (hn : a.count = n)
    (hr : r.carries = true) : s.authOutcome l n r = s.endAuth l a r := by
  simp [State.authOutcome, h, hn, hr]

theorem State.authOutcome_late {r : LaneReply}
    (h : (∀ a, (s.lane l).flight = some a → a.count ≠ n) ∨ r.carries = false) : s.authOutcome l n r = s.lateReply l := by
  unfold State.authOutcome
  split
  · rfl
  · next a ha =>
    refine if_neg fun ⟨hc, hr⟩ => ?_
    rcases h with h | h
    · exact h a ha hc
    · rw [h] at hr; cases hr

/-- The reply of a returning parcel can be carried unless its payload is empty or too long (R48). -/
theorem laneReplyOf_carries (p : Parcel) :
    (laneReplyOf p).carries = true ↔ (p.status = .data → 1 ≤ p.payload.length ∧ p.payload.length ≤ 512) := by
  unfold laneReplyOf
  cases p.status <;> simp [LaneReply.carries, authPayloadOk, inRange]

theorem parcelOk_till {p : Parcel} (hc : p.cls = .till) (hp : p.port = .lane l) (hg : p.guest = none)
    (hlen : p.payload.length ≤ 1500) : parcelOk p = true := by
  simp [parcelOk, hc, hp, hg, hlen]

theorem State.deliverBack_lane {p : Parcel} (hp : p.port = .lane l) (s : State) :
    s.deliverBack p = s.pendingOutcome l p.tag (laneReplyOf p) := by
  simp [State.deliverBack, hp]

/-! ### Line amounts and the cash amount (R52 to R55, R62) -/

theorem baseAmount_eq (k : ArticleKind) (x : Terms) (q : Nat) :
    baseAmount k x q = if k = .weighed then (x.price * q + 500) / 1000 else x.price * q := by
  cases k <;> rfl

theorem lineAmount_current {r : TermsRecord} (h : r.pending = none) (q m : Nat) :
    lineAmount r q m = markedDown (baseAmount r.kind r.current q) m := by
  simp [lineAmount, h]

theorem lineAmount_pending {r : TermsRecord} {x : Terms} {v : Nat} (h : r.pending = some (x, v)) (q m : Nat) :
    lineAmount r q m = min (markedDown (baseAmount r.kind r.current q) m) (markedDown (baseAmount r.kind x q) m) := by
  simp [lineAmount, h]

theorem quantityOk_iff (k : ArticleKind) (q m : Nat) :
    quantityOk k q m = true ↔ 1 ≤ q ∧ q ≤ (if k = .weighed then 99999 else 999) ∧ m ≤ 90 := by
  cases k <;> simp [quantityOk, inRange, and_assoc]

/-- A reduced amount never falls as the base amount rises, for the deduction rises by 90 percent at most (R54). -/
theorem markedDown_mono {a b m : Nat} (hm : m ≤ 90) (h : a ≤ b) : markedDown a m ≤ markedDown b m := by
  obtain ⟨d, rfl⟩ := Nat.exists_eq_add_of_le h
  have hd : d * m ≤ d * 90 := Nat.mul_le_mul_left d hm
  have ha : a * m ≤ a * 90 := Nat.mul_le_mul_left a hm
  unfold markedDown
  rw [Nat.add_mul]
  omega

theorem baseAmount_mono (k : ArticleKind) {x y : Terms} (q : Nat) (h : x.price ≤ y.price) :
    baseAmount k x q ≤ baseAmount k y q := by
  have hq : x.price * q ≤ y.price * q := Nat.mul_le_mul_right q h
  rw [baseAmount_eq, baseAmount_eq]
  split
  · omega
  · exact hq

/-- A base amount depends on the price of its terms alone. -/
theorem baseAmount_congr (k : ArticleKind) {x y : Terms} (q : Nat) (h : x.price = y.price) :
    baseAmount k x q = baseAmount k y q := by
  rw [baseAmount_eq, baseAmount_eq, h]

/-- The lesser of the reduced amounts under two terms sets is the reduced amount under the lower price (R55). -/
theorem lineAmount_lower_price {r : TermsRecord} {x : Terms} {v : Nat} (h : r.pending = some (x, v)) {q m : Nat}
    (hm : m ≤ 90) :
    lineAmount r q m = markedDown (baseAmount r.kind { x with price := min x.price r.current.price } q) m := by
  rw [lineAmount_pending h]
  rcases Nat.le_total x.price r.current.price with hle | hle
  · rw [Nat.min_eq_right (markedDown_mono hm (baseAmount_mono r.kind q hle)), Nat.min_eq_left hle]
  · rw [Nat.min_eq_left (markedDown_mono hm (baseAmount_mono r.kind q hle)), Nat.min_eq_right hle]
    rw [baseAmount_congr r.kind (x := r.current) (y := { x with price := r.current.price }) q rfl]

/-- Rounded half up to a multiple of the step (R62). -/
theorem amountDue_cash {c : Nat} (hc : c = 1 ∨ c = 2 ∨ c = 5 ∨ c = 10) (x : Nat) :
    amountDue c x .cash % c = 0 ∧ amountDue c x .cash ≤ x + c / 2 ∧ x < amountDue c x .cash + (c + 1) / 2 := by
  unfold amountDue
  rcases hc with rfl | rfl | rfl | rfl <;> dsimp only <;> omega

theorem amountDue_le {c x : Nat} (hc : c = 1 ∨ c = 2 ∨ c = 5 ∨ c = 10) (hx : x ≤ 99999999) (y : Tender) :
    amountDue c x y ≤ 100000000 := by
  obtain ⟨hdiv, hle, -⟩ := amountDue_cash hc x
  cases y
  case cash => rcases hc with rfl | rfl | rfl | rfl <;> omega
  case card => exact Nat.le_trans hx (by decide)
  case other => exact Nat.le_trans hx (by decide)

/-! ### Deals (R58 to R61) -/

theorem dealCharge_le (r : TermsRecord) (q p : Nat) : dealCharge r q p ≤ p := by
  unfold dealCharge
  split
  · exact Nat.min_le_left _ _
  · exact Nat.le_trans (Nat.min_le_left _ _) (Nat.min_le_left _ _)

theorem dealReduction_multi {r : TermsRecord} (h : r.kind = .multi) (lines : List Line) :
    dealReduction lines r = sumAmount (qualifying r.article lines) -
      dealCharge r (sumQuantity (qualifying r.article lines)) (sumAmount (qualifying r.article lines)) := by
  simp [dealReduction, h]

theorem dealReduction_not_multi {r : TermsRecord} (h : r.kind ≠ .multi) (lines : List Line) : dealReduction lines r = 0 := by
  cases hk : r.kind with
  | multi => exact absurd hk h
  | each => simp [dealReduction, hk]
  | weighed => simp [dealReduction, hk]

theorem dealReduction_le (lines : List Line) (r : TermsRecord) :
    dealReduction lines r ≤ sumAmount (qualifying r.article lines) := by
  by_cases h : r.kind = .multi
  · rw [dealReduction_multi h]
    exact Nat.sub_le _ _
  · rw [dealReduction_not_multi h]
    exact Nat.zero_le _

/-- One line takes part in the deal of at most one of different articles. -/
theorem sum_ite_eq_le {as : List Nat} (h : as.Nodup) (a n : Nat) :
    (as.map fun b => if b = a then n else 0).sum ≤ n := by
  induction as with
  | nil => exact Nat.zero_le _
  | cons b as ih =>
    obtain ⟨hb, has⟩ := List.nodup_cons.1 h
    by_cases hba : b = a
    · have hrest : (as.map fun c => if c = a then n else 0).sum = 0 := List.sum_eq_zero fun x hx => by
        obtain ⟨c, hc, rfl⟩ := List.mem_map.1 hx
        exact if_neg fun hca : c = a => hb (by rw [hba, ← hca]; exact hc)
      simp [hba, hrest]
    · simpa [hba] using ih has

theorem sumAmount_qualifying_cons (x : Line) (lines : List Line) (a : Nat) :
    sumAmount (qualifying a (x :: lines)) ≤ (if a = x.article then (if x.void then 0 else x.amount) else 0) +
      sumAmount (qualifying a lines) := by
  unfold qualifying
  rw [List.filter_cons]
  split
  · next h =>
    simp only [Bool.and_eq_true, Bool.not_eq_true', beq_iff_eq] at h
    obtain ⟨⟨hv, ha⟩, _⟩ := h
    simp [hv, ha, sumAmount]
  · exact Nat.le_add_left _ _

/-- The lines of different articles' deals are among the live lines (R58). -/
theorem sum_qualifying_le (lines : List Line) {as : List Nat} (h : as.Nodup) :
    (as.map fun a => sumAmount (qualifying a lines)).sum ≤ sumAmount (lines.filter fun x => !x.void) := by
  induction lines with
  | nil => simp [qualifying, sumAmount]
  | cons x lines ih =>
    calc (as.map fun a => sumAmount (qualifying a (x :: lines))).sum
        ≤ (as.map fun a => (if a = x.article then (if x.void then 0 else x.amount) else 0) +
            sumAmount (qualifying a lines)).sum := List.sum_le_sum fun a _ => sumAmount_qualifying_cons x lines a
      _ = (as.map fun a => if a = x.article then (if x.void then 0 else x.amount) else 0).sum +
            (as.map fun a => sumAmount (qualifying a lines)).sum := List.sum_map_add
      _ ≤ (if x.void then 0 else x.amount) + sumAmount (lines.filter fun x => !x.void) :=
          Nat.add_le_add (sum_ite_eq_le h _ _) ih
      _ = sumAmount ((x :: lines).filter fun x => !x.void) := by
          cases hv : x.void <;> simp [hv, sumAmount]

/-- The deal reductions of a basket's articles do not exceed its running total (R61). -/
theorem Basket.Ok.reduction_le {b : Basket} (h : b.Ok) : (b.terms.map (dealReduction b.lines)).sum ≤ b.running := by
  calc (b.terms.map (dealReduction b.lines)).sum
      ≤ (b.terms.map fun r => sumAmount (qualifying r.article b.lines)).sum :=
        List.sum_le_sum fun r _ => dealReduction_le b.lines r
    _ = ((b.terms.map (·.article)).map fun a => sumAmount (qualifying a b.lines)).sum := by
        rw [List.map_map]; rfl
    _ ≤ sumAmount (b.lines.filter fun x => !x.void) := sum_qualifying_le b.lines h.once
    _ = b.running := h.running.symm

end Sys2Proof.Machine

/-! ### The statements -/

open Sys2Proof Sys2Proof.Machine

/-- Settles O12: each route of the forwarding unit, with the lane awaiting the outcome or answered at once. -/
theorem authIsHandedOn : Obligations.AuthIsHandedOn := by
  intro l bit p s h hlo hhi
  have hexec := exec_auth (p := p) l bit ((inRange_iff _ _).2 ⟨hlo, hhi⟩) s
  refine ⟨fun hup => ⟨fun hroom hsend => ?queued, fun htill hsend => ?sent, fun hfull => ?full⟩,
    fun hup => ⟨fun x hx hsend hroom => ?relayed, fun x hx hr => ?refused, fun hx => ?noRoute⟩⟩
  case queued =>
    exact hexec.trans (congrArg _ (h.request_auth_accepted
      ⟨fun f => State.routeAuth_queued (s := s.withLane l f) hup hroom hsend⟩))
  case sent =>
    exact hexec.trans (congrArg _ (h.request_auth_accepted
      ⟨fun f => State.routeAuth_sent (s := s.withLane l f) hup htill hhi hsend⟩))
  case full =>
    exact hexec.trans (congrArg _ (h.request_auth_refused
      ⟨fun f => State.routeAuth_full (s := s.withLane l f) hup hfull⟩ (.inl ⟨rfl, rfl⟩) rfl))
  case relayed =>
    exact hexec.trans (congrArg _ (h.request_auth_accepted
      ⟨fun f => State.routeAuth_relayed (s := s.withLane l f) hup hx hsend hroom⟩))
  case refused =>
    exact hexec.trans (congrArg _ (h.request_auth_refused
      ⟨fun f => State.routeAuth_refused (s := s.withLane l f) hup hx hr⟩ (.inl ⟨rfl, rfl⟩) rfl))
  case noRoute =>
    exact hexec.trans (congrArg _ (h.request_auth_refused
      ⟨fun f => State.routeAuth_noRoute (s := s.withLane l f) hup hx⟩ (.inr ⟨rfl, rfl⟩) rfl))

/-- Settles O13: the outcome of an AUTH reaches the pending table, and by it the lane. -/
theorem authFlightsEnd : Obligations.AuthFlightsEnd := by
  refine ⟨fun l f path s hl hf he => ?timeout, fun s p l hl hs hc hp hg ho hlen => ?returned⟩
  case timeout =>
    have held : AMap.get ((s.reach f.due).endAuth l f .timeout).fwd.pendingTable l.val = some ⟨f.count, path⟩ := he
    have ended : exec (.authTimeout l) s = .next (((s.reach f.due).endAuth l f .timeout).withdrawAuth l f.count) := by
      simp [exec, execAuthTimeout, hf, hl]
    rw [ended, State.withdrawAuth_held held]
    cases path <;> rfl
  case returned =>
    have taken : ∀ (c : Instr) (h : State), exec c s = .next (h.pendingOutcome l p.tag (laneReplyOf p)) →
        ((∀ e, AMap.get h.fwd.pendingTable l.val = some e → e.count ≠ p.tag) →
          exec c s = .next ((h.bump .repliesNoEntry).lateReply l)) ∧
        (∀ e, AMap.get h.fwd.pendingTable l.val = some e → e.count = p.tag →
          ((p.status = .data → 1 ≤ p.payload.length ∧ p.payload.length ≤ 512) →
            (∀ a, (h.lane l).flight = some a → a.count = p.tag →
              exec c s = .next ((h.dropPending l).endAuth l a (laneReplyOf p))) ∧
            ((∀ a, (h.lane l).flight = some a → a.count ≠ p.tag) → exec c s = .next ((h.dropPending l).lateReply l))) ∧
          (¬ (p.status = .data → 1 ≤ p.payload.length ∧ p.payload.length ≤ 512) → exec c s = .next (h.lateReply l))) := by
      intro c h hexec
      refine ⟨fun hno => hexec.trans (congrArg _ (State.pendingOutcome_noEntry hno _)), fun e he hn => ?_⟩
      have entry := hexec.trans (congrArg _ (State.pendingOutcome_entry he hn (laneReplyOf p)))
      refine ⟨fun hcar => ?_, fun hcar => ?_⟩
      · have carries := (laneReplyOf_carries p).2 hcar
        rw [if_pos carries] at entry
        exact ⟨fun a ha han => entry.trans (congrArg _ (State.authOutcome_flight ha han carries)),
          fun hlate => entry.trans (congrArg _ (State.authOutcome_late (.inl hlate)))⟩
      · have carries : (laneReplyOf p).carries = false :=
          Bool.eq_false_iff.2 fun hc => hcar ((laneReplyOf_carries p).1 hc)
        rw [if_neg (by simp [carries])] at entry
        exact entry.trans (congrArg _ (State.authOutcome_late (.inr carries)))
    have okay := parcelOk_till hc hp hg hlen
    refine ⟨fun hd => taken _ s ?_, fun f hf hdest hpart => taken _ (s.heardFrom f.src id) ?_⟩
    · simp [exec, execUplinkParcelReceived, hl, hs, okay, hd, ho, State.self, State.deliverBack_lane hp]
    · simp [exec, execRelayReceived, State.receivePlain, State.receive_station hf hdest, hlen, State.takeRelay, okay, hpart, ho,
        State.self, State.deliverBack_lane hp]

/-- Settles O14, by cases on the kind, the terms sets and the cash step. -/
theorem lineAndCashAmounts : Obligations.LineAndCashAmounts := by
  refine ⟨⟨fun r q m => ⟨fun hp => ?current, fun x v hp => ?pending⟩, quantityOk_iff⟩,
    ⟨fun a b m hm h => markedDown_mono hm h, fun r q m hm => ⟨?atMost, fun x v hp => ⟨?atMostPending, lineAmount_lower_price hp hm⟩⟩⟩,
    fun c x hc hx => ?cash⟩
  case current => rw [lineAmount_current hp, baseAmount_eq, markedDown]
  case pending => rw [lineAmount_pending hp, baseAmount_eq, baseAmount_eq, markedDown, markedDown]
  case atMost =>
    cases hp : r.pending with
    | none => exact Nat.le_of_eq (lineAmount_current hp q m)
    | some y => rw [lineAmount_pending (x := y.1) (v := y.2) hp]; exact Nat.min_le_left _ _
  case atMostPending => rw [lineAmount_pending hp]; exact Nat.min_le_right _ _
  case cash =>
    obtain ⟨hdiv, hle, hlt⟩ := amountDue_cash hc x
    exact ⟨hdiv, hle, hlt, rfl, rfl, amountDue_le hc hx⟩

/-- Settles O15: the articles' deals are of different lines, so that their reductions do not exceed the running total. -/
theorem dealsNeverExceedRunningTotal : Obligations.DealsNeverExceedRunningTotal := by
  intro b h
  have hred := h.reduction_le
  refine ⟨?sum, rfl, fun r _ => ⟨fun hk => dealReduction_not_multi hk _, fun hk => ⟨dealReduction_le _ _, fun hp => ?_,
    fun x v hp => ?_⟩⟩⟩
  case sum =>
    simp only [priceTotal]
    omega
  all_goals
    rw [dealReduction_multi hk]
    refine (Nat.sub_sub_self (dealCharge_le _ _ _)).trans ?_
    simp only [dealCharge, hp, min_assoc]
    rfl

end

section
/-! PROOFS. Change records (R2 to R7) and their ways to the price book (R3, R8, R187). -/

namespace Sys2Proof.Machine

open Sys2Proof

variable {s t : State} {r : ChangeRecord} {c : Change} {e : Entry}

/-! ### The checks of a change record (R2) -/

theorem articleKindOf_eq_some (n : Nat) (k : ArticleKind) :
    articleKindOf n = some k ↔ (n = 1 ∧ k = .each) ∨ (n = 2 ∧ k = .weighed) ∨ (n = 3 ∧ k = .multi) := by
  unfold articleKindOf
  split <;> simp_all [eq_comm]

theorem termsInRange_iff (k : ArticleKind) (r : ChangeRecord) :
    termsInRange k r = true ↔ (1 ≤ r.price ∧ r.price ≤ 9999999) ∧
      (k = .multi → (2 ≤ r.groupSize ∧ r.groupSize ≤ 9) ∧ 1 ≤ r.groupPrice ∧ r.groupPrice ≤ 99999999) := by
  cases k <;> simp [termsInRange, inRange_iff]

/-- A record's action, when its codes and terms pass the checks. -/
theorem recordAction_eq_some (r : ChangeRecord) (a : Action) :
    recordAction r = some a ↔ (r.changeCode = 2 ∧ a = .withdraw) ∨
      (r.changeCode = 1 ∧ ∃ k, articleKindOf r.kindCode = some k ∧ termsInRange k r = true ∧ a = .set k (recordTerms k r)) := by
  unfold recordAction
  split
  · next h => simp [h, @eq_comm _ Action.withdraw a]
  split
  · next h =>
    cases hk : articleKindOf r.kindCode with
    | none => simp [h]
    | some k => cases ht : termsInRange k r <;> simp [h, ht, @eq_comm _ (Action.set k (recordTerms k r)) a]
  · next h2 h1 => simp [h1, h2]

theorem recordAction_isSome (r : ChangeRecord) :
    (recordAction r).isSome = true ↔ r.changeCode = 2 ∨ (r.changeCode = 1 ∧ (1 ≤ r.price ∧ r.price ≤ 9999999) ∧
      (r.kindCode = 1 ∨ r.kindCode = 2 ∨
        (r.kindCode = 3 ∧ (2 ≤ r.groupSize ∧ r.groupSize ≤ 9) ∧ (1 ≤ r.groupPrice ∧ r.groupPrice ≤ 99999999)))) := by
  simp only [Option.isSome_iff_exists, recordAction_eq_some, articleKindOf_eq_some, termsInRange_iff]
  constructor
  · rintro ⟨a, ⟨h2, -⟩ | ⟨h1, k, hk, ⟨hp, hg⟩, -⟩⟩
    · exact .inl h2
    · rcases hk with ⟨hk, rfl⟩ | ⟨hk, rfl⟩ | ⟨hk, rfl⟩
      · exact .inr ⟨h1, hp, .inl hk⟩
      · exact .inr ⟨h1, hp, .inr (.inl hk)⟩
      · exact .inr ⟨h1, hp, .inr (.inr ⟨hk, hg rfl⟩)⟩
  · rintro (h2 | ⟨h1, hp, hk | hk | ⟨hk, hg⟩⟩)
    · exact ⟨_, .inl ⟨h2, rfl⟩⟩
    · exact ⟨_, .inr ⟨h1, .each, .inl ⟨hk, rfl⟩, ⟨hp, fun h => by cases h⟩, rfl⟩⟩
    · exact ⟨_, .inr ⟨h1, .weighed, .inr (.inl ⟨hk, rfl⟩), ⟨hp, fun h => by cases h⟩, rfl⟩⟩
    · exact ⟨_, .inr ⟨h1, .multi, .inr (.inr ⟨hk, rfl⟩), ⟨hp, fun _ => hg⟩, rfl⟩⟩

theorem recordChange_eq_some (r : ChangeRecord) (c : Change) :
    recordChange r = some c ↔ (1 ≤ r.article ∧ r.article ≤ 9999999999999) ∧ (1 ≤ r.version ∧ r.version ≤ 4294967295) ∧
      r.effective.sec ≤ 86399 ∧ ∃ a, recordAction r = some a ∧
        c = { version := r.version, action := a, effective := r.effective, fileSerial := r.fileSerial } := by
  have hsec : decide (r.effective.sec < Config.daySeconds) = true ↔ r.effective.sec ≤ 86399 := by
    rw [decide_eq_true_iff]
    exact Nat.lt_succ_iff
  unfold recordChange
  split
  · next h =>
    rw [Bool.and_eq_true, Bool.and_eq_true, inRange_iff, inRange_iff, hsec] at h
    obtain ⟨⟨ha, hv⟩, hs⟩ := h
    rw [Option.map_eq_some_iff]
    exact ⟨fun ⟨a, hact, hc⟩ => ⟨ha, hv, hs, a, hact, hc.symm⟩, fun ⟨_, _, _, a, hact, hc⟩ => ⟨a, hact, hc.symm⟩⟩
  · next h =>
    rw [Bool.and_eq_true, Bool.and_eq_true, inRange_iff, inRange_iff, hsec] at h
    simp only [reduceCtorEq, false_iff]
    rintro ⟨ha, hv, hs, -⟩
    exact h ⟨⟨ha, hv⟩, hs⟩

theorem recordChange_isSome (r : ChangeRecord) :
    (recordChange r).isSome = true ↔ (1 ≤ r.article ∧ r.article ≤ 9999999999999) ∧
      (1 ≤ r.version ∧ r.version ≤ 4294967295) ∧ r.effective.sec ≤ 86399 ∧ (recordAction r).isSome = true := by
  simp only [Option.isSome_iff_exists, recordChange_eq_some]
  constructor
  · rintro ⟨c, ha, hv, hs, a, hact, -⟩
    exact ⟨ha, hv, hs, a, hact⟩
  · rintro ⟨ha, hv, hs, a, hact⟩
    exact ⟨_, ha, hv, hs, a, hact, rfl⟩

/-- A change carries the SET of its record's kind and terms. -/
theorem recordAction_set {a : Action} {k : ArticleKind} (h : recordAction r = some a) (h1 : r.changeCode = 1)
    (hk : articleKindOf r.kindCode = some k) : a = .set k (recordTerms k r) := by
  rcases (recordAction_eq_some r a).1 h with ⟨h2, -⟩ | ⟨-, k', hk', -, rfl⟩
  · omega
  · cases hk.symm.trans hk'
    rfl

theorem recordAction_withdraw {a : Action} (h : recordAction r = some a) (h2 : r.changeCode = 2) : a = .withdraw := by
  rcases (recordAction_eq_some r a).1 h with ⟨-, rfl⟩ | ⟨h1, -⟩
  · rfl
  · omega

/-! ### A change record in the book (R4 to R7) -/

theorem State.applyRecord_bad (h : recordChange r = none) : s.applyRecord r = (.badRecord, s.bump .badRecords) := by
  simp [State.applyRecord, h]

theorem State.applyRecord_absent_withdraw (h : recordChange r = some c) (he : s.entry r.article = none)
    (ha : c.action = .withdraw) : s.applyRecord r = (.stale, s.bump .recordsStale) := by
  simp [State.applyRecord, h, he, ha]

section Announced
variable {k : ArticleKind} {x : Terms} (h : recordChange r = some c) (he : s.entry r.article = none)
  (ha : c.action = .set k x)
include h he ha

theorem State.applyRecord_announced (hroom : s.book.entries.length < 65536) :
    s.applyRecord r = (.applied, (s.putEntry r.article (Entry.announced k c)).bump .recordsApplied) := by
  simp [State.applyRecord, h, he, ha, Config.bookCapacity, hroom]

theorem State.applyRecord_full (hfull : 65536 ≤ s.book.entries.length) (hn : s.book.fullNoted = true) :
    s.applyRecord r = (.bookFull, s.bump .fullBookRefused) := by
  simp [State.applyRecord, h, he, ha, Config.bookCapacity, Nat.not_lt.2 hfull, hn]

theorem State.applyRecord_full_noted (hfull : 65536 ≤ s.book.entries.length) (hn : s.book.fullNoted = false) :
    s.applyRecord r = (.bookFull,
      (((s.bump .fullBookRefused).recordAlert .bookFull .warn (.article r.article) .nothing).withBook fun b =>
        { b with fullNoted := true })) := by
  simp [State.applyRecord, h, he, ha, Config.bookCapacity, Nat.not_lt.2 hfull, hn]

end Announced

/-- The kind check: a SET of another kind than that of the terms on sale, with no withdrawal in progress (R2). -/
theorem Entry.kindClash_iff (e : Entry) (c : Change) :
    e.kindClash c = true ↔ (∃ k t, c.action = .set k t ∧ k ≠ e.kind) ∧ e.current ≠ none ∧
      ¬ ∃ g, e.phase = .changing g ∧ g.pending.action = .withdraw := by
  have hw : e.withdrawing = true ↔ ∃ g, e.phase = .changing g ∧ g.pending.action = .withdraw := by
    unfold Entry.withdrawing
    split <;> simp_all
  unfold Entry.kindClash
  split
  · next ha => simp [ha]
  · next k x ha =>
    rw [← hw]
    simp only [Bool.and_eq_true, Option.isSome_iff_ne_none, Bool.not_eq_true', bne_iff_ne, ha, Action.set.injEq]
    constructor
    · rintro ⟨⟨hcur, hno⟩, hk⟩
      exact ⟨⟨k, x, ⟨rfl, rfl⟩, hk⟩, hcur, by simp [hno]⟩
    · rintro ⟨⟨_, _, ⟨rfl, -⟩, hk⟩, hcur, hno⟩
      exact ⟨⟨hcur, by simpa using hno⟩, hk⟩

section Held
variable (h : recordChange r = some c) (he : s.entry r.article = some e)
include h he

theorem State.applyRecord_clash (hk : e.kindClash c = true) : s.applyRecord r = (.kindMismatch, s.bump .badRecords) := by
  simp [State.applyRecord, h, he, hk]

theorem State.applyRecord_stale (hk : ¬ e.kindClash c = true) (hv : c.version ≤ e.highest) :
    s.applyRecord r = (.stale, s.bump .recordsStale) := by
  simp [State.applyRecord, h, he, hk, hv]

theorem State.applyRecord_taken (hk : ¬ e.kindClash c = true) (hv : e.highest < c.version) :
    s.applyRecord r = (.applied, (s.putEntry r.article (e.take c)).bump .recordsApplied) := by
  simp [State.applyRecord, h, he, hk, Nat.not_le.2 hv]

end Held

theorem Entry.take_steady (h : e.phase = .steady) (c : Change) : e.take c = { e with phase := .waiting c } := by
  simp [Entry.take, h]

theorem Entry.take_changing {g : Changeover} (h : e.phase = .changing g) (c : Change) :
    e.take c = { e with phase := .changing { g with queued := some c } } := by
  simp [Entry.take, h]

theorem Entry.take_waiting {p : Change} (h : e.phase = .waiting p) (c : Change) :
    e.take c = { e with
      phase := .waiting c
      kind := match c.action with | .set k _ => if e.current = none then k else e.kind | .withdraw => e.kind } := by
  unfold Entry.take
  rw [h]
  cases ha : c.action with
  | withdraw => rfl
  | set k x => cases e.current <;> rfl

/-- A record that reaches an entry leaves its terms on sale (R6, R7). -/
theorem Entry.take_current (e : Entry) (c : Change) :
    (e.take c).current = e.current ∧ (e.take c).version = e.version ∧ (e.take c).bound = e.bound := by
  cases hp : e.phase with
  | steady => rw [Entry.take_steady hp]; exact ⟨rfl, rfl, rfl⟩
  | waiting p => rw [Entry.take_waiting hp]; exact ⟨rfl, rfl, rfl⟩
  | changing g => rw [Entry.take_changing hp]; exact ⟨rfl, rfl, rfl⟩

/-! ### Frames of records and the release of a file (R3, R8, R187) -/

theorem frameRecordsOk_of {rs : List ChangeRecord} (hlo : 1 ≤ rs.length) (hhi : rs.length ≤ 32)
    (h : ∀ r ∈ rs, r.changeCode = 2 ∨ (r.changeCode = 1 ∧ 1 ≤ r.kindCode ∧ r.kindCode ≤ 3)) : frameRecordsOk rs = true := by
  have codes : rs.all recordCodesOk = true := List.all_eq_true.2 fun r hr => by
    rcases h r hr with h2 | ⟨h1, hlo, hhi⟩
    · simp [recordCodesOk, h2]
    · have : r.kindCode = 1 ∨ r.kindCode = 2 ∨ r.kindCode = 3 := by omega
      rcases this with hk | hk | hk <;> simp [recordCodesOk, h1, hk, articleKindOf]
  simp [frameRecordsOk, codes, (inRange_iff rs.length 32).2 ⟨hlo, hhi⟩]

theorem State.count_bump_ne {a b : Count} (s : State) (h : b ≠ a) : (s.bump a).count b = s.count b := by
  rw [State.count_bump, if_neg h]

/-- Recording an alert raises no count but those of the alert list (R204). -/
theorem State.count_recordAlert (s : State) (k : AlertKind) (v : Severity) (x : Subject) (d : Detail) {a : Count}
    (h1 : a ≠ .ackedAlertsRemoved) (h2 : a ≠ .alertOverflow) (h3 : a ≠ .alertsRecorded) :
    (s.recordAlert k v x d).count a = s.count a := by
  have removed : ∀ b : Bool, (if b then (s.bump (if s.alerts.list.any (·.acked) then .ackedAlertsRemoved
      else .alertOverflow)) else s).count a = s.count a := fun b => by
    cases b
    · rfl
    · simp only [if_true]
      split
      · exact s.count_bump_ne h1
      · exact s.count_bump_ne h2
  exact (State.count_bump_ne _ h3).trans (removed _)

theorem State.count_applyRecord (s : State) (r : ChangeRecord) {a : Count}
    (h : a ∉ [Count.badRecords, .recordsStale, .recordsApplied, .fullBookRefused, .ackedAlertsRemoved, .alertOverflow,
      .alertsRecorded]) : (s.applyRecord r).2.count a = s.count a := by
  simp only [List.mem_cons, List.not_mem_nil, or_false, not_or] at h
  obtain ⟨hbad, hstale, happlied, hfull, hacked, hover, hrecorded⟩ := h
  unfold State.applyRecord
  split
  · exact s.count_bump_ne hbad
  split
  · split
    · exact s.count_bump_ne hbad
    split
    · exact s.count_bump_ne hstale
    · exact State.count_bump_ne _ happlied
  · split
    · exact s.count_bump_ne hstale
    split
    · exact State.count_bump_ne _ happlied
    · dsimp only
      split
      · exact s.count_bump_ne hfull
      · refine Eq.trans ?_ (s.count_bump_ne hfull)
        exact State.count_recordAlert (s.bump .fullBookRefused) .bookFull .warn (.article r.article) .nothing hacked hover hrecorded

/-- The last record of a file is followed by its release (R187). -/
theorem State.releaseComplete_spec (s : State) :
    s.releaseComplete.book = { s.book with cursor := none } ∧
    s.releaseComplete.link = { s.link with held := max s.link.held s.staging.serial } ∧
    (∀ c, s.releaseComplete.count c = (s.bump .filesReleased).count c) ∧
    (s.staging.share = none → s.releaseComplete.staging = Staging.empty) ∧
    (s.staging.share ≠ none → s.releaseComplete.staging = { s.staging with released := true }) := by
  have freed : ∀ u : State, u.freeStaging.book = u.book ∧ u.freeStaging.link = u.link ∧ u.freeStaging.counts = u.counts :=
    fun u => by unfold State.freeStaging; split <;> exact ⟨rfl, rfl, rfl⟩
  obtain ⟨hbook, hlink, hcounts⟩ := freed ((((s.withBook fun b => { b with cursor := none }).withLink fun l =>
    { l with held := max l.held s.staging.serial }).bump .filesReleased).withStaging fun g => { g with released := true })
  refine ⟨hbook, hlink, fun c => ?_, fun hs => ?_, fun hs => ?_⟩
  · unfold State.count State.releaseComplete
    dsimp only
    rw [hcounts]
    rfl
  · simp [State.releaseComplete, State.freeStaging, hs]
  · have : s.staging.share.isNone = false := Option.isNone_eq_false_iff.2 (Option.isSome_iff_ne_none.2 hs)
    simp [State.releaseComplete, State.freeStaging, this]

end Sys2Proof.Machine

/-! ### The statements -/

open Sys2Proof Sys2Proof.Machine

/-- Settles O16: the checks field by field, and what a record does to the book by the state of its article's entry. -/
theorem changeRecordsAreCheckedAndApplied : Obligations.ChangeRecordsAreCheckedAndApplied := by
  refine ⟨fun r => ?checks, fun s r h => State.applyRecord_bad h, fun r c h => ?carries, fun s r c h =>
    ⟨fun he => ⟨fun ha => State.applyRecord_absent_withdraw h he ha, fun k x ha hroom => State.applyRecord_announced h he ha hroom,
      fun k x ha hfull hn => State.applyRecord_full h he ha hfull hn,
      fun k x ha hfull hn => State.applyRecord_full_noted h he ha hfull hn⟩,
    fun e he => ⟨fun hk => State.applyRecord_clash h he ((Entry.kindClash_iff e c).2 hk),
      fun hk hv => State.applyRecord_stale h he (fun hc => hk ((Entry.kindClash_iff e c).1 hc)) hv, fun hk hv => ?taken⟩⟩⟩
  case checks => rw [recordChange_isSome, recordAction_isSome]
  case carries =>
    obtain ⟨-, -, -, a, hact, rfl⟩ := (recordChange_eq_some r c).1 h
    exact ⟨rfl, rfl, rfl, fun h2 => recordAction_withdraw hact h2, fun h1 =>
      ⟨fun hk => recordAction_set hact h1 (k := .each) (by rw [hk]; rfl),
        fun hk => recordAction_set hact h1 (k := .weighed) (by rw [hk]; rfl),
        fun hk => recordAction_set hact h1 (k := .multi) (by rw [hk]; rfl)⟩⟩
  case taken =>
    obtain ⟨hcur, hver, hbound⟩ := e.take_current c
    refine ⟨e.take c, State.applyRecord_taken h he (fun hc => hk ((Entry.kindClash_iff e c).1 hc)) hv, hcur, hver, hbound,
      fun hp => ?_, fun p hp => ?_, fun g hp => ?_⟩
    · rw [Entry.take_steady hp]; exact ⟨rfl, rfl⟩
    · rw [Entry.take_waiting hp]; exact ⟨rfl, rfl⟩
    · rw [Entry.take_changing hp]; exact ⟨rfl, rfl⟩

/-- Settles O17: a frame's records are applied in a fold, and a release record by record. -/
theorem recordsReachTheBook : Obligations.RecordsReachTheBook := by
  refine ⟨fun s f i rs hf hd hlo hhi hcodes => ?frames, fun s i r hl hcur hr => ⟨fun hmore => ?more, fun hlast => ?last⟩⟩
  case frames =>
    have okay := frameRecordsOk_of hlo hhi hcodes
    constructor
    · simp [exec, execPriceChangeReceived, State.receivePlain, State.receive_all hf hd, okay, State.applyRecords]
    · simp [exec, execFilePriceChangeReceived, State.receivePlain, State.receive_all hf hd, okay, State.applyRecords]
  case more => simp [exec, execReleaseRecord, hcur, hl, hr, Nat.not_le.2 hmore]
  case last =>
    have released : exec .releaseRecord s = .next (s.applyRecord r).2.releaseComplete := by
      simp [exec, execReleaseRecord, hcur, hl, hr, hlast]
    have hlink : (s.applyRecord r).2.link = s.link := s.applyRecord_keeps r .link (by decide)
    have hstaging : (s.applyRecord r).2.staging = s.staging := s.applyRecord_keeps r .staging (by decide)
    obtain ⟨book, link, counts, unshared, shared⟩ := (s.applyRecord r).2.releaseComplete_spec
    rw [hlink, hstaging] at link
    rw [hstaging] at unshared shared
    refine ⟨_, released, by rw [book], by rw [book], link, ?_, unshared, shared⟩
    rw [counts, State.count_bump, if_pos rfl, State.count_applyRecord s r (by decide)]

end

section
/-! PROOFS. The beacon timer (R134), arbitration (R125, R126), repeated OFFICE commands (R209, R211) and SPOT-PRICE (R3). -/

namespace Sys2Proof.Machine

open Sys2Proof

variable {s t : State}

/-! ### Beacons (R134) -/

/-- A queued beacon that has had no attempt, which a new one replaces (R134). -/
def Frame.fresh (f : Frame) : Prop := f.purpose = .beacon ∧ f.attempts = 0

theorem replaceBeacon_none {new : Frame} {q : List Frame} (h : ∀ f ∈ q, ¬ f.fresh) : replaceBeacon new q = none := by
  induction q with
  | nil => rfl
  | cons f q ih =>
    unfold replaceBeacon
    rw [if_neg (show ¬(f.purpose = .beacon ∧ f.attempts = 0) from h f List.mem_cons_self), ih fun g hg => h g (List.mem_cons_of_mem _ hg)]
    rfl

theorem replaceBeacon_first {new b : Frame} {before rest : List Frame} (h : ∀ f ∈ before, ¬ f.fresh) (hb : b.fresh) :
    replaceBeacon new (before ++ b :: rest) = some (before ++ new :: rest) := by
  induction before with
  | nil => exact if_pos hb
  | cons f q ih =>
    have stale : ¬(f.purpose = .beacon ∧ f.attempts = 0) := h f List.mem_cons_self
    rw [List.cons_append, replaceBeacon, if_neg stale, ih fun g hg => h g (List.mem_cons_of_mem _ hg)]
    rfl

theorem Trunk.replacedBeacon_none {x : Trunk} {new : Frame} (h : ∀ f ∈ x.urgent, ¬ f.fresh) :
    x.replacedBeacon new = none := by
  unfold Trunk.replacedBeacon
  split
  · rw [replaceBeacon_none fun f hf => h f (List.mem_of_mem_drop hf)]
    rfl
  · exact replaceBeacon_none h

theorem Trunk.replacedBeacon_first {x : Trunk} {new b : Frame} {before rest : List Frame}
    (hq : x.urgent = before ++ b :: rest) (h : ∀ f ∈ before, ¬ f.fresh) (hb : b.fresh) (hair : x.inAir ≠ some .urgent) :
    x.replacedBeacon new = some (before ++ new :: rest) := by
  rw [Trunk.replacedBeacon, if_neg hair, hq, replaceBeacon_first h hb]

/-- The frame that carries this station's BEACON (R134). -/
def State.beaconFrame (s : State) : Frame := Frame.new none (.beacon s.ownBeaconFields) .beacon

theorem State.queueBeacon_replaced {q : List Frame} (h : s.trunk.replacedBeacon s.beaconFrame = some q) :
    s.queueBeacon = (s.withTrunk fun t => { t with urgent := q }).bump .beaconsReplaced := by
  simp only [State.beaconFrame] at h
  simp [State.queueBeacon, h]

theorem State.queueBeacon_joins (h : ∀ f ∈ s.trunk.urgent, ¬ f.fresh) (hc : s.canSend = true)
    (hroom : s.trunk.urgent.length < 8) :
    s.queueBeacon = s.withTrunk fun t => { t with urgent := t.urgent ++ [s.beaconFrame] } := by
  have none := Trunk.replacedBeacon_none (new := s.beaconFrame) h
  have queued := State.offer_urgent_queued (f := s.beaconFrame) rfl hc hroom
  simp only [State.beaconFrame] at none queued
  simp only [State.queueBeacon, none, queued, if_true]
  rfl

theorem State.queueBeacon_missed (h : ∀ f ∈ s.trunk.urgent, ¬ f.fresh) (hfull : 8 ≤ s.trunk.urgent.length) :
    s.queueBeacon = (s.bump .notTakenUrgent).bump .beaconsMissed := by
  have none := Trunk.replacedBeacon_none (new := s.beaconFrame) h
  have refused := State.offer_urgent_refused (f := s.beaconFrame) rfl rfl (.inr hfull)
  simp only [State.beaconFrame] at none refused
  simp [State.queueBeacon, none, refused]

theorem exec_beaconTimerExpiry {due : Nat} (hl : s.live = true) (hc : s.canSend = true)
    (ht : s.trunk.beaconTimer = some due) :
    exec .beaconTimerExpiry s = .next
      ({ s with now := max s.now due
                trunk := { s.trunk with beaconTimer := some (due + Config.seconds 1) } } : State).queueBeacon := by
  simp [exec, execBeaconTimerExpiry, ht, hl, hc]
  rfl

/-! ### Arbitration (R125, R126) -/

theorem headerValue_lt (h : Header) (c : TrunkClass) (n : Station) :
    headerValue h < headerValue ⟨c, n⟩ ↔ classCode h.cls < classCode c ∨ (h.cls = c ∧ h.src < n) := by
  obtain ⟨d, m⟩ := h
  have hm := m.isLt
  have hn := n.isLt
  simp only [headerValue, Fin.lt_def]
  cases d <;> cases c <;> simp [classCode] <;> omega

/-- The frame in front of the highest queue that holds one is offered (R126). -/
theorem Trunk.offered_of {x : Trunk} {c : TrunkClass} {f : Frame}
    (h : (c = .urgent ∧ x.urgent.head? = some f) ∨ (c = .notice ∧ x.urgent = [] ∧ x.notice.head? = some f) ∨
      (c = .bulk ∧ x.urgent = [] ∧ x.notice = [] ∧ x.bulk.head? = some f)) : x.offered = some (c, f) := by
  unfold Trunk.offered
  rcases h with ⟨rfl, hf⟩ | ⟨rfl, hu, hf⟩ | ⟨rfl, hu, hn, hf⟩
  · obtain ⟨q, hq⟩ := List.head?_eq_some_iff.1 hf
    simp [hq]
  · obtain ⟨q, hq⟩ := List.head?_eq_some_iff.1 hf
    simp [hu, hq]
  · obtain ⟨q, hq⟩ := List.head?_eq_some_iff.1 hf
    simp [hu, hn, hq]

/-! ### OFFICE commands that are not acted on (R209, R211) -/

/-- An OFFICE command of any kind is received and handled by the command memory, with an act of its own. -/
theorem exec_of_officeCommand {c : Instr} {h : OfficeHead} {k : Nat} (hc : officeCommand c = some (h, k)) :
    ∃ b act, ∀ s, exec c s = .next (s.receivePlain ⟨h.src, h.dest⟩ false true fun s => s.command h k b act) := by
  cases c <;> cases hc
  case restart => exact ⟨true, State.actRestart, fun _ => rfl⟩
  all_goals exact ⟨false, _, fun _ => rfl⟩

theorem State.command_restarting (h : s.commands.restarting = true) (x : OfficeHead) (k : Nat) (b : Bool)
    (act : State → OfficeOutcome × State) : s.command x k b act = s.bump .commandsDiscarded := by
  simp [State.command, h]

theorem State.command_repeated (h : s.commands.restarting = false) {x : OfficeHead} {r : OfficeReply}
    (hr : s.commands.places.get x.src = some r) (ht : r.tag = x.tag) (k : Nat) (b : Bool)
    (act : State → OfficeOutcome × State) :
    s.command x k b act = (s.bump .commandsRepeated).giveReply x.src r false := by
  simp [State.command, h, CommandMemory.savedFor, hr, ht]

/-! ### SPOT-PRICE (R3) -/

theorem State.offer_notice_queued {f : Frame} (hc : f.body.trunkClass = .notice) (hsend : s.canSend = true)
    (hroom : s.trunk.notice.length < 64) :
    s.offer f = (.queued, s.withTrunk fun x => { x with notice := x.notice ++ [f] }) := by
  simp [State.offer, hc, hsend, Trunk.queue, Trunk.setQueue, Config.queueCapacity, hroom, State.withTrunk]

section Spot
variable {r : ChangeRecord}

theorem State.actSpot_file (h : r.fileSerial ≠ 0) : s.actSpot r = (.refused .badRecord, s.bump .badRecords) := by
  simp [State.actSpot, h]

variable (h : r.fileSerial = 0)
include h

theorem State.actSpot_applied {e : Entry} (ha : s.applyRecord r = (.applied, t)) (he : t.entry r.article = some e) :
    s.actSpot r = (.done (.entryState e.state), t.send (Frame.new none (.priceChange 0 0 [r]) .spot)) := by
  simp [State.actSpot, h, ha, he]

theorem State.actSpot_stale (ha : s.applyRecord r = (.stale, t)) : s.actSpot r = (.refused .stale, t) := by
  simp [State.actSpot, h, ha]

theorem State.actSpot_bookFull (ha : s.applyRecord r = (.bookFull, t)) : s.actSpot r = (.refused .bookFull, t) := by
  simp [State.actSpot, h, ha]

theorem State.actSpot_badRecord (ha : s.applyRecord r = (.badRecord, t)) : s.actSpot r = (.refused .badRecord, t) := by
  simp [State.actSpot, h, ha]

theorem State.actSpot_kindMismatch (ha : s.applyRecord r = (.kindMismatch, t)) :
    s.actSpot r = (.refused .kindMismatch, t) := by
  simp [State.actSpot, h, ha]

end Spot

/-- An OFFICE command that is obeyed comes to its act's state with its outcome saved and handed over. -/
theorem State.Obeys.exec_office {h : OfficeHead} (ob : s.Obeys h) {kind : Nat} {act : State → OfficeOutcome × State}
    {o : OfficeOutcome} (ha : act (s.heardFrom h.src id) = (o, t)) : s.office h kind act = t.replied h kind o := by
  rw [State.office_obeyed ob, ha]

end Sys2Proof.Machine

/-! ### The statements -/

open Sys2Proof Sys2Proof.Machine

/-- Settles O30: the first fresh beacon of the URGENT queue is replaced, and without one the new beacon is handed over. -/
theorem beaconIsFormedEachSecond : Obligations.BeaconIsFormedEachSecond := by
  intro s due hl hc ht
  have fields : s.uplinkOffer = if s.fwd.up = true ∧ s.unit.mode ≠ .distress then s.settings.uplinkRate else 0 := by
    simp [State.uplinkOffer]
  rw [exec_beaconTimerExpiry hl hc ht, ← fields]
  refine ⟨fun hno => ⟨fun hroom => ?joins, fun hfull => ?missed⟩, fun before b rest hq hbefore hb hair => ?replaces⟩
  case joins => exact congrArg _ (State.queueBeacon_joins hno hc hroom)
  case missed => exact congrArg _ (State.queueBeacon_missed hno hfull)
  case replaces => exact congrArg _ (State.queueBeacon_replaced (Trunk.replacedBeacon_first hq hbefore hb hair))

/-- Settles O33: the header's number orders the headers by class and then by station. -/
theorem arbitrationIsWonByTheLowest : Obligations.ArbitrationIsWonByTheLowest := by
  intro s others hl hc hair
  have offers : ∀ c f, s.trunk.offered = some (c, f) → exec (.trunkFrameBegin others) s = .next
      (if others.any fun h => decide (headerValue h < headerValue ⟨c, s.settings.station⟩) then s.bump .arbitrationLosses
       else { s with trunk := { s.trunk with inAir := some c }, out := s.out ++ [.trunkFrame s.settings.station f] }) := by
    intro c f hf
    simp [exec, execTrunkFrameBegin, hl, hc, hair, hf, State.self]
    rfl
  refine ⟨fun c f hf => ⟨fun hno => ?wins, fun hsome => ?loses⟩, fun hu hn hb => ?idle⟩
  case wins =>
    rw [offers c f (Trunk.offered_of hf), if_neg]
    rw [List.any_eq_true]
    rintro ⟨h, hh, hlt⟩
    exact hno h hh ((headerValue_lt h c _).1 (of_decide_eq_true hlt))
  case loses =>
    obtain ⟨h, hh, hb⟩ := hsome
    rw [offers c f (Trunk.offered_of hf), if_pos]
    exact List.any_eq_true.2 ⟨h, hh, decide_eq_true ((headerValue_lt h c _).2 hb)⟩
  case idle => simp [exec, execTrunkFrameBegin, hl, hc, hair, Trunk.offered, hu, hn, hb]

/-- Settles O51: the command memory answers before any command's own act. -/
theorem repeatedCommandsAreNotActedOn : Obligations.RepeatedCommandsAreNotActedOn := by
  intro c s h k hcmd hears hdest
  obtain ⟨b, act, hexec⟩ := exec_of_officeCommand hcmd
  have received := State.receive_station (f := ⟨h.src, h.dest⟩) hears hdest true id fun s => s.command h k b act
  rw [hexec, State.receivePlain, received]
  refine ⟨fun hr => ?_, fun r hr hp ht => ?_⟩
  · rw [if_pos rfl, State.command_restarting (by simpa using hr)]
  · rw [if_pos rfl, State.command_repeated (by simpa using hr) (by simpa using hp) ht]

/-- Settles O52: the record's fate is `applyRecord`'s, and the broadcast goes before the reply. -/
theorem spotPriceIsAppliedAndBroadcast : Obligations.SpotPriceIsAppliedAndBroadcast := by
  intro s h r ob
  refine ⟨fun hf => congrArg _ (ob.exec_office (State.actSpot_file hf)), fun hf t =>
    ⟨fun ha hsend hroom e he => ?applied, fun ha => congrArg _ (ob.exec_office (State.actSpot_stale hf ha)),
      fun ha => congrArg _ (ob.exec_office (State.actSpot_bookFull hf ha)),
      fun ha => congrArg _ (ob.exec_office (State.actSpot_badRecord hf ha)),
      fun ha => congrArg _ (ob.exec_office (State.actSpot_kindMismatch hf ha))⟩⟩
  case applied =>
    have sent : t.send (Frame.new none (.priceChange 0 0 [r]) .spot) = _ :=
      congrArg Prod.snd (State.offer_notice_queued rfl hsend hroom)
    exact congrArg _ (ob.exec_office ((State.actSpot_applied hf ha he).trans (by rw [sent]; rfl)))

end

section
/-! PROOFS. What a received frame does to its sender's slot (R127, R131, R135), the judgements of the radio (R98, R103,
R112), the store clock and the trading mode (R190 to R195), and the OFFICE commands on mode, session and alerts. -/

namespace Sys2Proof.Machine

open Sys2Proof

variable {s t : State}

/-! ### The sender's slot (R135) -/

theorem vector_get_set {α : Type} {n : Nat} (v : Vector α n) (i j : Fin n) (x : α) :
    (v.set i.val x i.isLt).get j = if j = i then x else v.get j := by
  by_cases h : j = i
  · subst h
    simp [Vector.get_eq_getElem]
  · have hne : i.val ≠ j.val := fun e => h (Fin.ext e.symm)
    simp [Vector.get_eq_getElem, h, hne]

/-- A good frame changes its sender's slot and no other (R135). -/
theorem State.hear_peer (s : State) (n : Station) (u : Peer → Peer) (m : Station) :
    (s.hear n u).peer m =
      if m = n then u { s.peer n with state := .alive, timer := some (s.now + Config.seconds 4) } else s.peer m := by
  have judged : ∀ x : State, x.judgeReference.judgeHolder.trunk = x.trunk := fun x =>
    (x.judgeReference.judgeHolder_keeps .trunk (by decide)).trans (x.judgeReference_keeps .trunk (by decide))
  have placed : (s.hear n u).trunk =
      (s.withPeer n fun _ => u { s.peer n with state := .alive, timer := some (s.now + Config.seconds 4) }).trunk := by
    unfold State.hear
    dsimp only
    split
    · exact judged _
    · rfl
  simp only [State.peer, placed, State.withPeer_trunk]
  exact vector_get_set _ _ _ _

theorem State.assertTaken_peer (s : State) (m : Station) : s.assertTaken.peer m = s.peer m := by
  simp only [State.peer, show s.assertTaken.trunk = s.trunk from s.assertTaken_keeps .trunk (by decide)]

theorem State.heardFrom_peer (s : State) (n : Station) (u : Peer → Peer) (m : Station) :
    (s.heardFrom n u).peer m =
      if m = n then u { s.peer n with state := .alive, timer := some (s.now + Config.seconds 4) } else s.peer m :=
  (State.assertTaken_peer _ m).trans (s.hear_peer n u m)

/-! ### Frames received and not delivered (R127, R131, R132) -/

/-- A delivered frame of this station's own number is counted and goes no further (R131 step 3). -/
theorem exec_deliveredFrom_own {c : Instr} (hc : deliveredFrom c = some s.settings.station) (hl : s.live = true)
    (hs : s.serving = true) : exec c s = .next (s.bump .ownNumberFrames) := by
  rcases hoc : officeCommand c with _ | ⟨h, k⟩
  · cases c <;> cases hoc <;> simp only [deliveredFrom, officeCommand, Option.map_none, Option.some.injEq, reduceCtorEq] at hc
    all_goals exact congrArg _ (State.receive_own hl hs hc _ _ _ _)
  · obtain ⟨b, act, hexec⟩ := exec_of_officeCommand hoc
    have hsrc : h.src = s.settings.station := by
      cases c <;> cases hoc <;> exact Option.some.inj hc
    rw [hexec, State.receivePlain, State.receive_own (f := ⟨h.src, h.dest⟩) hl hs hsrc]

variable {f : FrameHead}

theorem exec_beaconReceived_other (h : s.Hears f.src) (hd : f.dest = .all) (b : Beacon) :
    exec (.beaconReceived f b) s = .next (s.heardFrom f.src (Peer.takeBeacon b)) := by
  have hr := State.receive_all h hd true (Peer.takeBeacon b) id
  simp only [exec, execBeaconReceived, h.live, h.serving, h.other, State.self, beq_iff_eq, Bool.and_eq_true, and_false, if_false, hr, if_true, id]

theorem exec_trunkFrameOtherDest_station {n : Station} (h : s.Hears f.src) (hd : f.dest = .station n) (x : Overheard) :
    exec (.trunkFrameOtherDest f x) s = .next (s.hear f.src (slotUpdate x)) := by
  simp [exec, execTrunkFrameOtherDest, h.live, h.serving, h.other, hd]

theorem exec_trunkFrameOtherDest_nobody {n : Nat} (h : s.Hears f.src) (hd : f.dest = .nobody n) (x : Overheard) :
    exec (.trunkFrameOtherDest f x) s = .next ((s.hear f.src (slotUpdate x)).bump .malformedFrames) := by
  simp [exec, execTrunkFrameOtherDest, h.live, h.serving, h.other, hd]

/-- A malformed frame for this part, or for ALL, is counted once its sender's slot has been updated (R131). -/
theorem exec_malformedFrameReceived_other (h : s.Hears f.src) (hd : f.dest = .all ∨ f.dest = .station s.settings.station)
    (k : MalformedKind) :
    exec (.malformedFrameReceived ⟨f.src, f.dest, k⟩) s =
      .next ((s.heardFrom f.src (malformedUpdate k)).bump .malformedFrames) := by
  have hs : (s.hear f.src (malformedUpdate k)).self = s.settings.station := by
    simp only [State.self, State.hear_settings]
  have received : s.receive ⟨f.src, f.dest⟩ true false (malformedUpdate k) id =
      (s.heardFrom f.src (malformedUpdate k)).bump .malformedFrames := by
    rcases hd with hd | hd <;> simp [State.receive, h.live, h.serving, h.other, hd, hs, State.heardFrom]
  simp only [exec, execMalformedFrameReceived, h.live, h.serving, State.self, beq_iff_eq, Bool.and_eq_true, h.other, and_false,
    false_and, if_false, received]

/-! ### The reference, the shelf floor and the smoothed level (R98, R103, R112) -/

theorem clampLevel_range (x : Int) : -480 ≤ clampLevel x ∧ clampLevel x ≤ -80 := by
  unfold clampLevel
  omega

theorem clampLevel_of_range {x : Int} (hlo : -480 ≤ x) (hhi : x ≤ -80) : clampLevel x = x := by
  unfold clampLevel
  omega

theorem smooth_range (old : Option Int) (x : Int) : -480 ≤ smooth old x ∧ smooth old x ≤ -80 := by
  cases old <;> exact clampLevel_range _

/-- A quarter of a difference, truncated toward zero, lies between zero and the difference. -/
theorem tdiv_four_between (d : Int) :
    (0 ≤ d → 0 ≤ d.tdiv 4 ∧ d.tdiv 4 ≤ d) ∧ (d ≤ 0 → d ≤ d.tdiv 4 ∧ d.tdiv 4 ≤ 0) := by
  refine ⟨fun h => ?_, fun h => ?_⟩
  · rw [Int.tdiv_eq_ediv_of_nonneg h]
    omega
  · have hneg : (-d).tdiv 4 = -(d.tdiv 4) := Int.neg_tdiv ..
    have hpos : (-d).tdiv 4 = (-d) / 4 := Int.tdiv_eq_ediv_of_nonneg (by omega)
    omega

/-- Within the range of levels a sample moves the level a quarter of the way to it (R112). -/
theorem smooth_some {x y : Int} (hx : -480 ≤ x) (hx' : x ≤ -80) (hy : -480 ≤ y) (hy' : y ≤ -80) :
    smooth (some y) x = y + (x - y).tdiv 4 := by
  have between := tdiv_four_between (x - y)
  simp only [smooth, clampLevel_of_range hx hx']
  exact clampLevel_of_range (by omega) (by omega)

/-- The station may be the reference (R103). -/
def State.Candidate (s : State) (n : Station) : Prop :=
  (n = s.self ∧ s.settings.labelService = true ∧ (s.part = .listening ∨ s.part = .running)) ∨
    (n ≠ s.self ∧ (s.peer n).state = .alive ∧ (s.peer n).kind = some .controller ∧ (s.peer n).labelService = true)

theorem State.candidate_iff (s : State) (n : Station) :
    (if n = s.self then s.settings.labelService && s.canSend
      else (s.peer n).state == .alive && (s.peer n).labelController) = true ↔ s.Candidate n := by
  by_cases h : n = s.self <;> simp [State.Candidate, h, State.canSend, Peer.labelController]

theorem allStations_eq_finRange : allStations = List.finRange 16 := by decide

/-- The first station of all that satisfies `p` is the least that does. -/
theorem find_allStations_least {p : Station → Bool} {n m : Station} (h : allStations.find? p = some n) (hm : p m = true) :
    n ≤ m := by
  obtain ⟨-, before, after, hl, hno⟩ := List.find?_eq_some_iff_append.1 h
  have sorted : (before ++ n :: after).Pairwise (· < ·) := hl ▸ (by decide : allStations.Pairwise (· < ·))
  have hmem : m ∈ before ++ n :: after := hl ▸ allStations_eq_finRange ▸ List.mem_finRange m
  rcases List.mem_append.1 hmem with hb | ha
  · exact absurd hm (by simpa using hno m hb)
  · rcases List.mem_cons.1 ha with rfl | ha
    · exact Fin.le_refl _
    · exact Fin.le_of_lt ((List.pairwise_cons.1 (List.pairwise_append.1 sorted).2.1).1 m ha)

theorem State.judgedReference_some {n : Station} (h : s.judgedReference = some n) :
    s.Candidate n ∧ ∀ m, s.Candidate m → n ≤ m := by
  have found := List.find?_some h
  exact ⟨(s.candidate_iff n).1 found, fun m hm => find_allStations_least h ((s.candidate_iff m).2 hm)⟩

theorem State.judgedReference_none : s.judgedReference = none ↔ ∀ n, ¬ s.Candidate n := by
  unfold State.judgedReference
  rw [List.find?_eq_none]
  exact ⟨fun h n hn => h n (allStations_eq_finRange ▸ List.mem_finRange n) ((s.candidate_iff n).2 hn),
    fun h n _ hn => h n ((s.candidate_iff n).1 hn)⟩

theorem Owned.le_shows_iff (o : Owned) (a v : Nat) :
    v ≤ o.shows a ↔ (o.display.article = some a ∧ v ≤ o.display.version) ∨ v = 0 := by
  unfold Owned.shows
  split
  · rename_i h
    simp only [h, true_and]
    omega
  · rename_i h
    simp [h]

theorem le_floorOf_iff {a v : Nat} (hv : v ≤ Config.versionMax) (owned : List (Nat × Owned)) :
    v ≤ floorOf a owned ↔ ∀ x ∈ owned, x.2.bound = some a → x.2.state = .lost ∨ v ≤ x.2.shows a := by
  induction owned with
  | nil => simp [floorOf, hv]
  | cons x m ih =>
    obtain ⟨k, o⟩ := x
    rw [List.forall_mem_cons, ← ih, floorOf]
    split
    · rename_i h
      simp [h.1, h.2]
    · rename_i h
      by_cases hb : o.bound = some a
      · simp [hb, show o.state = .lost by simpa [hb] using h]
      · simp [hb]

/-! ### The trading mode and the schedule (R193, R194) -/

theorem Mains.failing_iff (m : Mains) : m.failing = true ↔ m = .qualified ∨ ∃ due, m = .falling due := by
  cases m <;> simp [Mains.failing]

theorem ModeUnit.asserted_iff (u : ModeUnit) (x : LineUse) :
    u.asserted x = true ↔ ∃ i, (u.lines.get i).use = x ∧ (u.lines.get i).asserted = true := by
  simp only [ModeUnit.asserted, List.any_eq_true, Vector.mem_toList_iff, Vector.mem_iff_getElem, Vector.get_eq_getElem]
  constructor
  · rintro ⟨l, ⟨i, hi, rfl⟩, h⟩
    exact ⟨⟨i, hi⟩, by simpa using h⟩
  · rintro ⟨i, h⟩
    exact ⟨_, ⟨i.val, i.isLt, rfl⟩, by simpa using h⟩

/-- Within a day the time since `m` was last reached is a residue of the day's seconds (R194). -/
theorem sinceTime_eq {m sec : Nat} (hm : m ≤ 1439) (hs : sec ≤ 86399) :
    sinceTime m sec = (sec + 86400 - m * 60) % 86400 := by
  unfold sinceTime Config.daySeconds
  split <;> omega

/-! ### What follows a clock advance or a setting (R191 to R195) -/

/-- The decision sets the mode and nothing else of the unit (R193). -/
theorem State.decideMode_unit (s : State) : s.decideMode.unit = { s.unit with mode := decidedMode s.unit } := by
  unfold State.decideMode
  dsimp only
  split
  · rename_i h
    rw [h]
  · unfold State.changeMode
    dsimp only
    have noticed := fun m => (((s.withUnit fun u => { u with mode := m }).bump .modeChanges).noticeMode_keeps m) .unit (by decide)
    split
    · exact (State.recordAlert_keeps _ _ _ _ _ .unit (by decide)).trans (noticed _)
    · exact noticed _

/-- The unit with the schedule mode recorded; an override recorded with another ends (R194, R195). -/
def ModeUnit.scheduled (u : ModeUnit) (m : Mode) : ModeUnit :=
  { u with schedule := some m, override := u.override.filter fun p => decide (p.2 = some m) }

theorem State.recordSchedule_unit {x : StoreTime} (h : s.unit.clock = some x) :
    s.recordSchedule.unit = s.unit.scheduled (scheduleMode s.settings x.sec) := by
  simp only [State.recordSchedule, h, Option.map_some]
  split
  · rename_i ho
    simp [ModeUnit.scheduled, ho]
  · rename_i m w ho
    split
    · rename_i hw
      simp [ModeUnit.scheduled, Option.filter, ho, hw]
    · rename_i hw
      simp [ModeUnit.scheduled, Option.filter, ho, hw]

theorem State.testRollover_unit {x : StoreTime} (h : s.unit.clock = some x) :
    s.testRollover.unit = { s.unit with highestDay := some (max x.day (s.unit.highestDay.getD 0)) } := by
  conv_lhs => simp only [State.testRollover, h]
  repeat' split
  all_goals rfl

/-- The unit after a clock advance or a setting (R191 to R195). -/
theorem State.afterClock_unit {x : StoreTime} (h : s.unit.clock = some x) :
    let u := s.unit.scheduled (scheduleMode s.settings x.sec)
    s.afterClock.unit = { u with mode := decidedMode u, highestDay := some (max x.day (s.unit.highestDay.getD 0)) } := by
  have decided : s.recordSchedule.decideMode.unit = _ := State.decideMode_unit _
  rw [State.recordSchedule_unit h] at decided
  have clock : s.recordSchedule.decideMode.unit.clock = some x := by rw [decided]; exact h
  simp only [State.afterClock, State.testRollover_unit clock, decided]
  rfl

/-- A new day zeroes every guest's bytes and lifts its cap (R161, R192). -/
theorem State.testRollover_guests {x : StoreTime} {h : Nat} (hc : s.unit.clock = some x) (hh : s.unit.highestDay = some h)
    (hlt : h < x.day) : ∀ g ∈ s.testRollover.fwd.guests, g.bytesToday = 0 ∧ g.capped = false := by
  simp only [State.testRollover, hc, hh, hlt, if_true]
  intro g hg
  obtain ⟨g', -, rfl⟩ := List.mem_map.1 hg
  exact ⟨rfl, rfl⟩

theorem State.afterClock_guests {x : StoreTime} {h : Nat} (hc : s.unit.clock = some x) (hh : s.unit.highestDay = some h)
    (hlt : h < x.day) : ∀ g ∈ s.afterClock.fwd.guests, g.bytesToday = 0 ∧ g.capped = false := by
  have decided : s.recordSchedule.decideMode.unit = _ := State.decideMode_unit _
  rw [State.recordSchedule_unit hc] at decided
  exact State.testRollover_guests (by rw [decided]; exact hc) (by rw [decided]; exact hh) hlt

/-- The clock's next second (R190). -/
theorem advanceTime_eq {x : StoreTime} (hd : x.day ≤ 65535) (hs : x.sec ≤ 86399) :
    advanceTime x = if x.sec < 86399 then ⟨x.day, x.sec + 1⟩ else if x.day < 65535 then ⟨x.day + 1, 0⟩ else x := by
  obtain ⟨d, k⟩ := x
  simp only at hd hs
  simp only [advanceTime, timePlus, Config.daySeconds, Config.dayMax]
  rcases Nat.lt_or_eq_of_le hs with h | rfl
  · have hday : (d * 86400 + k + 1) / 86400 = d := by omega
    have hsec : (d * 86400 + k + 1) % 86400 = k + 1 := by omega
    simp [hday, hsec, h, Nat.not_lt.2 hd]
  · have hday : (d * 86400 + 86399 + 1) / 86400 = d + 1 := by omega
    have hsec : (d * 86400 + 86399 + 1) % 86400 = 0 := by omega
    rcases Nat.lt_or_eq_of_le hd with h | rfl
    · simp [hday, hsec, h]
    · simp

theorem exec_clockTimerExpiry {x : StoreTime} {due : Nat} (hl : s.live = true) (hc : s.unit.clock = some x)
    (ht : s.unit.clockTimer = some due) :
    exec .clockTimerExpiry s = .next ((s.reach due).withUnit fun u =>
      { u with clock := some (advanceTime x), clockTimer := some (due + Config.seconds 1) }).afterClock := by
  simp [exec, execClockTimerExpiry, hc, ht, hl]

/-! ### OFFICE commands on mode, session and alerts (R170, R191, R195, R202, R211) -/

theorem State.replied_keeps (s : State) (h : OfficeHead) (k : Nat) (o : OfficeOutcome) :
    keeps [.commands, .trunk, .counts] s (s.replied h k o) :=
  ((State.remember_keeps _ _ _).mono (by decide)).trans ((State.giveReply_keeps_plain _ _ _).mono (by decide))

/-- The outcome of an OFFICE command is saved in its station's place (R209). -/
theorem State.replied_place (s : State) (h : OfficeHead) (k : Nat) (o : OfficeOutcome) :
    (s.replied h k o).commands.places.get h.src = some ⟨h.tag, k, o⟩ := by
  have kept : (s.replied h k o).commands = (s.remember h.src ⟨h.tag, k, o⟩).commands :=
    State.giveReply_keeps_plain _ _ _ .commands (by decide)
  rw [kept]
  exact (vector_get_set _ _ _ _).trans (if_pos rfl)

theorem State.replied_unit (s : State) (h : OfficeHead) (k : Nat) (o : OfficeOutcome) : (s.replied h k o).unit = s.unit :=
  s.replied_keeps h k o .unit (by decide)

/-- The override given by a SET-MODE is recorded with the schedule mode, and the mode is decided (R195). -/
theorem State.actSetMode_given {code : Nat} {m : Mode} (h : (code, m) ∈ [(1, Mode.open), (2, .late), (3, .closed)]) (s : State) :
    ∃ u : State, State.actSetMode code s = (.done (.mode u.unit.mode), u) ∧
      u.unit.override = some (m, s.unit.schedule) ∧ u.unit.mode = decidedMode u.unit := by
  have hcode : code ≠ 0 ∧ overrideOf code = some m := by
    simp only [List.mem_cons, Prod.mk.injEq, List.mem_nil_iff, or_false] at h
    rcases h with ⟨rfl, rfl⟩ | ⟨rfl, rfl⟩ | ⟨rfl, rfl⟩ <;> exact ⟨by decide, rfl⟩
  refine ⟨((s.withUnit fun u => { u with override := some (m, u.schedule) }).bump .overridesGiven).decideMode, ?_, ?_⟩
  · simp only [State.actSetMode, hcode.1, if_false, hcode.2]
  · rw [State.decideMode_unit]
    exact ⟨rfl, rfl⟩

theorem State.endOverride_unit (s : State) : s.endOverride.unit = { s.unit with override := none } := by
  unfold State.endOverride
  split
  · rename_i h
    rw [← h]
  · rfl

theorem State.takeTime_unit (s : State) (x : StoreTime) (c : Count) :
    let u := { s.unit with clock := some x, clockTimer := some (s.now + Config.seconds 1) }.scheduled
      (scheduleMode s.settings x.sec)
    (s.takeTime x c).unit = { u with mode := decidedMode u, highestDay := some (max x.day (s.unit.highestDay.getD 0)) } :=
  State.afterClock_unit (x := x)
    (s := (s.withUnit fun u => { u with clock := some x, clockTimer := some (s.now + Config.seconds 1) }).bump c) rfl

theorem timeValid_iff (x : StoreTime) : timeValid x = true ↔ x.day ≤ 65535 ∧ x.sec ≤ 86399 := by
  rw [timeValid, Bool.and_eq_true, decide_eq_true_eq, decide_eq_true_eq, Config.dayMax, Config.daySeconds]
  omega

theorem State.mayTakeTime_iff (s : State) :
    s.mayTakeTime = true ↔ s.labels.reference = none ∨ s.labels.reference = some s.settings.station := by
  simp [State.mayTakeTime]

theorem State.actAckAlert_none {n : Nat} (h0 : n ≠ 0) (h : ∀ a ∈ s.alerts.list, a.serial ≠ n) :
    State.actAckAlert n s = (.refused .noSuchAlert, s) := by
  have hany : (s.alerts.list.any fun a => n == 0 || a.serial == n) = false := by
    simpa [h0] using h
  simp [State.actAckAlert, hany, h0]

theorem State.actAckAlert_named {n : Nat} (h : n = 0 ∨ ∃ a ∈ s.alerts.list, a.serial = n) :
    State.actAckAlert n s = (.done .nothing, { s with alerts := { s.alerts with
      list := s.alerts.list.map fun a : Alert => if n = 0 ∨ a.serial = n then { a with acked := true } else a } }) := by
  have hany : n = 0 ∨ (s.alerts.list.any fun a => n == 0 || a.serial == n) = true := by
    rcases h with h | ⟨a, ha, hn⟩
    · exact .inl h
    · exact .inr (List.any_eq_true.2 ⟨a, ha, by simp [hn]⟩)
  simp only [State.actAckAlert, if_pos hany, Bool.or_eq_true, beq_iff_eq]

/-- A RESTART is answered DONE and closes the part to further commands; the reply that cannot be sent resets it (R211). -/
theorem State.Obeys.exec_restart {h : OfficeHead} (ob : s.Obeys h) :
    exec (.restart h) s = .next ((((s.heardFrom h.src id).withCommands fun c => { c with restarting := true }).remember h.src
      ⟨h.tag, 12, .done .nothing⟩).giveReply h.src ⟨h.tag, 12, .done .nothing⟩ true) := by
  have hnone : (s.heardFrom h.src id).commands.savedFor h.src h.tag = none := by
    simp only [State.heardFrom_commands, CommandMemory.savedFor]
    split
    · rfl
    · rename_i r hr
      simp [ob.notRepeat r hr]
  have received := State.receive_station (f := ⟨h.src, h.dest⟩) ob.hears ob.dest true id
    fun s => s.command h 12 true State.actRestart
  simp only [exec, execRestart, State.receivePlain, received, if_true]
  simp only [State.heardFrom_commands] at hnone
  simp only [State.command, State.heardFrom_commands, ob.starting, Bool.false_eq_true, if_false, hnone]
  rfl

theorem State.giveReply_restart_queued {n : Station} {r : OfficeReply} (hc : s.canSend = true)
    (hroom : s.trunk.notice.length < 64) :
    s.giveReply n r true = s.withTrunk fun x =>
      { x with notice := x.notice ++ [Frame.new (some n) (.officeReply r) (.reply true)] } := by
  simp [State.giveReply, State.offer_notice_queued (f := Frame.new (some n) (.officeReply r) (.reply true)) rfl hc hroom]

theorem State.giveReply_restart_notTaken {n : Station} {r : OfficeReply} (hc : s.canSend = false) :
    s.giveReply n r true = (s.bump .notTakenNotice).enterStarting .restart := by
  simp [State.giveReply, State.offer, hc, Frame.new, FrameBody.trunkClass, notTakenCount]

/-- A part that serves and is not in LISTEN-ONLY sends (R139). -/
theorem State.serving_canSend (h : s.serving = true) : s.canSend = true ↔ s.part ≠ .listenOnly := by
  revert h
  simp only [State.serving, State.working, State.canSend]
  cases s.part <;> simp

/-- A part that serves and is not in LISTENING works (R167). -/
theorem State.serving_working (h : s.serving = true) : s.working = true ↔ s.part ≠ .listening := by
  revert h
  simp only [State.serving, State.working]
  cases s.part <;> simp

end Sys2Proof.Machine

/-! ### The statements -/

open Sys2Proof Sys2Proof.Machine

/-- Settles O25: each judgement by its definition, the reference by the order of the stations, the floor by induction on the
table. -/
theorem radioJudgements : Obligations.RadioJudgements := by
  refine ⟨fun x => ⟨fun old => smooth_range old x, fun hlo hhi => ⟨clampLevel_of_range hlo hhi, fun y hy hy' => ?level⟩⟩,
    fun s => ⟨fun n h => State.judgedReference_some h, State.judgedReference_none⟩, fun a v owned hv => ?floor⟩
  case level =>
    have between := tdiv_four_between (x - y)
    rw [smooth_some hlo hhi hy hy']
    refine ⟨rfl, fun h => ?_, fun h => ?_⟩ <;> omega
  case floor =>
    rw [le_floorOf_iff hv]
    simp only [Owned.le_shows_iff]

/-- Settles O31: each kind's update of its sender's slot, then the count it is discarded with. -/
theorem framesUpdateTheirSendersSlot : Obligations.FramesUpdateTheirSendersSlot := by
  refine ⟨fun s f => ⟨fun h => ?other, fun hl hs hown => ?own, fun hl hs => ?spoiled⟩, fun c s hc hl hs => ?delivered⟩
  case other =>
    have overheard : ∀ n x, f.dest = .station n → ∃ t, exec (.trunkFrameOtherDest f x) s = .next t ∧ keeps hearFields s t ∧
        ∀ m, t.peer m = if m = f.src then
          slotUpdate x { s.peer f.src with state := .alive, timer := some (s.now + Config.seconds 4) } else s.peer m :=
      fun n x hd => ⟨_, exec_trunkFrameOtherDest_station h hd x, (keeps_hear _ _ (by decide)).2 (keeps.refl _ s), s.hear_peer f.src _⟩
    refine ⟨fun b hd => ⟨_, exec_beaconReceived_other h hd b, s.heardFrom_keeps _ _, s.heardFrom_peer f.src _⟩,
      fun n hd _ => ⟨fun b => overheard n _ hd, overheard n _ hd, overheard n _ hd⟩,
      fun n hd => exec_trunkFrameOtherDest_nobody h hd _, fun hd => ⟨fun k hk => ?_, exec_malformedFrameReceived_other h hd _⟩,
      fun hd => congrArg _ (State.receive_station h hd true id _)⟩
    cases k
    case cycleMark => exact absurd rfl hk
    all_goals exact exec_malformedFrameReceived_other h hd _
  case own =>
    have counted := fun toAll ok upd d => State.receive_own (f := f) hl hs hown toAll ok upd d
    have silent : s.part = .listenOnly → s.canSend = false := fun h => by simp [State.canSend, h]
    refine ⟨fun k hk => ?_, fun b => ?_, ?_, fun hp b => ?_⟩
    · simp only [exec, execMalformedFrameReceived, counted]
      split
      · rename_i h
        simp only [Bool.and_eq_true, beq_iff_eq] at h
        simp [State.ownBeacon, silent (hk.resolve_left fun hne => hne h.2)]
      · rfl
    · simp [exec, execMalformedFrameReceived, execBeaconReceived, hl, hs, hown]
    · simp [exec, execTrunkFrameOtherDest, hl, hs, hown, isBeaconBody]
    · simp [exec, execBeaconReceived, hl, hs, hown, State.ownBeacon, silent hp]
  case spoiled =>
    have hpart : s.canSend = !(s.part == .listenOnly) := by
      revert hs
      simp only [State.serving, State.working, State.canSend]
      cases s.part <;> decide
    have hbump : (s.bump .checkErrors).canSend = s.canSend :=
      State.canSend_of_keeps (s.bump_keeps .checkErrors) (by decide)
    simp only [exec, execTrunkFrameBadCheck, hl, hs, Bool.and_self, if_true, hbump, hpart]
    cases hp : s.part <;> simp
  case delivered =>
    exact exec_deliveredFrom_own hc hl hs

/-- Settles O45: the clock's second, and what follows every advance. -/
theorem clockAdvancesBySeconds : Obligations.ClockAdvancesBySeconds := by
  refine ⟨fun s x due hl hc ht hd hs => ?advance, fun u => ?mode, fun c sec hs ho hl hk => ?schedule⟩
  case advance =>
    rw [← advanceTime_eq hd hs]
    generalize hx : advanceTime x = later
    have hexec := exec_clockTimerExpiry hl hc ht
    rw [hx] at hexec
    generalize hs1 : ((s.reach due).withUnit fun u =>
      { u with clock := some later, clockTimer := some (due + Config.seconds 1) }) = s1 at hexec
    have clock : s1.unit.clock = some later := by rw [← hs1]; rfl
    have now : s1.afterClock.now = max s.now due := by
      rw [show s1.afterClock.now = s1.now from s1.afterClock_keeps .now (by decide), ← hs1]; rfl
    have unit := State.afterClock_unit clock
    refine ⟨_, hexec, now, ?_⟩
    rw [unit, ← hs1]
    refine ⟨rfl, rfl, rfl, rfl, fun m w ho => ?_, rfl, fun h hh hlt => ?_⟩
    · by_cases hw : w = some (scheduleMode s.settings later.sec) <;> simp [ModeUnit.scheduled, ho, Option.filter, hw]
    · rw [hs1]
      exact State.afterClock_guests clock (by rw [← hs1]; exact hh) hlt
  case mode =>
    simp only [← Mains.failing_iff, ← ModeUnit.asserted_iff]
    refine ⟨fun h => by simp [decidedMode, h], fun h hk => by simp [decidedMode, h, hk], fun h hk => ⟨fun m w ho => ?_,
      fun m ho hsched => ?_, fun ho hsched => ?_⟩⟩ <;> simp [decidedMode, h, hk, ho]
    · simp [hsched]
    · simp [hsched]
  case schedule =>
    simp only [scheduleMode, sinceTime_eq ho hs, sinceTime_eq hl hs, sinceTime_eq hk hs]
    refine ⟨fun h1 h2 => if_pos ⟨h1, h2⟩, fun h1 h2 => ?_, fun h1 h2 => ?_⟩
    · rw [if_neg (by omega), if_pos h2]
    · rw [if_neg (by omega), if_neg (by omega)]

/-- Settles O53: each command by its act, whose outcome is saved and handed over. -/
theorem commandsOnModeSessionAndAlerts : Obligations.CommandsOnModeSessionAndAlerts := by
  refine ⟨fun s h ob => ⟨fun code m hm => ?given, ?ended, fun code hcode => ?badMode, fun time =>
    ⟨fun hno => ?notReference, fun hmay hbad => ?badTime, fun hmay hd hs => ?timeSet⟩⟩, fun s h ob => ?rest⟩
  case given =>
    obtain ⟨u, hact, ho, hmode⟩ := State.actSetMode_given hm (s.heardFrom h.src id)
    refine ⟨_, congrArg Host.Outcome.next (ob.exec_office hact), ?_⟩
    rw [State.replied_unit]
    exact ⟨by simpa using ho, hmode, State.replied_place _ _ _ _⟩
  case ended =>
    have hact : State.actSetMode 0 (s.heardFrom h.src id) = (_, (s.heardFrom h.src id).endOverride.decideMode) := rfl
    refine ⟨_, congrArg Host.Outcome.next (ob.exec_office hact), ?_⟩
    rw [State.replied_unit, State.decideMode_unit, State.endOverride_unit]
    exact ⟨rfl, rfl, (State.replied_place _ _ _ _).trans rfl⟩
  case badMode =>
    have hno : overrideOf code = none := by
      unfold overrideOf
      split <;> first | omega | rfl
    exact congrArg _ (ob.exec_office (by simp [State.actSetMode, hno, show code ≠ 0 by omega]))
  case notReference =>
    have hfalse : (s.heardFrom h.src id).mayTakeTime = false := by
      rw [← Bool.not_eq_true, State.mayTakeTime_iff]
      simpa using hno
    exact congrArg _ (ob.exec_office (by simp [State.actSetTime, hfalse]))
  case badTime =>
    have htrue : (s.heardFrom h.src id).mayTakeTime = true := (State.mayTakeTime_iff _).2 (by simpa using hmay)
    have hinvalid : timeValid time = false := by
      rw [← Bool.not_eq_true, timeValid_iff]
      omega
    exact congrArg _ (ob.exec_office (by simp [State.actSetTime, htrue, hinvalid]))
  case timeSet =>
    have htrue : (s.heardFrom h.src id).mayTakeTime = true := (State.mayTakeTime_iff _).2 (by simpa using hmay)
    have hvalid : timeValid time = true := (timeValid_iff time).2 ⟨hd, hs⟩
    have hact : State.actSetTime time (s.heardFrom h.src id) =
        (.done (.time time), (s.heardFrom h.src id).takeTime time .setByOffice) := by
      simp [State.actSetTime, htrue, hvalid]
    refine ⟨_, congrArg Host.Outcome.next (ob.exec_office hact), ?_⟩
    rw [State.replied_unit, State.takeTime_unit, State.heardFrom_now, State.heardFrom_settings]
    exact ⟨rfl, rfl, rfl, rfl, State.replied_place _ _ _ _⟩
  case rest =>
    have hworking := State.serving_working ob.hears.serving
    have hsends := State.serving_canSend ob.hears.serving
    have work : (s.heardFrom h.src id).working = s.working := by simp [State.working]
    have refusal : ∀ r, (s.heardFrom h.src id).keyRefusal = some r →
        exec (.runSession h) s = .next ((s.heardFrom h.src id).replied h 8 (.refused r)) :=
      fun r hr => congrArg _ (ob.exec_office (by simp [State.actRunSession, hr]))
    refine ⟨fun hp => refusal _ ?_, fun hp hm => refusal _ ?_, fun hp hm => ⟨fun hb => refusal _ ?_, fun hb => ?_⟩,
      fun n h0 hno => congrArg _ (ob.exec_office (State.actAckAlert_none h0 hno)),
      fun n hn => congrArg _ (ob.exec_office (State.actAckAlert_named hn)), fun hp hroom => ?_, fun hp => ?_⟩
    · simp [State.keyRefusal, work, Bool.eq_false_iff.2 (mt hworking.1 (not_not.2 hp))]
    · simp [State.keyRefusal, work, hworking.2 hp, hm]
    · simp [State.keyRefusal, work, hworking.2 hp, hm, hb]
    · have hno : (s.heardFrom h.src id).keyRefusal = none := by simp [State.keyRefusal, work, hworking.2 hp, hm, hb]
      exact congrArg _ (ob.exec_office (by simp [State.actRunSession, hno]))
    · have queued := State.giveReply_restart_queued (s := ((s.heardFrom h.src id).withCommands fun c =>
        { c with restarting := true }).remember h.src ⟨h.tag, 12, .done .nothing⟩) (n := h.src)
        (r := ⟨h.tag, 12, .done .nothing⟩) (by simpa [State.canSend, State.remember] using hsends.2 hp) hroom
      exact ⟨_, ob.exec_restart.trans (congrArg _ queued), rfl, (vector_get_set _ _ _ _).trans (if_pos rfl), rfl⟩
    · have lost := State.giveReply_restart_notTaken (s := ((s.heardFrom h.src id).withCommands fun c =>
        { c with restarting := true }).remember h.src ⟨h.tag, 12, .done .nothing⟩) (n := h.src)
        (r := ⟨h.tag, 12, .done .nothing⟩) (by simp [State.canSend, State.remember, hp])
      exact ⟨_, ob.exec_restart.trans (congrArg _ lost), rfl, rfl, rfl, rfl⟩

end

section
/-! PROOFS. What a failed attempt leaves (R73, R182, R183), which messages from head office are taken (R173), and the files
collected from the trunk (R185 to R187). -/

namespace Sys2Proof.Machine

open Sys2Proof

variable {s t : State}

/-! ### The end of an attempt (R182, R183) -/

theorem State.clearSent_journal (s : State) : s.clearSent.journal =
    { s.journal with records := s.journal.records.map fun r => { r with sent := false }, outstanding := [] } := by
  unfold State.clearSent
  dsimp only
  split <;> simp

theorem State.discardCollecting_staging (s : State) : s.discardCollecting.staging =
    if s.staging.owner = .session ∧ s.staging.phase = .collecting then Staging.empty else s.staging := by
  unfold State.discardCollecting
  split <;> rfl

/-- The steps of R182 leave the session, the journal, the uplink and the staging list as `State.Stopped` says. -/
theorem State.stopAttempt_spec (s : State) : s.Stopped s.stopAttempt ∧ s.stopAttempt.link = s.link.attemptOver := by
  have sent : (s.withLink Link.attemptOver).clearSent.journal = _ := State.clearSent_journal _
  have kept : keeps [.journal, .counts] (s.withLink Link.attemptOver) (s.withLink Link.attemptOver).clearSent :=
    State.clearSent_keeps _
  have staged := State.discardCollecting_staging (s.withLink Link.attemptOver).clearSent.removeSessionParcels
  have rest := State.discardCollecting_keeps (s.withLink Link.attemptOver).clearSent.removeSessionParcels
  have staging : s.stopAttempt.staging =
      if s.staging.owner = .session ∧ s.staging.phase = .collecting then Staging.empty else s.staging := by
    have same : (s.withLink Link.attemptOver).clearSent.removeSessionParcels.staging = s.staging := kept .staging (by decide)
    rw [same] at staged
    exact staged
  have journal : s.stopAttempt.journal = (s.withLink Link.attemptOver).clearSent.journal := rest .journal (by decide)
  have link : s.stopAttempt.link = s.link.attemptOver := (rest .link (by decide)).trans (kept .link (by decide))
  have fwd : s.stopAttempt.fwd = { s.fwd with
      office := s.fwd.office.filter fun p => !(p.origin == s.self && p.port == .session), heldParcel := none } := by
    have hf : (s.withLink Link.attemptOver).clearSent.fwd = s.fwd := kept .fwd (by decide)
    have hs : (s.withLink Link.attemptOver).clearSent.settings = s.settings := kept .settings (by decide)
    refine (rest .fwd (by decide)).trans ?_
    simp only [State.removeSessionParcels, State.withFwd_fwd, State.self, hf, hs]
  refine ⟨⟨?_, ?_, ?_, ?_, ?_, ?_, ?_, fun ho hp => ?_, fun h => ?_⟩, link⟩
  · rw [journal, sent]; rfl
  · rw [journal, sent]
  all_goals first | rw [link]; rfl | rw [fwd] | skip
  · rw [staging, if_pos ⟨ho, hp⟩]
  · rw [staging, if_neg (by tauto)]

/-- What only the session record's end, a count and an alert change leaves the attempt stopped. -/
theorem State.Stopped.of_keeps {u : State} (h : s.Stopped t) (hk : keeps [.link, .alerts, .counts] t u)
    (hw : u.link.window = []) (hm : u.link.toSend = []) (hr : u.link.replyTimer = none) : s.Stopped u := by
  have journal : u.journal = t.journal := hk .journal (by decide)
  have fwd : u.fwd = t.fwd := hk .fwd (by decide)
  have staging : u.staging = t.staging := hk .staging (by decide)
  exact ⟨journal ▸ h.records, journal ▸ h.outstanding, hw, hm, hr, fwd ▸ h.office, fwd ▸ h.heldParcel,
    fun ho hp => staging ▸ h.collecting ho hp, fun hn => staging ▸ h.kept hn⟩

theorem State.mayRest_iff (s : State) : s.mayRest = true ↔ s.CanRest := by
  unfold State.mayRest State.CanRest
  split
  · rename_i h
    simp [h]
  · rename_i day left h
    simp [h]

/-- The end of R183 for a failure reason: RESTING for 10 min, or DONE with an alert. -/
structure State.Rested (s : State) (r : FailReason) (t : State) : Prop where
  resting : s.CanRest → t.link.state = .resting ∧ t.link.restTimer = some (s.now + Config.minutes 10) ∧ t.alerts = s.alerts
  done : ¬ s.CanRest → t.link.state = .done ∧ t.link.restTimer = none ∧
    ∃ a ∈ t.alerts.list, a.kind = .sessionFailed ∧ a.severity = .warn ∧ a.detail = .failure r none

theorem State.sessionFailed_link (s : State) (r : FailReason) (code : Option Nat) :
    (s.sessionFailed r code).link = { s.link with state := .done, restTimer := none } :=
  State.recordAlert_keeps _ _ _ _ _ .link (by decide)

theorem State.restOrDone_link (s : State) (r : FailReason) : (s.restOrDone r).link =
    if s.mayRest then { s.link with lastFailure := some r, state := .resting, restTimer := some (s.now + Config.minutes 10) }
    else { s.link with lastFailure := some r, state := .done, restTimer := none } := by
  unfold State.restOrDone
  dsimp only
  have same : (s.withLink fun l => { l with lastFailure := some r }).mayRest = s.mayRest := rfl
  rw [same]
  split
  · rfl
  · exact State.sessionFailed_link _ _ _

theorem State.restOrDone_rested (s : State) (r : FailReason) : s.Rested r (s.restOrDone r) := by
  refine ⟨fun h => ?_, fun h => ?_⟩
  · have hm := (State.mayRest_iff s).2 h
    refine ⟨by rw [State.restOrDone_link, if_pos hm], by rw [State.restOrDone_link, if_pos hm], ?_⟩
    have same : (s.withLink fun l => { l with lastFailure := some r }).mayRest = true := hm
    simp [State.restOrDone, same]
  · have hm : s.mayRest = false := by rw [← Bool.not_eq_true, State.mayRest_iff]; exact h
    refine ⟨by rw [State.restOrDone_link, hm]; rfl, by rw [State.restOrDone_link, hm]; rfl, ?_⟩
    have same : (s.withLink fun l => { l with lastFailure := some r }).mayRest = false := hm
    obtain ⟨a, ha, hk, hv, -, hd, -⟩ := State.recordAlert_mem
      ((s.withLink fun l => { l with lastFailure := some r }).withLink fun l => { l with state := .done, restTimer := none })
      .sessionFailed .warn .self (.failure r none)
    refine ⟨a, ?_, hk, hv, hd⟩
    simpa [State.restOrDone, same, State.sessionFailed] using ha

/-- A failed attempt is stopped, and its session rests or is DONE (R182, R183). -/
theorem State.failAttempt_spec (s : State) (r : FailReason) : s.Stopped (s.failAttempt r) ∧ s.Rested r (s.failAttempt r) := by
  obtain ⟨stopped, link⟩ := s.stopAttempt_spec
  have kept := s.stopAttempt_keeps
  have rested := s.stopAttempt.restOrDone_rested r
  have same : s.stopAttempt.CanRest ↔ s.CanRest := by
    have unit : s.stopAttempt.unit = s.unit := kept .unit (by decide)
    have settings : s.stopAttempt.settings = s.settings := kept .settings (by decide)
    simp only [State.CanRest, State.window, unit, settings, link, Link.attemptOver]
  have now : s.stopAttempt.now = s.now := kept .now (by decide)
  have alerts : s.stopAttempt.alerts = s.alerts := kept .alerts (by decide)
  refine ⟨stopped.of_keeps (State.restOrDone_keeps _ _) ?_ ?_ ?_, ⟨fun h => ?_, fun h => rested.done (mt same.1 h)⟩⟩
  · rw [State.failAttempt, State.restOrDone_link, link]; split <;> rfl
  · rw [State.failAttempt, State.restOrDone_link, link]; split <;> rfl
  · rw [State.failAttempt, State.restOrDone_link, link]; split <;> rfl
  · have := rested.resting (same.2 h)
    rwa [now, alerts] at this

/-- A REFUSE stops the attempt and ends the session DONE with the reason code in the alert (R174). -/
theorem State.takeRefuse_spec (s : State) (code : Nat) : s.Stopped (s.takeRefuse code) ∧
    (s.takeRefuse code).link.state = .done ∧
    ∃ a ∈ (s.takeRefuse code).alerts.list, a.kind = .sessionFailed ∧ a.detail = .failure .refused (some code) := by
  obtain ⟨stopped, link⟩ := s.stopAttempt_spec
  have after : (s.takeRefuse code).link =
      { s.link.attemptOver with lastFailure := some .refused, state := .done, restTimer := none } := by
    rw [State.takeRefuse, State.sessionFailed_link, State.withLink_link, link]
  have kept : keeps [.link, .alerts, .counts] s.stopAttempt (s.takeRefuse code) := by
    unfold State.takeRefuse State.sessionFailed
    simp
  refine ⟨stopped.of_keeps kept ?_ ?_ ?_, by rw [after], ?_⟩
  · rw [after]; rfl
  · rw [after]; rfl
  · rw [after]; rfl
  · obtain ⟨a, ha, hk, -, -, hd, -⟩ := State.recordAlert_mem
      ((s.stopAttempt.withLink fun l => { l with lastFailure := some .refused }).withLink fun l =>
        { l with state := .done, restTimer := none })
      .sessionFailed .warn .self (.failure .refused (some code))
    exact ⟨a, ha, hk, hd⟩

/-- An event of R182 fails an attempt in OPENING, UPLOADING or DOWNLOADING. -/
theorem State.sessionEvent_fails (h : s.link.state = .opening ∨ s.link.state = .uploading ∨ s.link.state = .downloading)
    (r : FailReason) : s.sessionEvent r = s.failAttempt r := by
  unfold State.sessionEvent
  rcases h with h | h | h <;> rw [h]

/-- An event of R182 changes nothing where no attempt is in progress. -/
theorem State.sessionEvent_idle (h : s.link.state.inProgress = false) (r : FailReason) : s.sessionEvent r = s := by
  unfold State.sessionEvent
  split <;> rename_i hs <;> first | rfl | (rw [hs] at h; cases h)

theorem exec_sessionReplyTimeout {due : Nat} (hl : s.live = true) (hw : s.working = true)
    (hr : s.link.replyTimer = some due) : exec .sessionReplyTimeout s = .next
      (({ s with now := max s.now due, link := { s.link with replyTimer := none } } : State).sessionEvent .noReply) := by
  simp only [exec, execSessionReplyTimeout, hr, hl, hw, Bool.and_self, if_true]
  rfl

/-! ### Messages from head office (R173) -/

/-- A message is taken with the current tag and is stale with another, however it is awaited. -/
theorem exec_of_officeMessage {c : Instr} {tag : Nat} {m : InMessage} (hc : officeMessage c = some (tag, m)) (s : State) :
    exec c s = .next (s.deliverMessage tag m) := by
  cases c <;> cases hc <;> rfl

theorem State.deliverMessage_stale (hl : s.live = true) (hs : s.serving = true) {tag : Nat} (m : InMessage)
    (h : s.link.state.inProgress = false ∨ tag ≠ s.link.attemptTag) :
    s.deliverMessage tag m = s.bump .staleMessages := by
  have hno : (s.link.state.inProgress && tag == s.link.attemptTag) = false := by
    rcases h with h | h <;> simp [h]
  simp [State.deliverMessage, State.message, hl, hs, hno]

theorem State.deliverMessage_awaited (hl : s.live = true) (hs : s.serving = true) (m : InMessage)
    (h : s.link.state.inProgress = true) : s.deliverMessage s.link.attemptTag m = s.awaited m := by
  simp [State.deliverMessage, State.message, hl, hs, h]

/-- The session collects a file in its staging list (R178 to R180). -/
def State.SessionCollects (s : State) : Prop :=
  s.link.state = .downloading ∧ s.staging.owner = .session ∧ s.staging.phase = .collecting

theorem State.awaitsStart_iff (s : State) : s.awaitsStart = true ↔ s.SessionCollects ∧ s.staging.count = none := by
  simp [State.awaitsStart, State.SessionCollects, and_assoc]

theorem State.receiving_iff (s : State) : s.receiving = true ↔ s.SessionCollects ∧ s.staging.count ≠ none := by
  simp [State.receiving, State.SessionCollects, and_assoc, Option.isSome_iff_ne_none]

/-! ### The files of peers (R185 to R187) -/

variable {n : Station} {serial count check : Nat}

theorem Staging.collects_iff (g : Staging) (n : Station) (serial : Nat) :
    g.collects n serial = true ↔ g.owner = .trunk ∧ g.phase = .collecting ∧ g.source = some n ∧ g.serial = serial := by
  simp [Staging.collects, and_assoc]

/-- Each record of a file frame that fits is stored under its index, and no other index is touched (R179). -/
theorem storeRecords_indexed (first : Nat) (rs : List ChangeRecord) (s : State) :
    ∃ m, storeRecords first rs s =
        (s.bumpBy .foreignRecords ((rs.zipIdx first).filter fun x => !s.staging.fits x).length).withStaging
          (fun g => { g with records := m }) ∧
      (∀ i r, rs[i]? = some r → s.staging.fits (r, first + i) = true → AMap.get m r.index = some r) ∧
      ∀ j, (∀ i r, rs[i]? = some r → s.staging.fits (r, first + i) = true → r.index ≠ j) →
        AMap.get m j = AMap.get s.staging.records j := by
  obtain ⟨m, he, hput, hkeep, -⟩ := storeRecords_spec first rs s
  have index : ∀ x : ChangeRecord × Nat, s.staging.fits x = true → x.1.index = x.2 := fun x hx =>
    (of_decide_eq_true hx).1
  refine ⟨m, he, fun i r hi hf => ?_, fun j hj => hkeep j fun x hx hf hxj => ?_⟩
  · rw [index _ hf]
    exact hput _ (List.mk_add_mem_zipIdx_iff_getElem?.2 hi) hf
  · obtain ⟨hlo, -, hget⟩ := List.mem_zipIdx hx
    obtain ⟨i, hi⟩ := Nat.exists_eq_add_of_le hlo
    have hr : rs[i]? = some x.1 := by
      rw [hget]
      simp only [hi, Nat.add_sub_cancel_left]
      exact List.getElem?_eq_getElem _
    have hx' : x = (x.1, first + i) := Prod.ext rfl hi
    exact hj i x.1 hr (hx' ▸ hf) ((index x hf).trans hxj)

/-- A trunk file that has passed its check goes to RELEASING, and is not shared (R187, R188). -/
theorem State.beginRelease_trunk (ho : s.staging.owner = .trunk) (hc : 0 < s.staging.count.getD 0) :
    s.beginRelease = { s with
      staging := { s.staging with phase := .releasing, share := none, released := false }
      book := { s.book with cursor := some 0 } } := by
  have hne : s.staging.count.getD 0 ≠ 0 := Nat.ne_of_gt hc
  simp [State.beginRelease, ho, hne, State.shareOn, shareFrom, State.withStaging, State.withBook]

/-- The announce memory without the serial of a file that is discarded (R186). -/
def Link.forget (l : Link) (serial : Nat) : Link :=
  { l with announce := match l.announce with
      | none => none
      | some (n, t) => if n = serial then none else some (n, t) }

theorem State.dropTrunkFile_eq (s : State) : s.dropTrunkFile =
    { s.bump .trunkFilesFailed with staging := Staging.empty, link := s.link.forget s.staging.serial } := by
  rfl

theorem exec_trunkCollectionTimeout_idle (h : s.staging.owner ≠ .trunk ∨ s.staging.phase ≠ .collecting) :
    exec .trunkCollectionTimeout s = .next s := by
  have hno : (s.live && s.serving && s.staging.owner == .trunk && s.staging.phase == .collecting) = false := by
    rcases h with h | h <;> simp [h]
  simp [exec, execTrunkCollectionTimeout, hno]

theorem exec_trunkCollectionTimeout (hl : s.live = true) (hs : s.serving = true) (ho : s.staging.owner = .trunk)
    (hp : s.staging.phase = .collecting) : exec .trunkCollectionTimeout s = .next
      (s.reach (s.staging.lastFrame + Config.seconds 60)).dropTrunkFile := by
  simp [exec, execTrunkCollectionTimeout, hl, hs, ho, hp]

end Sys2Proof.Machine

/-! ### The statements -/

open Sys2Proof Sys2Proof.Machine

/-- Settles O40: a stale message by its tag, an unexpected one by the test of its kind. -/
theorem onlyAwaitedMessagesAreTaken : Obligations.OnlyAwaitedMessagesAreTaken := by
  intro c tag m s hc hl hs
  refine ⟨fun h => ?stale, fun hp htag hm => ?unexpected⟩
  case stale => rw [exec_of_officeMessage hc, State.deliverMessage_stale hl hs m h]
  case unexpected =>
    rw [exec_of_officeMessage hc, htag, State.deliverMessage_awaited hl hs m hp]
    refine congrArg _ ?_
    have starts := s.awaitsStart_iff
    have receives := s.receiving_iff
    cases m <;> simp only [State.awaited] at hm ⊢
    case accept => exact if_neg hm
    case defer => exact if_neg hm
    case refuse => exact if_neg hm
    case batchTaken => exact if_neg hm
    case fileStart => exact if_neg (mt starts.1 hm)
    case filePart serial first rs =>
      refine if_neg fun h => ?_
      simp only [Bool.and_eq_true, beq_iff_eq, inRange_iff] at h
      obtain ⟨⟨hr, hn⟩, hlo, hhi⟩ := h
      obtain ⟨hcol, hcount⟩ := receives.1 hr
      rcases hm with hm | rfl | hm
      · exact hm ⟨hcol, hcount, hn⟩
      · simp at hlo
      · omega
    case fileEnd serial =>
      refine if_neg fun h => ?_
      simp only [Bool.and_eq_true, beq_iff_eq] at h
      obtain ⟨hcol, hcount⟩ := receives.1 h.1
      exact hm ⟨hcol, hcount, h.2⟩
    case noResend serial =>
      refine if_neg fun h => ?_
      simp only [Bool.and_eq_true, beq_iff_eq] at h
      obtain ⟨⟨ha, hu⟩, hn⟩ := h
      obtain ⟨hcol, hcount⟩ := starts.1 ha
      rcases hm with hm | hm
      · exact hm ⟨hcol, hcount, hn⟩
      · rw [hu] at hm
        cases hm
    case other => rfl

/-- Settles O39: each event fails the attempt it finds in progress. -/
theorem failedAttemptsAreUndone : Obligations.FailedAttemptsAreUndone := by
  intro s hl
  have fails : ∀ c r, exec c s = .next (s.failAttempt r) → ∃ t, exec c s = .next t ∧ s.Stopped t ∧
      (s.CanRest → t.link.state = .resting ∧ t.link.restTimer = some (t.now + Config.minutes 10)) ∧
      (¬ s.CanRest → t.link.state = .done ∧ t.link.restTimer = none ∧
        ∃ a ∈ t.alerts.list, a.kind = .sessionFailed ∧ a.severity = .warn ∧ a.detail = .failure r none) := by
    intro c r hc
    obtain ⟨stopped, rested⟩ := s.failAttempt_spec r
    have now : (s.failAttempt r).now = s.now := s.failAttempt_keeps r .now (by decide)
    exact ⟨_, hc, stopped, fun h => ⟨(rested.resting h).1, now ▸ (rested.resting h).2.1⟩, rested.done⟩
  refine ⟨fun due hw hr => ⟨fun hst => ?noReply, fun hst => ?idle⟩, fun hs hst => ⟨?deferred, fun code => ?refused⟩,
    fun hs hst n hno => ?outOfOrder⟩
  case noReply =>
    have hexec : exec .sessionReplyTimeout s = .next
        (({ s with now := max s.now due, link := { s.link with replyTimer := none } } : State).failAttempt .noReply) := by
      refine (exec_sessionReplyTimeout hl hw hr).trans (congrArg _ (State.sessionEvent_fails ?_ _))
      exact hst
    obtain ⟨stopped, rested⟩ := State.failAttempt_spec
      ({ s with now := max s.now due, link := { s.link with replyTimer := none } } : State) .noReply
    have now := State.failAttempt_keeps
      ({ s with now := max s.now due, link := { s.link with replyTimer := none } } : State) .noReply .now (by decide)
    refine ⟨_, hexec, ⟨stopped.records, stopped.outstanding, stopped.window, stopped.toSend, stopped.replyTimer, stopped.office,
      stopped.heldParcel, stopped.collecting, stopped.kept⟩, fun h => ?_, fun h => rested.done h⟩
    have := rested.resting h
    exact ⟨this.1, now ▸ this.2.1⟩
  case idle =>
    refine (exec_sessionReplyTimeout hl hw hr).trans (congrArg _ (State.sessionEvent_idle ?_ _))
    exact hst
  case deferred =>
    refine fails _ _ ?_
    rw [exec_of_officeMessage rfl, State.deliverMessage_awaited hl hs _ (by rw [hst]; rfl)]
    simp [State.awaited, hst]
  case refused =>
    refine ⟨s.takeRefuse code, ?_, s.takeRefuse_spec code⟩
    rw [exec_of_officeMessage rfl, State.deliverMessage_awaited hl hs _ (by rw [hst]; rfl)]
    simp [State.awaited, hst]
  case outOfOrder =>
    refine fails _ _ ?_
    rw [exec_of_officeMessage rfl, State.deliverMessage_awaited hl hs _ (by rw [hst]; rfl)]
    refine congrArg _ ?_
    simp only [State.awaited, hst, if_true, State.takeBatchTaken]
    rcases hno with hw | ⟨b, rest, hw, hb⟩ <;> simp only [hw]
    refine if_neg fun h => ?_
    rcases hb with hb | hb
    · exact hb h.1
    · rw [hb] at h
      exact absurd h.2 (by decide)

/-- Settles O44: each frame of a file by whether it is the collected file's. -/
theorem trunkFilesAreCollected : Obligations.TrunkFilesAreCollected := by
  refine ⟨fun s f serial count check h hd => ?frames, fun s hl hs => ⟨exec_trunkCollectionTimeout_idle, fun ho hp => ?quiet⟩⟩
  case quiet =>
    refine (exec_trunkCollectionTimeout hl hs ho hp).trans (congrArg _ ?_)
    rw [State.dropTrunkFile_eq]
    simp only [State.reach, Link.forget]
    cases s.link.announce <;> rfl
  case frames =>
    have received : ∀ ok d, s.receivePlain f true ok d =
        if ok then d (s.heardFrom f.src id) else (s.heardFrom f.src id).bump .malformedFrames :=
      fun ok d => State.receive_all h hd ok id d
    have now : (s.heardFrom f.src id).now = s.now := s.heardFrom_now f.src id
    have book : (s.heardFrom f.src id).book = s.book := s.heardFrom_book f.src id
    generalize s.heardFrom f.src id = heard at received now book
    have collects := Staging.collects_iff heard.staging f.src serial
    have announced : exec (.fileAnnounceReceived f serial count check) s =
        .next (heard.takeAnnounce f.src serial count check) := congrArg _ (received true _)
    have closed : exec (.fileCloseReceived f serial count check) s =
        .next (heard.takeFileClose f.src serial count check) := congrArg _ (received true _)
    refine ⟨fun ho hh hc => ?taken, fun hcol => ?again, fun hno hwhy => ?ignored,
      fun first rs hser hlo hhi hcodes => ⟨fun hno => ?foreign, fun hcol => ?stored⟩, fun hno => ?notClosed,
      fun hcol hcount hcheck => ⟨fun hp hpos => ?released, fun hp => ?failed⟩⟩
    case taken =>
      rw [announced, State.takeAnnounce, if_pos ⟨ho, hh, hc⟩, now]
      rfl
    case again =>
      have hne : ¬(heard.staging.owner = .none ∧ heard.link.held < serial ∧ count ≤ Config.stagingCapacity) := by
        rw [hcol.1]
        exact fun hx => nomatch hx.1
      rw [announced, State.takeAnnounce, if_neg hne, if_pos (collects.2 hcol), now]
      rfl
    case ignored =>
      have hne : ¬(heard.staging.owner = .none ∧ heard.link.held < serial ∧ count ≤ Config.stagingCapacity) := by
        rintro ⟨ho, hh, hc⟩
        rcases hwhy with hw | hw | hw
        · exact hw ho
        · exact Nat.not_lt.2 hw hh
        · exact Nat.not_lt.2 hc hw
      rw [announced, State.takeAnnounce, if_neg hne, if_neg (mt collects.1 hno), now]
    case foreign =>
      refine congrArg _ ((received _ _).trans ?_)
      rw [if_pos (frameRecordsOk_of hlo hhi hcodes), if_neg hser, State.takeFileFrame, if_neg (mt collects.1 hno)]
    case stored =>
      obtain ⟨m, hstore, hput, hkeep⟩ := storeRecords_indexed first rs heard
      obtain rfl : heard.staging.serial = serial := hcol.2.2.2
      refine ⟨m, congrArg _ ((received _ _).trans ?_), hput, hkeep⟩
      rw [if_pos (frameRecordsOk_of hlo hhi hcodes), if_neg hser, State.takeFileFrame, if_pos (collects.2 hcol), hstore, now]
      simp only [State.withStaging, State.bumpBy_staging]
      rfl
    case notClosed =>
      have hfalse : ¬(heard.staging.collects f.src serial && heard.staging.count == some count &&
          heard.staging.check == some check) = true := by
        simp only [Bool.and_eq_true, beq_iff_eq, collects]
        tauto
      rw [closed, State.takeFileClose, if_neg hfalse]
    case released =>
      have htrue : (heard.staging.collects f.src serial && heard.staging.count == some count &&
          heard.staging.check == some check) = true := by
        simp only [Bool.and_eq_true, beq_iff_eq, collects]
        exact ⟨⟨hcol, hcount⟩, hcheck⟩
      have begun := State.beginRelease_trunk (s := heard.bump .trunkFilesTaken) (by simpa using hcol.1)
        (by simpa [hcount] using hpos)
      rw [closed, State.takeFileClose, if_pos htrue, if_pos hp, begun, State.bump_staging, State.bump_book, book]
    case failed =>
      have htrue : (heard.staging.collects f.src serial && heard.staging.count == some count &&
          heard.staging.check == some check) = true := by
        simp only [Bool.and_eq_true, beq_iff_eq, collects]
        exact ⟨⟨hcol, hcount⟩, hcheck⟩
      rw [closed, State.takeFileClose, if_pos htrue, hp]
      refine congrArg _ ?_
      simp only [Bool.false_eq_true, if_false, State.dropTrunkFile_eq, Link.forget]
      cases heard.link.announce <;> rfl

end

section
/-! PROOFS. How the session goes on: what no hand-over of its messages changes (R172 to R183), and the start of attempts
(R168 to R172). -/

namespace Sys2Proof.Machine

open Sys2Proof

variable {s t u : State}

/-! ### Counts that an operation leaves -/

/-- No count but those listed differs. -/
def Raises (l : List Count) (s t : State) : Prop := ∀ c, c ∉ l → t.count c = s.count c

theorem Raises.refl (l : List Count) (s : State) : Raises l s s := fun _ _ => rfl

theorem Raises.trans {l : List Count} (h : Raises l s t) (k : Raises l t u) : Raises l s u :=
  fun c hc => (k c hc).trans (h c hc)

theorem Raises.mono {l m : List Count} (h : Raises l s t) (hsub : l ⊆ m) : Raises m s t :=
  fun c hc => h c fun hl => hc (hsub hl)

theorem Raises.of_keeps {fs : List Field} (hk : keeps fs s t) (hf : .counts ∉ fs) (l : List Count) : Raises l s t :=
  fun c _ => by simp only [State.count, show t.counts = s.counts from hk .counts hf]

theorem Raises.bump (s : State) {c : Count} {l : List Count} (h : c ∈ l) : Raises l s (s.bump c) :=
  fun _ ha => State.count_bump_ne s fun e => ha (e ▸ h)

theorem Raises.recordAlert (s : State) (k : AlertKind) (v : Severity) (x : Subject) (d : Detail) {l : List Count}
    (h : [.alertsRecorded, .ackedAlertsRemoved, .alertOverflow] ⊆ l) : Raises l s (s.recordAlert k v x d) :=
  fun a ha => State.count_recordAlert s k v x d (fun e => ha (h (by simp [e]))) (fun e => ha (h (by simp [e]))) fun e => ha (h (by simp [e]))

/-- The counts of a frame that is not taken, or waits (R141). -/
def offerCounts : List Count := [.notTakenUrgent, .notTakenNotice, .notTakenBulk, .framesWaited]

theorem Raises.offer (s : State) (f : Frame) : Raises offerCounts s (s.offer f).2 := by
  have refused : notTakenCount f.body.trunkClass ∈ offerCounts := by
    cases f.body.trunkClass <;> decide
  unfold State.offer
  dsimp only
  repeat' split
  · exact Raises.bump s refused
  · exact Raises.of_keeps (s.withTrunk_keeps _) (by decide) _
  · exact Raises.bump s refused
  · exact Raises.of_keeps (s.withTrunk_keeps _) (by decide) _
  · exact Raises.refl _ s
  · exact (Raises.of_keeps (s.withTrunk_keeps _) (by decide) _).trans (Raises.bump _ (by decide))

/-! ### What the session's progress leaves (R172 to R183) -/

/-- A record without its sent mark, which attached memory does not keep (R66). -/
def JournalRecord.unmarked (r : JournalRecord) : JournalRecord := { r with sent := false }

/-- The journals differ in sent marks and outstanding batches alone (R71, R73). -/
structure Journal.Remarked (j k : Journal) : Prop where
  records : k.records.map JournalRecord.unmarked = j.records.map JournalRecord.unmarked
  counter : k.counter = j.counter
  high : k.high = j.high

theorem Journal.Remarked.refl (j : Journal) : j.Remarked j := ⟨rfl, rfl, rfl⟩

theorem Journal.Remarked.trans {j k m : Journal} (h : j.Remarked k) (i : k.Remarked m) : j.Remarked m :=
  ⟨i.records.trans h.records, i.counter.trans h.counter, i.high.trans h.high⟩

/-- Two session records of one attempt: its tag and the moments and numbers that only a start changes are the same. -/
structure Link.Follows (l m : Link) : Prop where
  tag : m.attemptTag = l.attemptTag
  attemptCount : m.attemptCount = l.attemptCount
  acked : m.acked = l.acked
  held : m.held = l.held
  lastEarly : m.lastEarly = l.lastEarly
  earlyPending : m.earlyPending = l.earlyPending

theorem Link.Follows.refl (l : Link) : l.Follows l := ⟨rfl, rfl, rfl, rfl, rfl, rfl⟩

theorem Link.Follows.trans {l m n : Link} (h : l.Follows m) (i : m.Follows n) : l.Follows n :=
  ⟨i.tag.trans h.tag, i.attemptCount.trans h.attemptCount, i.acked.trans h.acked, i.held.trans h.held,
    i.lastEarly.trans h.lastEarly, i.earlyPending.trans h.earlyPending⟩

/-- The counts that the session's messages, batches and the end of its attempt raise. -/
def proceedCounts : List Count := offerCounts ++
  [.undeliverable, .attemptsFailed, .attemptsCompleted, .clearings, .filesSkipped, .alertsRecorded, .ackedAlertsRemoved,
   .alertOverflow]

/-- The session goes on from `s` to `t`, or its attempt ends there; none starts. -/
structure State.Proceeds (s t : State) : Prop where
  journal : s.journal.Remarked t.journal
  link : s.link.Follows t.link
  counts : Raises proceedCounts s t

theorem State.Proceeds.refl (s : State) : s.Proceeds s := ⟨.refl _, .refl _, .refl _ _⟩

theorem State.Proceeds.trans (h : s.Proceeds t) (k : t.Proceeds u) : s.Proceeds u :=
  ⟨h.journal.trans k.journal, h.link.trans k.link, h.counts.trans k.counts⟩

/-- What leaves the journal, the session record and the counts leaves the session where it was. -/
theorem State.Proceeds.of_keeps {fs : List Field} (hk : keeps fs s t)
    (h : ∀ f ∈ [Field.journal, .link, .counts], f ∉ fs) : s.Proceeds t := by
  have journal : t.journal = s.journal := hk .journal (h _ (by decide))
  have link : t.link = s.link := hk .link (h _ (by decide))
  exact ⟨journal ▸ .refl _, link ▸ .refl _, .of_keeps hk (h _ (by decide)) _⟩

/-- A change of the session record that follows it. -/
theorem State.Proceeds.withLink (s : State) (f : Link → Link) (h : s.link.Follows (f s.link)) : s.Proceeds (s.withLink f) :=
  ⟨.refl _, h, .of_keeps (s.withLink_keeps f) (by decide) _⟩

theorem State.Proceeds.bump (s : State) {c : Count} (h : c ∈ proceedCounts) : s.Proceeds (s.bump c) := by
  refine ⟨?_, ?_, .bump s h⟩
  · rw [State.bump_journal]; exact .refl _
  · rw [State.bump_link]; exact .refl _

theorem State.Proceeds.recordAlert (s : State) (k : AlertKind) (v : Severity) (x : Subject) (d : Detail) :
    s.Proceeds (s.recordAlert k v x d) := by
  have kept := s.recordAlert_keeps k v x d
  have journal : (s.recordAlert k v x d).journal = s.journal := kept .journal (by decide)
  have link : (s.recordAlert k v x d).link = s.link := kept .link (by decide)
  exact ⟨journal ▸ .refl _, link ▸ .refl _, .recordAlert s k v x d (by decide)⟩

theorem State.Proceeds.offer (s : State) (f : Frame) : s.Proceeds (s.offer f).2 := by
  have kept := s.offer_keeps f
  have journal : (s.offer f).2.journal = s.journal := kept .journal (by decide)
  have link : (s.offer f).2.link = s.link := kept .link (by decide)
  exact ⟨journal ▸ .refl _, link ▸ .refl _, (Raises.offer s f).mono (by decide)⟩

/-! ### Its operations -/

theorem State.handSession_proceeds (s : State) (p : List Byte) : s.Proceeds (s.handSession p).2 := by
  have lost : ∀ x : State, ∀ q, x.Proceeds (x.relayLost true (sessionParcel s.self s.link.attemptTag q)) := fun x q =>
    State.Proceeds.bump x (by decide)
  have path : ∀ n, s.Proceeds (s.withFwd fun w => { w with sessionPath := some n }) := fun n =>
    .of_keeps (s.withFwd_keeps _) (by decide)
  unfold State.handSession
  dsimp only
  split
  · split
    · exact (path _).trans (.of_keeps (State.joinUplink_keeps _ _) (by decide))
    · exact (path _).trans (.of_keeps (State.withFwd_keeps _ _) (by decide))
  · split
    · exact .refl s
    · rename_i n _
      have offered := (path (.holder n)).trans (State.Proceeds.offer _
        (relayFrame n (sessionParcel s.self s.link.attemptTag p) .relayOut))
      split
      · exact offered
      · exact offered
      · exact offered.trans (lost _ p)

theorem State.attemptDone_proceeds (s : State) : s.Proceeds s.attemptDone :=
  (State.Proceeds.withLink s _ ⟨rfl, rfl, rfl, rfl, rfl, rfl⟩).trans (.bump _ (by decide))

theorem State.closing_proceeds (s : State) (ms : List OutMessage) (o : FileOutcome) : s.Proceeds (s.closing ms o) :=
  .withLink s _ ⟨rfl, rfl, rfl, rfl, rfl, rfl⟩

theorem State.onQueued_proceeds (s : State) (m : OutMessage) : s.Proceeds (s.onQueued m) := by
  unfold State.onQueued
  dsimp only
  generalize hu : (s.withLink fun l => { l with toSend := l.toSend.drop 1, waiting := false, replyTimer := _ }) = u
  have first : s.Proceeds u := hu ▸ .withLink s _ ⟨rfl, rfl, rfl, rfl, rfl, rfl⟩
  cases m with
  | batchPart serial part last run =>
    dsimp only
    split
    · exact first.trans (.withLink u _ ⟨rfl, rfl, rfl, rfl, rfl, rfl⟩)
    · exact first
  | skipFile n => exact (first.trans (u.closing_proceeds _ _)).trans (.bump _ (by decide))
  | fileBad n k second =>
    dsimp only
    split
    · exact first.trans (u.closing_proceeds _ _)
    · exact first
  | sessionEnd n o => exact first.trans u.attemptDone_proceeds
  | opening _ _ _ => exact first
  | fileWanted _ => exact first
  | fileTaken _ => exact first
  | fileRefused _ _ => exact first

theorem State.takeBatch_proceeds (s : State) (n : Nat) : s.Proceeds (s.takeBatch n).2 := by
  unfold State.takeBatch
  dsimp only
  split
  · exact .refl s
  split
  · exact .refl s
  · refine ⟨⟨?_, rfl, rfl⟩, .refl _, .of_keeps (s.withJournal_keeps _) (by decide) _⟩
    simp only [State.withJournal_journal, List.map_map]
    refine List.map_congr_left fun r _ => ?_
    simp only [Function.comp_apply]
    split <;> rfl

theorem State.joinBatch_proceeds (s : State) (rs : List JournalRecord) : s.Proceeds (s.joinBatch rs) := by
  unfold State.joinBatch
  exact .withLink s _ ⟨rfl, rfl, rfl, rfl, rfl, rfl⟩

theorem State.downloadDecision_proceeds (s : State) : s.Proceeds s.downloadDecision := by
  have link := fun (x : State) (f : Link → Link) (h : x.link.Follows (f x.link)) => State.Proceeds.withLink x f h
  unfold State.downloadDecision
  dsimp only
  split
  · exact s.closing_proceeds _ _
  split
  · exact (link s _ ⟨rfl, rfl, rfl, rfl, rfl, rfl⟩).trans (link _ _ ⟨rfl, rfl, rfl, rfl, rfl, rfl⟩)
  · exact ((link s _ ⟨rfl, rfl, rfl, rfl, rfl, rfl⟩).trans (.of_keeps (State.withStaging_keeps _ _) (by decide))).trans
      (link _ _ ⟨rfl, rfl, rfl, rfl, rfl, rfl⟩)

theorem State.clearSent_proceeds (s : State) : s.Proceeds s.clearSent := by
  have cleared : s.Proceeds (s.withJournal fun j =>
      { j with records := j.records.map fun r => { r with sent := false }, outstanding := [] }) := by
    refine ⟨⟨?_, rfl, rfl⟩, .refl _, .of_keeps (s.withJournal_keeps _) (by decide) _⟩
    simp only [State.withJournal_journal, List.map_map]
    rfl
  unfold State.clearSent
  dsimp only
  split
  · exact cleared.trans (.bump _ (by decide))
  · exact cleared

theorem State.stopAttempt_proceeds (s : State) : s.Proceeds s.stopAttempt :=
  ((((State.Proceeds.withLink s _ ⟨rfl, rfl, rfl, rfl, rfl, rfl⟩).trans (State.clearSent_proceeds _)).trans
    (.of_keeps (State.removeSessionParcels_keeps _) (by decide))).trans
    (.of_keeps (State.discardCollecting_keeps _) (by decide))).trans (.bump _ (by decide))

theorem State.restOrDone_proceeds (s : State) (r : FailReason) : s.Proceeds (s.restOrDone r) := by
  have link := fun (x : State) (f : Link → Link) (h : x.link.Follows (f x.link)) => State.Proceeds.withLink x f h
  unfold State.restOrDone
  dsimp only
  split
  · exact (link s _ ⟨rfl, rfl, rfl, rfl, rfl, rfl⟩).trans (link _ _ ⟨rfl, rfl, rfl, rfl, rfl, rfl⟩)
  · exact ((link s _ ⟨rfl, rfl, rfl, rfl, rfl, rfl⟩).trans (link _ _ ⟨rfl, rfl, rfl, rfl, rfl, rfl⟩)).trans
      (.recordAlert _ _ _ _ _)

theorem State.failAttempt_proceeds (s : State) (r : FailReason) : s.Proceeds (s.failAttempt r) :=
  s.stopAttempt_proceeds.trans (State.restOrDone_proceeds _ r)

theorem State.sessionEvent_proceeds (s : State) (r : FailReason) : s.Proceeds (s.sessionEvent r) := by
  unfold State.sessionEvent
  split
  · exact s.failAttempt_proceeds r
  · exact s.failAttempt_proceeds r
  · exact s.failAttempt_proceeds r
  · exact (State.Proceeds.of_keeps s.removeSessionParcels_keeps (by decide)).trans (State.attemptDone_proceeds _)
  · exact .refl s
  · exact .refl s
  · exact .refl s

/-- What the session hands over, and the batches it asks for, start no attempt and change no record. -/
theorem pump_proceeds (n : Nat) (s : State) : s.Proceeds (pump n s) := by
  induction n generalizing s with
  | zero => exact .refl s
  | succ n ih =>
    unfold pump
    split
    · exact .refl s
    split
    · rename_i m _ _
      have handed := s.handSession_proceeds (messageBytes m)
      generalize s.handSession (messageBytes m) = x at handed
      obtain ⟨ans, s1⟩ := x
      cases ans with
      | queued => exact (handed.trans (s1.onQueued_proceeds m)).trans (ih _)
      | waiting => exact handed.trans (.withLink s1 _ ⟨rfl, rfl, rfl, rfl, rfl, rfl⟩)
      | noRoute => exact handed.trans (s1.sessionEvent_proceeds _)
    · split
      · have taken := s.takeBatch_proceeds (s.link.cut.getD 0)
        generalize s.takeBatch (s.link.cut.getD 0) = x at taken
        obtain ⟨ans, s1⟩ := x
        cases ans with
        | windowFull => exact taken
        | noneLeft =>
          dsimp only
          split
          · exact (taken.trans s1.downloadDecision_proceeds).trans (ih _)
          · exact taken
        | batch rs => exact (taken.trans (s1.joinBatch_proceeds rs)).trans (ih _)
      · exact .refl s

theorem State.pumpSession_proceeds (s : State) : s.Proceeds s.pumpSession := pump_proceeds _ s

/-! ### Alerts recorded one after another (R200) -/

/-- `b` is the alert list `a` after at most `n` recordings. -/
inductive AlertList.Grows : Nat → AlertList → AlertList → Prop where
  | refl (n : Nat) (a : AlertList) : AlertList.Grows n a a
  | record {n : Nat} {a : AlertList} {s : State} (h : AlertList.Grows n a s.alerts) (k : AlertKind) (v : Severity) (x : Subject)
      (d : Detail) : AlertList.Grows (n + 1) a (s.recordAlert k v x d).alerts

theorem AlertList.Grows.mono {m n : Nat} {a b : AlertList} (h : AlertList.Grows m a b) (hmn : m ≤ n) : AlertList.Grows n a b := by
  induction h generalizing n with
  | refl => exact .refl n _
  | record _ k v x d ih =>
    obtain ⟨n, rfl⟩ : ∃ j, n = j + 1 := ⟨n - 1, by omega⟩
    exact .record (ih (by omega)) k v x d

theorem AlertList.Grows.trans {m n : Nat} {a b c : AlertList} (h : AlertList.Grows m a b) (k : AlertList.Grows n b c) :
    AlertList.Grows (m + n) a c := by
  induction k with
  | refl n => exact h.mono (by omega)
  | record _ k v x d ih => exact .record (ih h) k v x d

/-- The alert stands in the list with at most `k` behind it. -/
def AlertList.Recent (l : AlertList) (a : Alert) (k : Nat) : Prop :=
  ∃ before after, l.list = before ++ a :: after ∧ after.length ≤ k

theorem AlertList.Recent.mem {l : AlertList} {a : Alert} {k : Nat} (h : l.Recent a k) : a ∈ l.list := by
  obtain ⟨before, after, hl, -⟩ := h
  simp [hl]

theorem dropFirst_append {p : Alert → Bool} {a : Alert} (ha : p a = false) (before after : List Alert) :
    ∃ b c, dropFirst p (before ++ a :: after) = b ++ a :: c ∧ c.length ≤ after.length := by
  induction before with
  | nil =>
    refine ⟨[], dropFirst p after, by simp [dropFirst, ha], ?_⟩
    induction after with
    | nil => simp [dropFirst]
    | cons x l ih => simp only [dropFirst]; split <;> simp <;> omega
  | cons x l ih =>
    obtain ⟨b, c, hbc, hlen⟩ := ih
    simp only [List.cons_append, dropFirst]
    split
    · exact ⟨l, after, rfl, Nat.le_refl _⟩
    · exact ⟨x :: b, c, by rw [hbc]; rfl, hlen⟩

/-- A recording takes no unacknowledged alert away that has fewer than 63 behind it (R200). -/
theorem AlertList.Recent.record {a : Alert} {k : Nat} (h : s.alerts.Recent a k) (ha : a.acked = false) (hk : k + 1 < 64)
    (kind : AlertKind) (v : Severity) (x : Subject) (d : Detail) : (s.recordAlert kind v x d).alerts.Recent a (k + 1) := by
  obtain ⟨before, after, hl, hlen⟩ := h
  rw [State.recordAlert_alerts]
  generalize ({ serial := s.alerts.next, kind := kind, severity := v, time := s.unit.clock, subject := x, detail := d
                acked := false } : Alert) = new
  have kept : ∃ b c, (if s.alerts.list.length ≥ 64 then
      (if s.alerts.list.any (·.acked) then dropFirst (·.acked) s.alerts.list else s.alerts.list.drop 1)
      else s.alerts.list) = b ++ a :: c ∧ c.length ≤ after.length := by
    split
    · rename_i hfull
      split
      · rw [hl]
        exact dropFirst_append ha before after
      · obtain ⟨y, rest, rfl⟩ : ∃ y rest, before = y :: rest := by
          refine List.exists_cons_of_ne_nil fun e => ?_
          rw [hl, e] at hfull
          simp at hfull
          omega
        exact ⟨rest, after, by simp [hl], Nat.le_refl _⟩
    · exact ⟨before, after, hl, Nat.le_refl _⟩
  obtain ⟨b, c, hbc, hc⟩ := kept
  refine ⟨b, c ++ [new], ?_, by simp; omega⟩
  simp only [hbc, List.append_assoc, List.cons_append]

theorem AlertList.Recent.grows {l m : AlertList} {a : Alert} {n k : Nat} (hg : AlertList.Grows n l m) (h : l.Recent a k)
    (ha : a.acked = false) (hk : k + n < 64) : m.Recent a (k + n) := by
  induction hg with
  | refl n =>
    obtain ⟨before, after, hl, hlen⟩ := h
    exact ⟨before, after, hl, by omega⟩
  | record _ kind v x d ih => exact (ih h (by omega)).record ha (by omega) kind v x d

/-- The alert just recorded stands at the tail. -/
theorem State.recordAlert_recent (s : State) (k : AlertKind) (v : Severity) (x : Subject) (d : Detail) :
    ∃ a, (s.recordAlert k v x d).alerts.Recent a 0 ∧ a.kind = k ∧ a.severity = v ∧ a.subject = x ∧ a.detail = d ∧
      a.acked = false := by
  rw [State.recordAlert_alerts]
  exact ⟨_, ⟨_, [], rfl, Nat.le_refl _⟩, rfl, rfl, rfl, rfl, rfl⟩

/-- The alert recorded stays in the list while at most 62 follow it. -/
theorem State.recordAlert_stays {n : Nat} {k : AlertKind} {v : Severity} {x : Subject} {d : Detail} {l : AlertList}
    (hg : AlertList.Grows n (s.recordAlert k v x d).alerts l) (hn : n < 64) :
    ∃ a ∈ l.list, a.kind = k ∧ a.severity = v ∧ a.subject = x ∧ a.detail = d ∧ a.acked = false := by
  obtain ⟨a, hr, hk, hv, hx, hd, ha⟩ := s.recordAlert_recent k v x d
  exact ⟨a, (hr.grows hg ha (by omega)).mem, hk, hv, hx, hd, ha⟩

/-- The state `t` has the alerts of `s` and at most `n` recorded since. -/
def State.Alerts (n : Nat) (s t : State) : Prop := AlertList.Grows n s.alerts t.alerts

theorem State.Alerts.refl (n : Nat) (s : State) : State.Alerts n s s := AlertList.Grows.refl n _

theorem State.Alerts.trans {m n : Nat} (h : State.Alerts m s t) (k : State.Alerts n t u) : State.Alerts (m + n) s u :=
  AlertList.Grows.trans h k

theorem State.Alerts.mono {m n : Nat} (h : State.Alerts m s t) (hmn : m ≤ n) : State.Alerts n s t := AlertList.Grows.mono h hmn

theorem State.Alerts.of_keeps {fs : List Field} (hk : keeps fs s t) (hf : .alerts ∉ fs) (n : Nat) : State.Alerts n s t := by
  have same : t.alerts = s.alerts := hk .alerts hf
  rw [State.Alerts, same]
  exact .refl n _

theorem State.Alerts.recordAlert (s : State) (k : AlertKind) (v : Severity) (x : Subject) (d : Detail) :
    State.Alerts 1 s (s.recordAlert k v x d) := .record (.refl 0 s.alerts) k v x d

theorem State.restOrDone_alerts (s : State) (r : FailReason) : State.Alerts 1 s (s.restOrDone r) := by
  unfold State.restOrDone State.sessionFailed
  dsimp only
  split
  · exact .refl _ _
  · exact State.Alerts.recordAlert _ _ _ _ _

theorem State.failAttempt_alerts (s : State) (r : FailReason) : State.Alerts 1 s (s.failAttempt r) := by
  have stopped : State.Alerts 0 s s.stopAttempt := .of_keeps s.stopAttempt_keeps (by decide) 0
  exact stopped.trans (State.restOrDone_alerts _ r)

theorem State.sessionEvent_alerts (s : State) (r : FailReason) : State.Alerts 1 s (s.sessionEvent r) := by
  unfold State.sessionEvent
  split
  · exact s.failAttempt_alerts r
  · exact s.failAttempt_alerts r
  · exact s.failAttempt_alerts r
  all_goals exact .refl _ _

/-- Only the failure that ends the hand-over records an alert. -/
theorem pump_alerts (n : Nat) (s : State) : State.Alerts 1 s (pump n s) := by
  have none : ∀ {x y : State} {fs : List Field}, keeps fs x y → .alerts ∉ fs → State.Alerts 0 x y := fun hk hf => .of_keeps hk hf 0
  have ended : ∀ {x y z : State}, State.Alerts 0 x y → State.Alerts 1 y z → State.Alerts 1 x z := fun h k => h.trans k
  induction n generalizing s with
  | zero => exact .refl _ _
  | succ n ih =>
    unfold pump
    split
    · exact .refl _ _
    split
    · rename_i m _ _
      have handed := none (s.handSession_keeps (messageBytes m)) (by decide)
      generalize s.handSession (messageBytes m) = x at handed
      obtain ⟨ans, s1⟩ := x
      cases ans with
      | queued => exact ended (handed.trans (none (s1.onQueued_keeps m) (by decide))) (ih _)
      | waiting => exact handed.mono (by omega)
      | noRoute => exact ended handed (s1.sessionEvent_alerts _)
    · split
      · have taken := none (s.takeBatch_keeps (s.link.cut.getD 0)) (by decide)
        generalize s.takeBatch (s.link.cut.getD 0) = x at taken
        obtain ⟨ans, s1⟩ := x
        cases ans with
        | windowFull => exact taken.mono (by omega)
        | noneLeft =>
          dsimp only
          split
          · exact ended (taken.trans (none s1.downloadDecision_keeps (by decide))) (ih _)
          · exact taken.mono (by omega)
        | batch rs => exact ended (taken.trans (none (s1.joinBatch_keeps rs) (by decide))) (ih _)
      · exact .refl _ _

theorem State.startAttempt_alerts (s : State) (k : AttemptKind) : State.Alerts 1 s (s.startAttempt k) := by
  have opened : keeps [.link, .counts] s ((s.withLink fun l => l.opened s.self s.now s.journal.newestSerial s.journal.unsent k).bump
      (startedCount k)) := by simp
  exact (State.Alerts.of_keeps opened (by decide) 0).trans (pump_alerts _ _)

/-! ### A crossing of the high watermark (R69, R171) -/

/-- What the start of an attempt leaves of the journal, and the counts it leaves. -/
theorem State.startAttempt_spec (s : State) (k : AttemptKind) :
    (((s.withLink fun l => l.opened s.self s.now s.journal.newestSerial s.journal.unsent k).bump (startedCount k))).Proceeds
      (s.startAttempt k) := State.pumpSession_proceeds _

/-- The counts that the start of an attempt, or its refusal, may raise. -/
def crossingCounts : List Count := [.startsIgnored, .startedEarly] ++ proceedCounts

theorem State.earlyStart_spec (s : State) :
    s.journal.Remarked s.earlyStart.journal ∧ Raises crossingCounts s s.earlyStart ∧ State.Alerts 1 s s.earlyStart := by
  unfold State.earlyStart
  split
  · have spec := s.startAttempt_spec .early
    refine ⟨?_, ?_, s.startAttempt_alerts .early⟩
    · have := spec.journal
      rwa [State.bump_journal] at this
    · have opened : Raises crossingCounts s ((s.withLink fun l =>
          l.opened s.self s.now s.journal.newestSerial s.journal.unsent .early).bump .startedEarly) :=
        (Raises.of_keeps (s.withLink_keeps _) (by decide) _).trans (.bump _ (by decide))
      exact opened.trans (spec.counts.mono (by decide))
  · exact ⟨by rw [State.bump_journal]; exact .refl _, .bump s (by decide), .of_keeps (s.bump_keeps _) (by decide) 1⟩

theorem State.watermarkCrossed_spec (s : State) :
    s.journal.Remarked s.watermarkCrossed.journal ∧ Raises crossingCounts s s.watermarkCrossed ∧
      State.Alerts 1 s s.watermarkCrossed := by
  have noted : s.journal.Remarked (s.withLink fun l => { l with earlyPending := true }).journal ∧
      Raises crossingCounts s (s.withLink fun l => { l with earlyPending := true }) ∧
      State.Alerts 1 s (s.withLink fun l => { l with earlyPending := true }) :=
    ⟨.refl _, .of_keeps (s.withLink_keeps _) (by decide) _, .refl _ _⟩
  unfold State.watermarkCrossed
  split
  · exact noted
  · exact noted
  · exact s.earlyStart_spec
  · exact s.earlyStart_spec
  · exact ⟨.refl _, .refl _ _, .refl _ _⟩

theorem State.watermarkCrossed_listening (h : s.part = .listening) :
    s.watermarkCrossed = s.withLink fun l => { l with earlyPending := true } := by
  simp [State.watermarkCrossed, h]

/-! ### An accepted CLOSE (R42, R66, R68, R69) -/

/-- The journal with a record appended under the serial `n` (R66, R67). -/
def Journal.appended (j : Journal) (r : JournalRecord) (n : Nat) (crossed : Bool) : Journal :=
  { j with records := j.records ++ [{ r with serial := n, sent := false }], counter := nextCounter n
           high := crossed || j.high }

section Append
variable {n : Nat} (hc : s.journal.counter = .next n) (hlen : s.journal.records.length < 16384)
include hc hlen

theorem State.append_given (h : s.journal.records.length + 1 ≠ s.settings.highWatermark) (r : JournalRecord) :
    s.append r = (some (n, false), (s.withJournal fun j => j.appended r n false).bump .appendsTaken) := by
  have hroom : ¬ s.journal.records.length ≥ Config.journalCapacity := Nat.not_le.2 hlen
  simp only [State.append, hc, if_neg hroom, h, decide_false]
  rfl

theorem State.append_crossed (h : s.journal.records.length + 1 = s.settings.highWatermark) (r : JournalRecord) :
    s.append r = (some (n, true), ((s.withJournal fun j => j.appended r n true).bump .appendsTaken).recordAlert .journalHigh
      .warn .self (.count s.settings.highWatermark)) := by
  have hroom : ¬ s.journal.records.length ≥ Config.journalCapacity := Nat.not_le.2 hlen
  simp only [State.append, hc, if_neg hroom, h, decide_true, if_true]
  rfl

variable {l : LaneNo} {b : Basket} {r : TotalResult} (hb : (s.lane l).basket = some b) (hr : b.result = some r)
  (hv : ∃ y ∈ b.lines, y.void = false)
include hb hr hv

theorem State.actClose_given (h : s.journal.records.length + 1 ≠ s.settings.highWatermark) (x : Tender) :
    s.actClose l x = (some (.closed n (amountDue s.settings.cashStep r.total x)),
      ((s.withJournal fun j => j.appended (closedRecord l s.unit.clock x (amountDue s.settings.cashStep r.total x) r b) n
        false).bump .appendsTaken).withLane l fun y => { y with lastClosed := n, basket := none }) := by
  have hall : b.lines.all (·.void) = false := by
    obtain ⟨y, hy, hf⟩ := hv
    exact List.all_eq_false.2 ⟨y, hy, by simp [hf]⟩
  simp [State.actClose, hb, hr, hall, State.append_given hc hlen h]

theorem State.actClose_crossed (h : s.journal.records.length + 1 = s.settings.highWatermark) (x : Tender) :
    s.actClose l x = (some (.closed n (amountDue s.settings.cashStep r.total x)),
      ((((s.withJournal fun j => j.appended (closedRecord l s.unit.clock x (amountDue s.settings.cashStep r.total x) r b) n
        true).bump .appendsTaken).recordAlert .journalHigh .warn .self (.count s.settings.highWatermark)).withLane l
        fun y => { y with lastClosed := n, basket := none }).watermarkCrossed) := by
  have hall : b.lines.all (·.void) = false := by
    obtain ⟨y, hy, hf⟩ := hv
    exact List.all_eq_false.2 ⟨y, hy, by simp [hf]⟩
  simp [State.actClose, hb, hr, hall, State.append_crossed hc hlen h]

end Append

/-- What an accepted CLOSE that reaches the high watermark leaves for the crossing's notice (R42, R68, R69). -/
def State.crossingClose (s : State) (l : LaneNo) (n : Nat) (r : JournalRecord) : State :=
  (((((s.goodFrame l).touch l).withJournal fun j => j.appended r n true).bump .appendsTaken).recordAlert .journalHigh .warn .self
    (.count s.settings.highWatermark)).withLane l fun y => { y with lastClosed := n, basket := none }

section Crossing
variable (s) (l : LaneNo) (n : Nat) (r : JournalRecord)

theorem State.touched_keeps : keeps [.lanes] s ((s.goodFrame l).touch l) := by
  simp [State.touch_goodFrame]

theorem State.crossingClose_keeps : keeps [.lanes, .journal, .counts, .alerts] s (s.crossingClose l n r) := by
  unfold State.crossingClose
  simp only [keeps_withLane, keeps_recordAlert, keeps_bump, keeps_withJournal, List.cons_subset, List.mem_cons, true_or, or_true,
    List.nil_subset, and_self]
  exact (s.touched_keeps l).mono (by decide)

theorem State.crossingClose_journal : (s.crossingClose l n r).journal = s.journal.appended r n true := by
  simp only [State.crossingClose, State.withLane_journal, State.recordAlert_journal, State.bump_journal, State.withJournal_journal]
  rw [show ((s.goodFrame l).touch l).journal = s.journal from s.touched_keeps l .journal (by decide)]

theorem State.crossingClose_lane : ((s.crossingClose l n r).lane l).lastClosed = n ∧
    ((s.crossingClose l n r).lane l).basket = none := by
  simp [State.crossingClose]

/-- The state before JOURNAL-HIGH is recorded. -/
theorem State.crossingClose_recorded : ∃ u : State, keeps [.lanes, .journal] s u ∧
    (s.crossingClose l n r).alerts = ((u.bump .appendsTaken).recordAlert .journalHigh .warn .self
      (.count s.settings.highWatermark)).alerts ∧
    ∀ c, (s.crossingClose l n r).count c = ((u.bump .appendsTaken).recordAlert .journalHigh .warn .self
      (.count s.settings.highWatermark)).count c := by
  refine ⟨((s.goodFrame l).touch l).withJournal fun j => j.appended r n true, ?_, rfl, fun _ => rfl⟩
  simp only [keeps_withJournal, List.cons_subset, List.mem_cons, true_or, or_true, List.nil_subset, and_self]
  exact (s.touched_keeps l).mono (by decide)

theorem State.crossingClose_count {c : Count} (h : c ∉ [Count.alertsRecorded, .ackedAlertsRemoved, .alertOverflow]) :
    (s.crossingClose l n r).count c = (s.bump .appendsTaken).count c := by
  obtain ⟨u, hu, -, hcount⟩ := s.crossingClose_recorded l n r
  have same : u.count = s.count := funext fun c => by simp only [State.count, show u.counts = s.counts from hu .counts (by decide)]
  rw [hcount, Raises.recordAlert _ _ _ _ _ (List.Subset.refl _) c h, State.count_bump, State.count_bump, same]

end Crossing

section CrossingExec
variable {l : LaneNo} {bit : Bool} {x : Tender} {n : Nat} {b : Basket} {r : TotalResult} (h : s.TakesNew l bit .close)
  (hb : (s.lane l).basket = some b) (hr : b.result = some r) (hv : ∃ y ∈ b.lines, y.void = false)
  (hc : s.journal.counter = .next n) (hlen : s.journal.records.length < 16384)
include h hb hr hv hc hlen

theorem exec_close_given (hw : s.journal.records.length + 1 ≠ s.settings.highWatermark) :
    exec (.close l bit x) s = .next (((s.withJournal fun j => j.appended
      (closedRecord l s.unit.clock x (amountDue s.settings.cashStep r.total x) r b) n false).bump .appendsTaken).served l bit .close
      (.closed n (amountDue s.settings.cashStep r.total x)) fun y => { y with lastClosed := n, basket := none }) := by
  have found : (((s.goodFrame l).touch l).lane l).basket = some (b.active s.now) := by simp [hb]
  have journal : ((s.goodFrame l).touch l).journal = s.journal := s.touched_keeps l .journal (by decide)
  have given := State.actClose_given (s := (s.goodFrame l).touch l) (by rw [journal]; exact hc) (by rw [journal]; exact hlen) found
    (r := r) hr hv (by rw [journal]; exact hw) x
  rw [exec_close, h.request_reply given, ← State.answer_touched]
  rfl

theorem exec_close_crossed (hw : s.journal.records.length + 1 = s.settings.highWatermark) :
    exec (.close l bit x) s = .next ((s.crossingClose l n
      (closedRecord l s.unit.clock x (amountDue s.settings.cashStep r.total x) r b)).watermarkCrossed.answer l bit .close
        (.closed n (amountDue s.settings.cashStep r.total x))) := by
  have found : (((s.goodFrame l).touch l).lane l).basket = some (b.active s.now) := by simp [hb]
  have journal : ((s.goodFrame l).touch l).journal = s.journal := s.touched_keeps l .journal (by decide)
  have crossed := State.actClose_crossed (s := (s.goodFrame l).touch l) (by rw [journal]; exact hc) (by rw [journal]; exact hlen)
    found (r := r) hr hv (by rw [journal]; exact hw) x
  rw [exec_close, h.request_reply crossed]
  rfl

end CrossingExec

/-! ### The start of an attempt (R172) -/

/-- The session's next step has fuel. -/
theorem State.pumpSession_succ (s : State) : ∃ n, s.pumpSession = pump (n + 1) s :=
  ⟨s.pumpFuel - 1, by
    rw [State.pumpSession, Nat.sub_add_cancel]
    simp only [State.pumpFuel]
    omega⟩

/-- With no message to hand over, and none to ask a batch for, the session waits for an answer. -/
theorem pump_rests {n : Nat} (hu : s.link.state ≠ .uploading) (hs : s.link.toSend = []) : pump n s = s := by
  cases n <;> simp [pump, hu, hs]

/-- A frame that finds room in its queue joins it (R123). -/
theorem State.offer_queued {f : Frame} (hc : s.canSend = true)
    (hroom : (s.trunk.queue f.body.trunkClass).length < Config.queueCapacity f.body.trunkClass) :
    s.offer f = (.queued, s.withTrunk fun t => t.setQueue f.body.trunkClass (t.queue f.body.trunkClass ++ [f])) := by
  simp [State.offer, hc, hroom]

/-- A frame that may wait goes to the hold line of a full queue when its block has none there (R124). -/
theorem State.offer_held {f : Frame} (hc : s.canSend = true) (hw : f.body.waits = true)
    (hfull : Config.queueCapacity f.body.trunkClass ≤ (s.trunk.queue f.body.trunkClass).length)
    (hno : ∀ g ∈ s.trunk.hold f.body.trunkClass, g.sender ≠ f.sender) :
    s.offer f = (.waiting, (s.withTrunk fun t =>
      t.setHold f.body.trunkClass (t.hold f.body.trunkClass ++ [f])).bump .framesWaited) := by
  have hany : ((s.trunk.hold f.body.trunkClass).any fun g => g.sender == f.sender) = false := by
    simpa using hno
  simp [State.offer, hc, hw, Nat.not_lt.2 hfull, hany]

/-- The state in which an attempt starts to hand over OPEN (R172). -/
def State.opened (s : State) (k : AttemptKind) : State :=
  (s.withLink fun l => l.opened s.self s.now s.journal.newestSerial s.journal.unsent k).bump (startedCount k)

theorem State.startAttempt_eq (s : State) (k : AttemptKind) : s.startAttempt k = (s.opened k).pumpSession := rfl

section Opened
variable (s) (k : AttemptKind)

theorem State.opened_link : (s.opened k).link = s.link.opened s.self s.now s.journal.newestSerial s.journal.unsent k := by
  simp [State.opened]

theorem State.opened_keeps : keeps [.link, .counts] s (s.opened k) := by
  unfold State.opened
  simp

/-- The OPEN of the attempt (R172). -/
def State.opening (s : State) : OutMessage := .opening s.self s.link.held s.journal.unsent

theorem State.opened_toSend : (s.opened k).link.toSend = [s.opening] := by
  rw [State.opened_link]
  rfl

end Opened

/-- An attempt on this station's own uplink joins OPEN to the OFFICE queue, and awaits the answer (R156, R172). -/
theorem State.startAttempt_carried {k : AttemptKind} (h : (s.opened k).Carries [s.opening]) :
    s.startAttempt k = ({ s.opened k with fwd := (s.opened k).carried [s.opening] } : State).onQueued s.opening := by
  obtain ⟨n, -, hp⟩ := State.pumpSession_carries (s := s.opened k) (by rw [State.opened_link]; rfl) (by rw [State.opened_link]; rfl)
    (State.opened_toSend s k) h
  rw [State.startAttempt_eq, hp]
  refine pump_rests ?_ ?_
  · simp [State.onQueued, State.opening, State.opened_link, Link.opened]
  · simp [State.onQueued, State.opening, State.opened_link, Link.opened]

/-- The parcel in which the session sends a message to its holder (R143, R156). -/
theorem State.handSession_relayed {h : Station} {p : List Byte} (hup : s.fwd.up = false) (hh : s.fwd.holder = some h)
    (hc : s.canSend = true) (hroom : s.trunk.bulk.length < 32) :
    s.handSession p = (.queued, { s with
      fwd := { s.fwd with sessionPath := some (.holder h) }
      trunk := { s.trunk with bulk := s.trunk.bulk ++
        [relayFrame h (sessionParcel s.self s.link.attemptTag p) .relayOut] } }) := by
  have queued := State.offer_queued (s := s.withFwd fun w => { w with sessionPath := some (.holder h) })
    (f := relayFrame h (sessionParcel s.self s.link.attemptTag p) .relayOut) hc hroom
  conv_lhs => simp only [State.handSession, hup, Bool.false_eq_true, if_false, hh, queued]
  rfl

theorem State.handSession_held {h : Station} {p : List Byte} (hup : s.fwd.up = false) (hh : s.fwd.holder = some h)
    (hc : s.canSend = true) (hfull : 32 ≤ s.trunk.bulk.length) (hno : ∀ x ∈ s.trunk.holdBulk, x.sender ≠ .forwarding) :
    s.handSession p = (.waiting, { s.bump .framesWaited with
      fwd := { s.fwd with sessionPath := some (.holder h) }
      trunk := { s.trunk with holdBulk := s.trunk.holdBulk ++
        [relayFrame h (sessionParcel s.self s.link.attemptTag p) .relayOut] } }) := by
  have held := State.offer_held (s := s.withFwd fun w => { w with sessionPath := some (.holder h) })
    (f := relayFrame h (sessionParcel s.self s.link.attemptTag p) .relayOut) hc rfl hfull hno
  conv_lhs => simp only [State.handSession, hup, Bool.false_eq_true, if_false, hh, held]
  rfl

theorem State.handSession_noRoute {p : List Byte} (hup : s.fwd.up = false) (hh : s.fwd.holder = none) :
    s.handSession p = (.noRoute, s) := by
  simp [State.handSession, hup, hh]

section Pump
variable {m : OutMessage} {ms : List OutMessage} {n : Nat} (hp : s.link.state.inProgress = true)
  (hw : s.link.waiting = false) (hs : s.link.toSend = m :: ms)
include hp hw hs

theorem pump_queued (h : s.handSession (messageBytes m) = (.queued, t)) : pump (n + 1) s = pump n (t.onQueued m) := by
  simp [pump, hp, hw, hs, h]

theorem pump_waits (h : s.handSession (messageBytes m) = (.waiting, t)) :
    pump (n + 1) s = t.withLink fun l => { l with waiting := true } := by
  simp [pump, hp, hw, hs, h]

theorem pump_noRoute (h : s.handSession (messageBytes m) = (.noRoute, t)) : pump (n + 1) s = t.sessionEvent .noRoute := by
  simp [pump, hp, hw, hs, h]

end Pump

/-- The OPEN of an attempt is in hand, and no message waits. -/
theorem State.opened_ready (s : State) (k : AttemptKind) :
    (s.opened k).link.state.inProgress = true ∧ (s.opened k).link.waiting = false := by
  rw [State.opened_link]
  exact ⟨rfl, rfl⟩

theorem State.opened_fwd (s : State) (k : AttemptKind) : (s.opened k).fwd = s.fwd := s.opened_keeps k .fwd (by decide)
theorem State.opened_trunk (s : State) (k : AttemptKind) : (s.opened k).trunk = s.trunk := s.opened_keeps k .trunk (by decide)

theorem State.startAttempt_relayed {k : AttemptKind} {h : Station} (hup : s.fwd.up = false) (hh : s.fwd.holder = some h)
    (hc : s.canSend = true) (hroom : s.trunk.bulk.length < 32) :
    s.startAttempt k = ({ s.opened k with
      fwd := { s.fwd with sessionPath := some (.holder h) }
      trunk := { s.trunk with bulk := s.trunk.bulk ++ [relayFrame h
        (sessionParcel s.self (nextTag s.link.attemptTag) (messageBytes s.opening)) .relayOut] } } : State).onQueued s.opening := by
  obtain ⟨hp, hw⟩ := s.opened_ready k
  have handed := State.handSession_relayed (s := s.opened k) (p := messageBytes s.opening) (h := h)
    (by rw [State.opened_fwd]; exact hup) (by rw [State.opened_fwd]; exact hh)
    (State.canSend_of_keeps (s.opened_keeps k) (by decide) ▸ hc) (by rw [State.opened_trunk]; exact hroom)
  obtain ⟨n, hn⟩ := (s.opened k).pumpSession_succ
  rw [State.startAttempt_eq, hn, pump_queued hp hw (State.opened_toSend s k) handed, State.opened_fwd, State.opened_trunk]
  have tag : (s.opened k).link.attemptTag = nextTag s.link.attemptTag := by rw [State.opened_link]; rfl
  have self : (s.opened k).self = s.self := by
    rw [State.self, show (s.opened k).settings = s.settings from s.opened_keeps k .settings (by decide)]
  rw [tag, self]
  refine pump_rests ?_ ?_
  · simp [State.onQueued, State.opening, State.opened_link, Link.opened]
  · simp [State.onQueued, State.opening, State.opened_link, Link.opened]

theorem State.startAttempt_held {k : AttemptKind} {h : Station} (hup : s.fwd.up = false) (hh : s.fwd.holder = some h)
    (hc : s.canSend = true) (hfull : 32 ≤ s.trunk.bulk.length) (hno : ∀ x ∈ s.trunk.holdBulk, x.sender ≠ .forwarding) :
    s.startAttempt k = ({ (s.opened k).bump .framesWaited with
      fwd := { s.fwd with sessionPath := some (.holder h) }
      trunk := { s.trunk with holdBulk := s.trunk.holdBulk ++ [relayFrame h
        (sessionParcel s.self (nextTag s.link.attemptTag) (messageBytes s.opening)) .relayOut] } } : State).withLink fun l =>
          { l with waiting := true } := by
  obtain ⟨hp, hw⟩ := s.opened_ready k
  have handed := State.handSession_held (s := s.opened k) (p := messageBytes s.opening) (h := h)
    (by rw [State.opened_fwd]; exact hup) (by rw [State.opened_fwd]; exact hh)
    (State.canSend_of_keeps (s.opened_keeps k) (by decide) ▸ hc) (by rw [State.opened_trunk]; exact hfull)
    (by rw [State.opened_trunk]; exact hno)
  obtain ⟨n, hn⟩ := (s.opened k).pumpSession_succ
  rw [State.startAttempt_eq, hn, pump_waits hp hw (State.opened_toSend s k) handed, State.opened_fwd, State.opened_trunk]
  have tag : (s.opened k).link.attemptTag = nextTag s.link.attemptTag := by rw [State.opened_link]; rfl
  have self : (s.opened k).self = s.self := by
    rw [State.self, show (s.opened k).settings = s.settings from s.opened_keeps k .settings (by decide)]
  rw [tag, self]

/-- An attempt with no route fails at once (R172, R182). -/
theorem State.startAttempt_noRoute {k : AttemptKind} (hup : s.fwd.up = false) (hh : s.fwd.holder = none) :
    s.startAttempt k = (s.opened k).failAttempt .noRoute := by
  obtain ⟨hp, hw⟩ := s.opened_ready k
  have handed := State.handSession_noRoute (s := s.opened k) (p := messageBytes s.opening)
    (by rw [State.opened_fwd]; exact hup) (by rw [State.opened_fwd]; exact hh)
  obtain ⟨n, hn⟩ := (s.opened k).pumpSession_succ
  rw [State.startAttempt_eq, hn, pump_noRoute hp hw (State.opened_toSend s k) handed]
  exact State.sessionEvent_fails (.inl (by rw [State.opened_link]; rfl)) _

/-- A failed attempt is counted once (R189). -/
theorem State.failAttempt_count (s : State) (r : FailReason) :
    (s.failAttempt r).count .attemptsFailed = min (s.count .attemptsFailed + 1) 4294967295 := by
  have before : Raises [Count.clearings] s ((s.withLink Link.attemptOver).clearSent.removeSessionParcels.discardCollecting) := by
    have cleared : Raises [Count.clearings] (s.withLink Link.attemptOver) (s.withLink Link.attemptOver).clearSent := by
      unfold State.clearSent
      dsimp only
      split
      · exact (Raises.of_keeps (State.withJournal_keeps _ _) (by decide) _).trans (.bump _ (by decide))
      · exact .of_keeps (State.withJournal_keeps _ _) (by decide) _
    exact (((Raises.of_keeps (s.withLink_keeps _) (by decide) _).trans cleared).trans
      (.of_keeps (State.removeSessionParcels_keeps _) (by decide) _)).trans (.of_keeps (State.discardCollecting_keeps _) (by decide) _)
  have stopped : s.stopAttempt.count .attemptsFailed = min (s.count .attemptsFailed + 1) 4294967295 := by
    rw [State.stopAttempt, State.count_bump, if_pos rfl, before _ (by decide)]
  have after : Raises [Count.alertsRecorded, .ackedAlertsRemoved, .alertOverflow] s.stopAttempt (s.failAttempt r) := by
    unfold State.failAttempt State.restOrDone State.sessionFailed
    dsimp only
    split
    · exact Raises.of_keeps (by simp : keeps [.link] s.stopAttempt _) (by decide) _
    · exact (Raises.of_keeps (by simp : keeps [.link] s.stopAttempt ((s.stopAttempt.withLink _).withLink _)) (by decide) _).trans
        (.recordAlert _ _ _ _ _ (by decide))
  exact (after _ (by decide)).trans stopped

/-! ### The session's timers (R168, R169, R183) -/

/-- The session record as its one-second timer expires. -/
def State.ticked (s : State) : State :=
  { s with now := max s.now s.link.timer, link := { s.link with timer := s.link.timer + Config.seconds 1 } }

theorem exec_sessionSecondTimer_held (hl : s.live = true) (hw : s.working = false) :
    exec .sessionSecondTimer s = .next s.ticked := by
  have same : ((s.reach s.link.timer).withLink fun l => { l with timer := l.timer + Config.seconds 1 }).working = false := hw
  simp only [exec, execSessionSecondTimer, hl, if_true, same]
  rfl

theorem exec_sessionSecondTimer (hl : s.live = true) (hw : s.working = true) :
    exec .sessionSecondTimer s = .next s.ticked.openWindow.testResting.testWindowStart := by
  have same : ((s.reach s.link.timer).withLink fun l => { l with timer := l.timer + Config.seconds 1 }).working = true := hw
  simp only [exec, execSessionSecondTimer, hl, if_true, same]
  rfl

theorem exec_restTimerExpiry {due : Nat} (hl : s.live = true) (hw : s.working = true) (hr : s.link.restTimer = some due) :
    exec .restTimerExpiry s = .next
      ({ s with now := max s.now due, link := { s.link with restTimer := none } } : State).testWindowStart := by
  simp only [exec, execRestTimerExpiry, hr, hl, hw, Bool.and_self, if_true]
  rfl

theorem State.quietMode_iff (s : State) : s.quietMode = true ↔ s.unit.mode = .late ∨ s.unit.mode = .closed := by
  simp [State.quietMode]

theorem State.openWindow_none (h : s.window = none) : s.openWindow = s := by simp [State.openWindow, h]

theorem State.openWindow_same {day left : Nat} (h : s.window = some (day, left)) (hd : s.link.windowDay = some day) :
    s.openWindow = s := by simp [State.openWindow, h, hd]

theorem State.openWindow_new {day left : Nat} (h : s.window = some (day, left)) (hd : s.link.windowDay ≠ some day)
    (hs : s.link.state = .done ∨ s.link.state = .idle) :
    s.openWindow = s.withLink fun l => { l with windowDay := some day, attemptCount := 0, state := .idle } := by
  rcases hs with hs | hs <;> simp [State.openWindow, h, hd, hs, State.withLink]

/-- The opening of a window leaves a rest in progress. -/
theorem State.openWindow_resting (s : State) (h : s.link.state = .resting) :
    s.openWindow.link.state = .resting ∧ keeps [.link] s s.openWindow := by
  unfold State.openWindow
  split
  · exact ⟨h, keeps.refl _ s⟩
  · split
    · exact ⟨h, keeps.refl _ s⟩
    · exact ⟨by simp [h], s.withLink_keeps _⟩

theorem State.testResting_not (h : s.link.state ≠ .resting) : s.testResting = s := by simp [State.testResting, h]

theorem State.testResting_far {day left : Nat} (h : s.window = some (day, left)) (hl : 600 < left) : s.testResting = s := by
  simp [State.testResting, h, Nat.not_le.2 hl]

/-- A rest that has become useless ends with an alert (R183). -/
theorem State.testResting_near (h : s.link.state = .resting)
    (hw : s.window = none ∨ ∃ day left, s.window = some (day, left) ∧ left ≤ 600) :
    s.testResting = s.sessionFailed (s.link.lastFailure.getD .noReply) none := by
  rcases hw with hw | ⟨day, left, hw, hl⟩
  · simp [State.testResting, h, hw]
  · simp [State.testResting, h, hw, hl]

theorem State.testWindowStart_starts (hs : s.link.state = .idle ∨ (s.link.state = .resting ∧ s.link.restTimer = none))
    (hw : s.window ≠ none) (hq : s.unit.mode = .late ∨ s.unit.mode = .closed) (hc : s.link.attemptCount < 3) :
    s.testWindowStart = s.startAttempt .window := by
  have ready : (s.link.state == .idle || (s.link.state == .resting && s.link.restTimer.isNone)) = true := by
    rcases hs with h | ⟨h, hr⟩
    · simp [h]
    · simp [h, hr]
  have window : s.window.isSome = true := Option.isSome_iff_ne_none.2 hw
  simp [State.testWindowStart, ready, window, s.quietMode_iff.2 hq, hc]

theorem State.testWindowStart_not (h : (s.link.state ≠ .idle ∧ (s.link.state ≠ .resting ∨ s.link.restTimer ≠ none)) ∨
    s.window = none ∨ ¬(s.unit.mode = .late ∨ s.unit.mode = .closed) ∨ 3 ≤ s.link.attemptCount) : s.testWindowStart = s := by
  have no : (((s.link.state == .idle || (s.link.state == .resting && s.link.restTimer.isNone)) && s.window.isSome && s.quietMode
      && decide (s.link.attemptCount < 3)) : Bool) = false := by
    rcases h with ⟨hi, hr⟩ | h | h | h
    · rcases hr with hr | hr
      · simp [hi, hr]
      · simp [hi, hr]
    · simp [h]
    · simp [Bool.eq_false_iff.2 (mt s.quietMode_iff.1 h)]
    · simp [Nat.not_lt.2 h]
  simp only [State.testWindowStart, no, Bool.false_eq_true, if_false]

/-! ### Early attempts (R171) -/

/-- The conditions of R171 for an attempt of kind EARLY. -/
def State.StartsEarly (s : State) : Prop :=
  (s.unit.mode = .late ∨ s.unit.mode = .closed) ∧ s.link.state.inProgress = false ∧
    ∀ x, s.link.lastEarly = some x → x + Config.minutes 60 ≤ s.now

theorem State.watermarkCrossed_working (h : s.working = true) : s.watermarkCrossed = s.earlyStart := by
  revert h
  unfold State.working State.watermarkCrossed
  cases s.part <;> simp

theorem State.startsEarly_iff (s : State) : (s.quietMode && !s.link.state.inProgress
    && s.link.lastEarly.all (fun t => decide (t + Config.minutes 60 ≤ s.now))) = true ↔ s.StartsEarly := by
  rw [Bool.and_eq_true, Bool.and_eq_true, s.quietMode_iff, Bool.not_eq_true', Option.all_eq_true, State.StartsEarly, and_assoc]
  simp only [decide_eq_true_eq]

theorem State.earlyStart_starts (h : s.StartsEarly) : s.earlyStart = s.startAttempt .early :=
  if_pos (s.startsEarly_iff.2 h)

theorem State.earlyStart_refused (h : ¬ s.StartsEarly) : s.earlyStart = s.bump .startsIgnored :=
  if_neg (mt s.startsEarly_iff.1 h)

/-- An attempt of kind EARLY takes the next tag and the present as the last early start, and is counted (R171, R172). -/
theorem State.startAttempt_early (s : State) : (s.startAttempt .early).link.lastEarly = some s.now ∧
    (s.startAttempt .early).link.attemptTag = (if s.link.attemptTag < 65535 then s.link.attemptTag + 1 else 1) ∧
    (s.startAttempt .early).link.earlyPending = s.link.earlyPending ∧
    (s.startAttempt .early).count .startedEarly = min (s.count .startedEarly + 1) 4294967295 := by
  have spec := s.startAttempt_spec .early
  have link := spec.link
  rw [State.bump_link] at link
  refine ⟨link.lastEarly, link.tag, link.earlyPending, (spec.counts _ (by decide)).trans ?_⟩
  rw [startedCount, State.count_bump, if_pos rfl]
  rfl

/-! ### The end of the listening period (R207) -/

/-- The counts that the shelf work of the price book unit may raise. -/
def shelfCounts : List Count := offerCounts ++ [.reportsDropped, .recordsStale]

section Shelf

theorem Raises.foldl {α : Type} {l : List Count} {g : State → α → State} (h : ∀ x a, Raises l x (g x a)) (as : List α) (s : State) :
    Raises l s (as.foldl g s) := by
  induction as generalizing s with
  | nil => exact .refl _ s
  | cons a as ih => exact (h s a).trans (ih _)

theorem Raises.send (s : State) (f : Frame) : Raises shelfCounts s (s.send f) := (Raises.offer s f).mono (by decide)

theorem State.retarget_raises (s : State) (n : Nat) (x : Target) : Raises shelfCounts s (s.retarget n x) := by
  have put : ∀ o, Raises shelfCounts s (s.putOwned n o) := fun o => .of_keeps (s.putOwned_keeps n o) (by decide) _
  unfold State.retarget
  split
  · exact .refl _ s
  · dsimp only
    split
    · exact put _
    · exact put _
    · exact put _
    · exact put _
    · split
      · exact put _
      · exact (put _).trans (Raises.send _ _)

theorem State.unbindAll_raises (s : State) (a : Nat) : Raises shelfCounts s (s.unbindAll a) := by
  refine Raises.foldl (fun x n => ?_) _ s
  unfold State.unbindOne
  split
  · exact .refl _ x
  · exact ((Raises.of_keeps (x.putOwned_keeps _ _) (by decide) _).trans (State.retarget_raises _ _ _)).trans
      (.of_keeps (State.uncountBound_keeps _ _) (by decide) _)

theorem State.complete_raises (s : State) (a : Nat) (c : Changeover) : Raises shelfCounts s (s.complete a c) := by
  have book : ∀ {x y : State}, keeps [.book] x y → Raises shelfCounts x y := fun h => .of_keeps h (by decide) _
  unfold State.complete
  split
  · exact book (s.modifyEntry_keeps _ _)
  · have unbound := s.unbindAll_raises a
    dsimp only
    split
    · exact unbound.trans (book (State.removeEntry_keeps _ _))
    · split
      · exact unbound.trans (book (State.modifyEntry_keeps _ _ _))
      · exact (unbound.trans (book (State.removeEntry_keeps _ _))).trans (.bump _ (by decide))

theorem State.release_raises (s : State) (a : Nat) (c : Changeover) (n : Station) : Raises shelfCounts s (s.release a c n) := by
  have modified : ∀ f, Raises shelfCounts s (s.modifyEntry a f) := fun f => .of_keeps (s.modifyEntry_keeps a f) (by decide) _
  unfold State.release
  dsimp only
  split
  · exact (modified _).trans (State.complete_raises _ _ _)
  · exact modified _

theorem State.addReport_raises (s : State) (r : Report) : Raises shelfCounts s (s.addReport r) := by
  have book : ∀ f, Raises shelfCounts s (s.withBook f) := fun f => .of_keeps (s.withBook_keeps f) (by decide) _
  unfold State.addReport
  split
  · exact book _
  split
  · exact book _
  · exact (book _).trans (.bump _ (by decide))

theorem State.formReports_raises (s : State) : Raises shelfCounts s s.formReports := by
  unfold State.formReports
  split
  · exact .refl _ s
  · exact (Raises.send s _).trans (.of_keeps (State.withBook_keeps _ _) (by decide) _)

theorem State.localDone_raises (s : State) (a v : Nat) : Raises shelfCounts s (s.localDone a v) := by
  unfold State.localDone
  split
  · exact .refl _ s
  split
  · exact .refl _ s
  · exact .refl _ s
  split
  · exact ((s.addReport_raises _).trans (State.release_raises _ _ _ _)).trans (State.formReports_raises _)
  · exact .refl _ s

theorem State.listeningShelfCheck_raises (s : State) : Raises shelfCounts s s.listeningShelfCheck := by
  refine Raises.foldl (fun x a => ?_) _ s
  unfold State.listeningCheck
  split
  · exact .refl _ x
  split
  · exact .refl _ x
  · exact .refl _ x
  split
  · exact x.localDone_raises _ _
  · exact .refl _ x

end Shelf

/-- With no attempt in progress the holder is judged without the session. -/
theorem State.judgeHolder_idle (h : s.link.state.inProgress = false) : keeps [.fwd, .counts] s s.judgeHolder ∧
    Raises [.holderChanges] s s.judgeHolder := by
  have changed : ∀ f, keeps [.fwd, .counts] s ((s.withFwd f).bump .holderChanges) ∧
      Raises [.holderChanges] s ((s.withFwd f).bump .holderChanges) := fun f =>
    ⟨by simp, (Raises.of_keeps (s.withFwd_keeps f) (by decide) _).trans (.bump _ (by decide))⟩
  unfold State.judgeHolder
  dsimp only
  split
  · exact ⟨keeps.refl _ s, .refl _ s⟩
  · split
    · exact changed _
    · split
      · have idle : ((s.withFwd fun w => { w with holder := s.judgedHolder }).bump .holderChanges).link.state.inProgress = false := by
          simpa using h
        rw [State.sessionEvent_idle idle]
        exact changed _
      · exact changed _

theorem exec_listeningTimerExpiry {due : Nat} (hl : s.live = true) (ht : s.listenTimer = some due) (hp : s.part = .listening) :
    exec .listeningTimerExpiry s = .next
      ({ s with now := max s.now due, listenTimer := none, part := .running } : State).endListening := by
  simp only [exec, execListeningTimerExpiry, ht, hl, if_true]
  simp only [State.reach, hp, if_true]

/-- The end of the listening period with a crossing noted and no attempt in progress: the crossing is judged once the shelves,
the reference and the holder have been (R171, R207). -/
theorem State.endListening_idle (hi : s.link.state.inProgress = false) (hp : s.link.earlyPending = true) :
    ∃ v : State, (v.link = { s.link with earlyPending := false } ∧ v.part = s.part ∧ v.unit = s.unit ∧ v.now = s.now) ∧
      Raises (.holderChanges :: shelfCounts) s v ∧ s.endListening = v.watermarkCrossed := by
  have shelves : keeps [.book, .labels, .trunk, .counts] s s.listeningShelfCheck.judgeReference :=
    ((s.listeningShelfCheck_keeps).trans ((State.judgeReference_keeps _).mono (by decide)))
  have raised : Raises shelfCounts s s.listeningShelfCheck.judgeReference :=
    s.listeningShelfCheck_raises.trans (.of_keeps (State.judgeReference_keeps _) (by decide) _)
  have same : s.listeningShelfCheck.judgeReference.link = s.link := shelves .link (by decide)
  generalize hx : s.listeningShelfCheck.judgeReference = x at shelves raised same
  obtain ⟨judged, counted⟩ := State.judgeHolder_idle (s := x) (by rw [same]; exact hi)
  have kept : keeps [.book, .labels, .trunk, .counts, .fwd] s x.judgeHolder := (shelves.mono (by decide)).trans (judged.mono (by decide))
  have link : x.judgeHolder.link = s.link := kept .link (by decide)
  refine ⟨x.judgeHolder.withLink fun l => { l with earlyPending := false }, ⟨by simp [link], kept .part (by decide),
    kept .unit (by decide), kept .now (by decide)⟩, ?_, ?_⟩
  · exact ((raised.mono (by decide)).trans (counted.mono (by decide))).trans (.of_keeps (State.withLink_keeps _ _) (by decide) _)
  · rw [State.endListening, hx, State.takeEarlyNotice, link, hp]
    rfl

end Sys2Proof.Machine

/-! ### The statements -/

open Sys2Proof Sys2Proof.Machine

/-- Settles O10: the record is appended before the crossing is noted, and what the crossing starts only marks records. -/
theorem closeAppendsJournalRecord : Obligations.CloseAppendsJournalRecord := by
  refine ⟨fun l bit x n s b r h hb hr hv hc hlen hw => exec_close_given h hb hr hv hc hlen hw,
    fun l bit x n s b r h hb hr hv hc hlen hw => ?crossed⟩
  case crossed =>
    refine ⟨_, exec_close_crossed h hb hr hv hc hlen hw, ?_⟩
    generalize hrec : closedRecord l s.unit.clock x (amountDue s.settings.cashStep r.total x) r b = rec
    have journal := s.crossingClose_journal l n rec
    have lane := s.crossingClose_lane l n rec
    have counted := s.crossingClose_count l n rec (c := .appendsTaken) (by decide)
    obtain ⟨u, hu, halerts, -⟩ := s.crossingClose_recorded l n rec
    have part : (s.crossingClose l n rec).part = s.part := s.crossingClose_keeps l n rec .part (by decide)
    have link : (s.crossingClose l n rec).link = s.link := s.crossingClose_keeps l n rec .link (by decide)
    generalize s.crossingClose l n rec = w at journal lane counted halerts part link
    obtain ⟨marks, counts, alerts⟩ := w.watermarkCrossed_spec
    have lanes := State.lane_of_keeps w.watermarkCrossed_keeps (by decide) l
    rw [journal] at marks
    refine ⟨marks.high, marks.counter, marks.records.trans ?_, ?_, ?_, ?_, ?_, ?_, fun hp => ?_⟩
    · rw [← hrec]; rfl
    · refine (counts _ (by decide)).trans (counted.trans ?_)
      rw [State.count_bump, if_pos rfl]
    · simp [State.answer]
    · simp [State.answer, lanes, lane.1]
    · simp [State.answer, lanes, lane.2]
    · have grown : AlertList.Grows 1 ((u.bump .appendsTaken).recordAlert .journalHigh .warn .self
          (.count s.settings.highWatermark)).alerts w.watermarkCrossed.alerts := halerts ▸ alerts
      obtain ⟨a, ha, hk, hsev, hsub, hd, -⟩ := State.recordAlert_stays grown (by decide)
      exact ⟨a, ha, hk, hsub, hsev, hd⟩
    · have noted := State.watermarkCrossed_listening (part.trans hp)
      refine ⟨?_, ?_⟩
      · rw [noted, ← link]
        rfl
      · rw [noted]
        refine Eq.trans (b := w.journal) rfl ?_
        rw [journal, ← hrec]
        rfl

/-- Settles O38: the start by the path OPEN finds, the timers and the crossing by the tests that precede a start. -/
theorem attemptsAreStarted : Obligations.AttemptsAreStarted := by
  refine ⟨fun s k => ⟨fun hup hsend hroom => ?own, fun h hup hh hc => ⟨fun hroom => ?relayed, fun hfull hno => ?held⟩,
      fun hup hh => ?noRoute⟩,
    fun s hl => ⟨exec_sessionSecondTimer_held hl, fun hw => ⟨fun hnone hr => ?noWindow, fun day left hwin =>
      ⟨fun hd hs hq hc => ?idle, fun hd hs hq => ?newDay, fun hd hs hq => ?newStart, fun hd hs hleft hq => ?resting⟩,
      fun hr hnear => ?near, fun due hdue => ⟨fun hr hwin hq hc => ?restOver, fun hno => ?restEnds⟩⟩⟩,
    fun s => ⟨fun hw => ⟨fun h => ?early, fun h => ?ignored⟩, State.watermarkCrossed_listening⟩,
    fun l bit x n s b r h hb hr hv hc hlen hw hwork hq hi he => ?close,
    fun s due hl ht hp hpend hq hi he => ?listening⟩
  case own =>
    have carries : (s.opened k).Carries [s.opening] := by
      refine ⟨by rw [State.opened_fwd]; exact hup, by rw [State.opened_fwd]; exact hsend, ?_⟩
      rw [State.officeBytes, State.opened_fwd]
      exact hroom
    rw [State.startAttempt_carried carries]
    cases k <;> rfl
  case relayed =>
    rw [State.startAttempt_relayed hup hh hc hroom]
    cases k <;> rfl
  case held =>
    rw [State.startAttempt_held hup hh hc hfull hno]
    cases k <;> rfl
  case noRoute =>
    intro tm rests
    have htm : tm = (s.opened k).failAttempt .noRoute := State.startAttempt_noRoute hup hh
    obtain ⟨stopped, rested⟩ := (s.opened k).failAttempt_spec .noRoute
    have proceeds := (s.opened k).failAttempt_proceeds .noRoute
    have kept := (s.opened k).failAttempt_keeps .noRoute
    have link := proceeds.link
    rw [State.opened_link] at link
    have failure : ((s.opened k).failAttempt .noRoute).link.lastFailure = some .noRoute := by
      rw [State.failAttempt, State.restOrDone_link]
      split <;> rfl
    have office := stopped.office
    rw [State.self, show (s.opened k).settings = s.settings from s.opened_keeps k .settings (by decide), State.opened_fwd] at office
    have trunk : ((s.opened k).failAttempt .noRoute).trunk = s.trunk := (kept .trunk (by decide)).trans (s.opened_trunk k)
    have canRest : (s.opened k).CanRest ↔ rests := by
      simp only [State.CanRest, State.opened_link, rests]
      have unit : (s.opened k).unit = s.unit := s.opened_keeps k .unit (by decide)
      have settings : (s.opened k).settings = s.settings := s.opened_keeps k .settings (by decide)
      simp only [State.window, unit, settings]
      rfl
    have now : (s.opened k).now = s.now := s.opened_keeps k .now (by decide)
    have alerts : (s.opened k).alerts = s.alerts := s.opened_keeps k .alerts (by decide)
    rw [htm]
    refine ⟨link.tag, link.attemptCount, failure, stopped.toSend, stopped.replyTimer, office, trunk, ?_, ?_,
      fun h => ?_, fun h => rested.done (mt canRest.1 h)⟩
    · cases k <;> exact (proceeds.counts _ (by decide)).trans ((State.count_bump _ _ _).trans (if_pos rfl))
    · rw [State.failAttempt_count]
      have other : (s.opened k).count .attemptsFailed = s.count .attemptsFailed := by
        cases k <;> exact State.count_bump_ne _ (by decide)
      rw [other]
    · obtain ⟨hstate, htimer, halerts⟩ := rested.resting (canRest.2 h)
      exact ⟨hstate, now ▸ htimer, alerts ▸ halerts⟩
  case noWindow =>
    refine (exec_sessionSecondTimer hl hw).trans (congrArg _ ?_)
    rw [State.openWindow_none (s := s.ticked) hnone, State.testResting_not (s := s.ticked) hr,
      State.testWindowStart_not (s := s.ticked) (.inr (.inl hnone))]
    rfl
  case idle =>
    refine (exec_sessionSecondTimer hl hw).trans (congrArg _ ?_)
    rw [State.openWindow_same (s := s.ticked) hwin hd, State.testResting_not (s := s.ticked) (by simp [State.ticked, hs]),
      State.testWindowStart_starts (s := s.ticked) (.inl hs) (by rw [show s.ticked.window = _ from hwin]; simp) hq hc]
    rfl
  case newDay =>
    refine (exec_sessionSecondTimer hl hw).trans (congrArg _ ?_)
    rw [State.openWindow_new (s := s.ticked) hwin hd (.inl hs), State.testResting_not (by simp)]
    exact State.testWindowStart_not (.inr (.inr (.inl hq)))
  case newStart =>
    refine (exec_sessionSecondTimer hl hw).trans (congrArg _ ?_)
    have lies : s.window ≠ none := by simp [hwin]
    rw [State.openWindow_new (s := s.ticked) hwin hd hs, State.testResting_not (by simp)]
    exact State.testWindowStart_starts (.inl rfl) lies hq (by simp)
  case resting =>
    refine (exec_sessionSecondTimer hl hw).trans (congrArg _ ?_)
    rw [State.openWindow_same (s := s.ticked) hwin hd, State.testResting_far (s := s.ticked) hwin hleft,
      State.testWindowStart_not (s := s.ticked) (.inr (.inr (.inl hq)))]
    rfl
  case near =>
    obtain ⟨hstate, hkeeps⟩ := s.ticked.openWindow_resting hr
    have window : s.ticked.openWindow.window = s.window := by
      simp only [State.window, show s.ticked.openWindow.unit = s.unit from hkeeps .unit (by decide),
        show s.ticked.openWindow.settings = s.settings from hkeeps .settings (by decide)]
    have failed := State.testResting_near hstate (by rw [window]; exact hnear)
    generalize s.ticked.openWindow.link.lastFailure.getD .noReply = r at failed
    have link := s.ticked.openWindow.sessionFailed_link r none
    have idle : (s.ticked.openWindow.sessionFailed r none).testWindowStart = s.ticked.openWindow.sessionFailed r none :=
      State.testWindowStart_not (.inl ⟨by rw [link]; simp, .inl (by rw [link]; simp)⟩)
    refine ⟨_, exec_sessionSecondTimer hl hw, ?_⟩
    rw [failed, idle, link]
    obtain ⟨a, ha, hk, hv, -⟩ := State.recordAlert_mem (s.ticked.openWindow.withLink fun l =>
      { l with state := .done, restTimer := none }) .sessionFailed .warn .self (.failure r none)
    exact ⟨rfl, rfl, a, ha, hk, hv⟩
  case restOver =>
    refine (exec_restTimerExpiry hl hw hdue).trans (congrArg _ (State.testWindowStart_starts (.inr ⟨?_, rfl⟩) ?_ ?_ ?_))
    · exact hr
    · exact hwin
    · exact hq
    · exact hc
  case restEnds =>
    refine (exec_restTimerExpiry hl hw hdue).trans (congrArg _ (State.testWindowStart_not (.inr ?_)))
    exact hno
  case early => rw [State.watermarkCrossed_working hw, State.earlyStart_starts h]
  case ignored => rw [State.watermarkCrossed_working hw, State.earlyStart_refused h]
  case close =>
    refine ⟨_, exec_close_crossed h hb hr hv hc hlen hw, ?_⟩
    generalize closedRecord l s.unit.clock x (amountDue s.settings.cashStep r.total x) r b = rec
    have kept := s.crossingClose_keeps l n rec
    have counted := s.crossingClose_count l n rec (c := .startedEarly) (by decide)
    rw [State.count_bump_ne s (by decide)] at counted
    have link : (s.crossingClose l n rec).link = s.link := kept .link (by decide)
    have unit : (s.crossingClose l n rec).unit = s.unit := kept .unit (by decide)
    have now : (s.crossingClose l n rec).now = s.now := kept .now (by decide)
    have work : (s.crossingClose l n rec).working = true := by
      rw [State.working, show (s.crossingClose l n rec).part = s.part from kept .part (by decide)]
      exact hwork
    have starts : (s.crossingClose l n rec).StartsEarly :=
      ⟨by rw [unit]; exact hq, by rw [link]; exact hi, by rw [link, he]; simp⟩
    obtain ⟨hlast, htag, -, hcount⟩ := (s.crossingClose l n rec).startAttempt_early
    rw [State.watermarkCrossed_working work, State.earlyStart_starts starts]
    rw [link] at htag
    rw [now] at hlast
    rw [counted] at hcount
    exact ⟨hlast, htag, hcount⟩
  case listening =>
    refine ⟨_, exec_listeningTimerExpiry hl ht hp, ?_⟩
    obtain ⟨v, hkeep, hcounts, hend⟩ := State.endListening_idle
      (s := { s with now := max s.now due, listenTimer := none, part := .running }) hi hpend
    have link : v.link = { s.link with earlyPending := false } := hkeep.1
    have part : v.part = .running := hkeep.2.1
    have unit : v.unit = s.unit := hkeep.2.2.1
    have now : v.now = max s.now due := hkeep.2.2.2
    have starts : v.StartsEarly := ⟨by rw [unit]; exact hq, by rw [link]; exact hi, by rw [link, he]; simp⟩
    obtain ⟨hlast, htag, hpending, hcount⟩ := v.startAttempt_early
    have partAfter : (v.startAttempt .early).part = v.part := v.startAttempt_keeps .early .part (by decide)
    rw [hend, State.watermarkCrossed_working (by simp [State.working, part]), State.earlyStart_starts starts]
    rw [link] at htag hpending
    rw [now] at hlast
    exact ⟨partAfter.trans part, hpending, hlast, htag, hcount.trans (by rw [hcounts _ (by decide)]; rfl)⟩

end

section
/-! PROOFS. The upload and the download decision: the batch an attempt hands over, what ends the upload, and the messages
that begin and carry it on. -/

namespace Sys2Proof.Machine

open Sys2Proof

variable {s t u : State} {m : OutMessage} {n : Nat}

/-! ### The parts of a batch (R175) -/

theorem be_length (k v : Nat) : (be k v).length = k := by
  induction k with
  | zero => rfl
  | succ k ih => simp [be, ih]

theorem lineBytes_length (l : Line) : (lineBytes l).length = 25 := by
  simp [lineBytes, be_length, flagBytes]

theorem timeBytes_length (x : Option StoreTime) : (timeBytes x).length = 6 := by
  cases x <;> simp [timeBytes, be_length]

/-- A journal record is 26 bytes and 25 for each line (12.5). -/
theorem journalBytes_length (r : JournalRecord) : (journalBytes r).length = 26 + 25 * r.lines.length := by
  have lines : (r.lines.flatMap lineBytes).length = 25 * r.lines.length := by
    simp [List.length_flatMap, lineBytes_length, List.map_const', Nat.mul_comm]
  simp only [journalBytes, List.length_append, be_length, timeBytes_length, flagBytes, lines, List.length_singleton]

/-- The parts into which a run of bytes is cut, numbered from `part` on. -/
theorem cutParts_eq (serial : Nat) : ∀ (fuel part : Nat) (run : List Byte), 0 < run.length → run.length < fuel →
    cutParts serial part fuel run = (List.range ((run.length + 1494) / 1495)).map fun i =>
      .batchPart serial (part + i) (i + 1 == (run.length + 1494) / 1495) ((run.drop (1495 * i)).take 1495) := by
  intro fuel
  induction fuel with
  | zero => intro _ _ _ h; omega
  | succ fuel ih =>
    intro part run hpos hfuel
    unfold cutParts
    split
    case isTrue h =>
      have one : (run.length + 1494) / 1495 = 1 := by omega
      simp [one, List.take_of_length_le h]
    case isFalse h =>
      have rest : (run.drop 1495).length = run.length - 1495 := List.length_drop
      have count : (run.length + 1494) / 1495 = (run.length - 1495 + 1494) / 1495 + 1 := by omega
      rw [ih (part + 1) (run.drop 1495) (by omega) (by omega), count, List.range_succ_eq_map, List.map_cons,
        List.map_map, rest]
      refine congrArg₂ List.cons ?_ (List.map_congr_left fun i _ => ?_)
      · have more : ((run.length - 1495 + 1494) / 1495 == 0) = false := by simp; omega
        simp [more]
      · have place : part + 1 + i = part + (i + 1) := by omega
        simp [place, List.drop_drop, Nat.mul_add, Nat.add_comm]

theorem batchParts_eq {batch : List JournalRecord} (h : batch ≠ []) (serial : Nat) :
    batchParts serial batch = partsOf serial batch := by
  have hpos : 0 < (batch.flatMap journalBytes).length := by
    obtain ⟨r, rs, rfl⟩ := List.exists_cons_of_ne_nil h
    simp only [List.flatMap_cons, List.length_append, journalBytes_length]
    omega
  simp only [batchParts, partsOf, cutParts_eq serial _ 1 _ hpos (Nat.lt_succ_self _), Nat.add_comm 1]

/-- The parts of a batch: each but the last without the last-part flag. -/
theorem partsOf_split {batch : List JournalRecord} (h : batch ≠ []) (serial : Nat) :
    ∃ (parts : List (Nat × List Byte)) (p : Nat) (run : List Byte),
      partsOf serial batch = parts.map (fun x => .batchPart serial x.1 false x.2) ++ [.batchPart serial p true run] ∧
      parts.length + 1 ≤ (batch.flatMap journalBytes).length := by
  have hpos : 0 < (batch.flatMap journalBytes).length := by
    obtain ⟨r, rs, rfl⟩ := List.exists_cons_of_ne_nil h
    simp only [List.flatMap_cons, List.length_append, journalBytes_length]
    omega
  simp only [partsOf]
  generalize batch.flatMap journalBytes = run at hpos
  obtain ⟨k, hk⟩ : ∃ k, (run.length + 1494) / 1495 = k + 1 := ⟨(run.length + 1494) / 1495 - 1, by omega⟩
  refine ⟨(List.range k).map fun i => (i + 1, (run.drop (1495 * i)).take 1495), k + 1,
    (run.drop (1495 * k)).take 1495, ?_, by simp only [List.length_map, List.length_range]; omega⟩
  rw [hk, List.range_succ, List.map_append, List.map_map]
  congr 1
  · refine List.map_congr_left fun i hi => ?_
    have : i ≠ k := (List.mem_range.1 hi).ne
    simp [this]
  · simp

/-! ### The batch taken (R71) -/

section Rising
variable {l : List JournalRecord} (hl : (l.map (·.serial)).Pairwise (· < ·))
include hl

/-- The records of a rising list from its first to the last of its oldest `k` are those `k`. -/
theorem between_iff_mem_take {k : Nat} {first last r : JournalRecord} (hf : (l.take k).head? = some first)
    (hk : (l.take k).getLast? = some last) (hr : r ∈ l) :
    (first.serial ≤ r.serial ∧ r.serial ≤ last.serial) ↔ r ∈ l.take k := by
  have rises : l.Pairwise fun a b => a.serial < b.serial := List.pairwise_map.1 hl
  rw [← List.take_append_drop k l, List.pairwise_append] at rises
  obtain ⟨taken, -, across⟩ := rises
  constructor
  case mp =>
    rintro ⟨-, hle⟩
    rw [← List.take_append_drop k l, List.mem_append] at hr
    refine hr.resolve_right fun hlate => ?_
    exact absurd hle (Nat.not_le.2 (across last (List.mem_of_getLast? hk) r hlate))
  case mpr =>
    intro hmem
    obtain ⟨rest, hcons⟩ := List.head?_eq_some_iff.1 hf
    obtain ⟨init, hsnoc⟩ := List.getLast?_eq_some_iff.1 hk
    constructor
    · rw [hcons] at taken hmem
      rcases List.mem_cons.1 hmem with rfl | hrest
      · exact Nat.le_refl _
      · exact Nat.le_of_lt (List.rel_of_pairwise_cons taken hrest)
    · rw [hsnoc] at taken hmem
      rcases List.mem_append.1 hmem with hinit | hlast
      · exact Nat.le_of_lt ((List.pairwise_append.1 taken).2.2 r hinit last (by simp))
      · rw [List.mem_singleton.1 hlast]

end Rising

/-- A record that is unsent and no later than the cut is marked with its batch exactly when it belongs to it. -/
theorem mark_eq {l : List JournalRecord} (hl : (l.map (·.serial)).Pairwise (· < ·)) {cut k : Nat} {first last : JournalRecord}
    (hf : ((l.filter fun r => !r.sent && decide (r.serial ≤ cut)).take k).head? = some first)
    (hk : ((l.filter fun r => !r.sent && decide (r.serial ≤ cut)).take k).getLast? = some last) :
    (l.map fun r => if first.serial ≤ r.serial ∧ r.serial ≤ last.serial then { r with sent := true } else r) =
    l.map fun r => if r ∈ (l.filter fun r => !r.sent && decide (r.serial ≤ cut)).take k then { r with sent := true } else r := by
  have rises : ((l.filter fun r => !r.sent && decide (r.serial ≤ cut)).map (·.serial)).Pairwise (· < ·) :=
    hl.sublist (List.filter_sublist.map _)
  have last_le : last.serial ≤ cut := by
    have := (List.mem_filter.1 (List.mem_of_mem_take (List.mem_of_getLast? hk))).2
    simp only [Bool.and_eq_true, decide_eq_true_eq] at this
    exact this.2
  refine List.map_congr_left fun r hr => ?_
  by_cases hs : r.sent = true
  · have same : ({ r with sent := true } : JournalRecord) = r := by cases r; cases hs; rfl
    simp [same]
  by_cases hc : r.serial ≤ cut
  · have hmem : r ∈ l.filter fun r => !r.sent && decide (r.serial ≤ cut) := by simp [hr, hs, hc]
    simp only [between_iff_mem_take rises hf hk hmem]
  · have out : ¬ (first.serial ≤ r.serial ∧ r.serial ≤ last.serial) := by omega
    have notIn : r ∉ (l.filter fun r => !r.sent && decide (r.serial ≤ cut)).take k := fun h => by
      have := (List.mem_filter.1 (List.mem_of_mem_take h)).2
      simp [hc] at this
    simp only [out, notIn, if_false]

/-- The state once the next batch has been taken, marked and joined to the window, its parts standing to be handed over. -/
def State.uploading (s : State) (first last : JournalRecord) : State :=
  let batch := s.uncut.take 32
  { s with
    journal := { s.journal with
      records := s.journal.records.map fun r => if r ∈ batch then { r with sent := true } else r
      outstanding := s.journal.outstanding ++ [⟨first.serial, last.serial, batch.length⟩] }
    link := { s.link with
      batchSerial := s.link.batchSerial + 1, toSend := partsOf (s.link.batchSerial + 1) batch
      window := s.link.window ++ [⟨s.link.batchSerial + 1, first.serial, last.serial, false⟩] } }

section Upload
variable (hs : s.link.state = .uploading) (ht : s.link.toSend = []) (hw : s.link.waiting = false)

theorem State.takeBatch_noneLeft (h : s.uncut = []) : s.takeBatch (s.link.cut.getD 0) = (.noneLeft, s) := by
  have h' : s.journal.nextBatch (s.link.cut.getD 0) = [] := by
    rw [show s.journal.nextBatch (s.link.cut.getD 0) = s.uncut.take 32 from rfl, h]
    rfl
  simp [State.takeBatch, h']

theorem State.takeBatch_windowFull (h : s.uncut ≠ []) (h2 : 2 ≤ s.journal.outstanding.length) :
    s.takeBatch (s.link.cut.getD 0) = (.windowFull, s) := by
  have h' : (s.journal.nextBatch (s.link.cut.getD 0)).isEmpty = false := by
    rw [show s.journal.nextBatch (s.link.cut.getD 0) = s.uncut.take 32 from rfl]
    simpa using h
  simp [State.takeBatch, h', h2]

/-- The batch that is taken joins the window, and its parts stand to be handed over. -/
theorem State.takeBatch_joins (hJ : s.journal.Ok) {first last : JournalRecord} (hf : (s.uncut.take 32).head? = some first)
    (hl : (s.uncut.take 32).getLast? = some last) (h2 : s.journal.outstanding.length < 2) :
    ∃ t, s.takeBatch (s.link.cut.getD 0) = (.batch (s.uncut.take 32), t) ∧
      t.joinBatch (s.uncut.take 32) = s.uploading first last := by
  have hne : s.uncut.take 32 ≠ [] := fun h => by simp [h] at hf
  have hb : s.journal.nextBatch (s.link.cut.getD 0) = s.uncut.take 32 := rfl
  have hmark : batchMark (s.uncut.take 32) = ⟨first.serial, last.serial, (s.uncut.take 32).length⟩ := by
    simp only [batchMark, hf, hl, Option.map_some, Option.getD_some]
  have hrecords := mark_eq hJ.rising hf hl
  have hempty : (s.uncut.take 32).isEmpty = false := by simpa using hne
  refine ⟨s.withJournal fun j => { j with
      records := j.records.map fun r => if first.serial ≤ r.serial ∧ r.serial ≤ last.serial then { r with sent := true } else r
      outstanding := j.outstanding ++ [⟨first.serial, last.serial, (s.uncut.take 32).length⟩] }, ?_, ?_⟩
  · simp only [State.takeBatch, hb, hempty, Bool.false_eq_true, if_false, ge_iff_le, Nat.not_le.2 h2, hmark]
  · simp only [State.joinBatch, hmark, batchParts_eq hne, State.withJournal, State.withLink, hrecords]
    rfl

include hs ht hw

theorem pump_noneLeft (h : s.uncut = []) (hwin : s.link.window ≠ []) : pump n s = s := by
  cases n with
  | zero => rfl
  | succ n => simp [pump, hs, hw, ht, SessionState.inProgress, State.takeBatch_noneLeft h, hwin]

theorem pump_windowFull (h : s.uncut ≠ []) (h2 : 2 ≤ s.journal.outstanding.length) : pump n s = s := by
  cases n with
  | zero => rfl
  | succ n => simp [pump, hs, hw, ht, SessionState.inProgress, State.takeBatch_windowFull h h2]

theorem pump_uploadOver (h : s.uncut = []) (hwin : s.link.window = []) : pump (n + 1) s = pump n s.downloadDecision := by
  simp [pump, hs, hw, ht, SessionState.inProgress, State.takeBatch_noneLeft h, hwin]

theorem pump_batch (hJ : s.journal.Ok) {first last : JournalRecord} (hf : (s.uncut.take 32).head? = some first)
    (hl : (s.uncut.take 32).getLast? = some last) (h2 : s.journal.outstanding.length < 2) :
    pump (n + 1) s = pump n (s.uploading first last) := by
  obtain ⟨t, htake, hjoin⟩ := State.takeBatch_joins hJ hf hl h2
  simp [pump, hs, hw, ht, SessionState.inProgress, htake, hjoin]

end Upload

/-! ### Handing the parts over (R156, R172, R175) -/

/-- A message that finds no room is held, and waits (R156). -/
theorem State.handSession_full (hup : s.fwd.up = true) (h : 65536 < s.officeBytes + (messageBytes m).length) :
    s.handSession (messageBytes m) = (.waiting, { s with
      fwd := { s.fwd with sessionPath := some .local, heldParcel := some ⟨s.parcelOf m, 0⟩ } }) := by
  have full : ¬ s.officeBytes + (messageBytes m).length ≤ 65536 := Nat.not_le.2 h
  have fits : s.fwd.fits (sessionParcel s.self s.link.attemptTag (messageBytes m)) = false :=
    decide_eq_false full
  simp only [State.handSession, hup, fits, if_true, Bool.false_eq_true, if_false, State.withFwd]
  rfl

/-- Messages QUEUED in turn stand in the OFFICE queue in turn. -/
theorem State.carried_cons {ms : List OutMessage} (ht : t.fwd = s.carried [m]) (hp : t.parcelOf = s.parcelOf) :
    t.carried ms = s.carried (m :: ms) := by
  simp [State.carried, ht, hp]

/-- Parts that find room are handed over one after another, up to the last of them (R172, R175). -/
theorem pump_parts {serial : Nat} {last : OutMessage} : ∀ (parts : List (Nat × List Byte)) (s : State),
    s.link.state.inProgress = true → s.link.waiting = false →
    s.link.toSend = parts.map (fun x => .batchPart serial x.1 false x.2) ++ [last] →
    s.Carries (parts.map (fun x => .batchPart serial x.1 false x.2) ++ [last]) →
    pump (parts.length + (n + 1)) s = pump n (({ s with
      fwd := s.carried (parts.map (fun x => .batchPart serial x.1 false x.2) ++ [last])
      link := { s.link with toSend := [last] } } : State).onQueued last)
  | [], s, hp, hw, ht, hc => by
    have ht' : s.link.toSend = [last] := by simpa using ht
    have same : { s.link with toSend := [last] } = s.link := by rw [← ht']
    rw [List.length_nil, Nat.zero_add, pump_carries hp hw ht' (by simpa using hc), same]
    rfl
  | x :: parts, s, hp, hw, ht, hc => by
    let m : OutMessage := .batchPart serial x.1 false x.2
    let ms : List OutMessage := parts.map (fun x => .batchPart serial x.1 false x.2) ++ [last]
    have ht' : s.link.toSend = m :: ms := by simpa [m, ms] using ht
    have hc' : s.Carries (m :: ms) := by simpa [m, ms] using hc
    let v : State := { s with fwd := s.carried [m], link := { s.link with toSend := ms } }
    have hv : ({ s with fwd := s.carried [m] } : State).onQueued m = v := by
      simp [v, m, State.onQueued, OutMessage.asks, State.withLink, ht', hw]
    have joined : v.carried ms = s.carried (m :: ms) := State.carried_cons rfl rfl
    rw [List.length_cons, Nat.add_right_comm, pump_carries hp hw ht' hc'.head, hv,
      pump_parts parts v hp hw rfl (hc'.tail v rfl), joined]
    rfl

/-- Messages that the session can still hand over: one step for each byte of a batch, and some to spare. -/
theorem State.pumpFuel_ge (s : State) (k : Nat) :
    ((s.uncut.take k).flatMap journalBytes).length + 16 ≤ s.pumpFuel := by
  have sub : (s.uncut.take k).Sublist s.journal.records := (List.take_sublist _ _).trans List.filter_sublist
  have bytes : ((s.uncut.take k).flatMap journalBytes).length ≤
      ((s.uncut.take k).map fun r => 32 + 25 * r.lines.length).sum := by
    rw [List.length_flatMap]
    refine List.sum_le_sum fun r _ => ?_
    rw [journalBytes_length]
    omega
  have all := (sub.map fun r => 32 + 25 * r.lines.length).sum_le_sum fun _ _ => Nat.zero_le _
  simp only [State.pumpFuel]
  omega

/-- The state once the whole of the unsent records has been handed over as one batch. -/
def State.uploaded (s : State) (first last : JournalRecord) : State :=
  { s with
    journal := { s.journal with
      records := s.journal.records.map fun r => if r ∈ s.uncut then { r with sent := true } else r
      outstanding := s.journal.outstanding ++ [⟨first.serial, last.serial, s.uncut.length⟩] }
    fwd := s.carried (partsOf (s.link.batchSerial + 1) s.uncut)
    link := { s.link with
      batchSerial := s.link.batchSerial + 1, replyTimer := some (s.now + Config.seconds 30)
      window := s.link.window ++ [⟨s.link.batchSerial + 1, first.serial, last.serial, true⟩] } }

theorem State.uploaded_uncut (s : State) (first last : JournalRecord) : (s.uploaded first last).uncut = [] := by
  refine List.filter_eq_nil_iff.2 fun r hr => ?_
  obtain ⟨r0, hmem, rfl⟩ := List.mem_map.1 hr
  split
  · simp
  · rename_i hout
    intro h
    exact hout (List.mem_filter.2 ⟨hmem, h⟩)

theorem markLast_append {b : WindowBatch} {w : List WindowBatch} (h : ∀ x ∈ w, x.serial ≠ b.serial) :
    markLast b.serial (w ++ [b]) = w ++ [{ b with lastPart := true }] := by
  simp only [markLast, List.map_append, List.map_cons, List.map_nil, if_true]
  refine congrArg (· ++ _) ?_
  conv_rhs => rw [← List.map_id w]
  exact List.map_congr_left fun x hx => by simp [h x hx]

theorem State.copyUnderWay_iff (s : State) (n : Nat) : s.copyUnderWay n = true ↔ s.CopyComes n := by
  simp only [State.copyUnderWay, State.CopyComes, Bool.or_eq_true, Bool.and_eq_true, beq_iff_eq, or_assoc]
  refine or_congr_right (or_congr_right ?_)
  cases s.link.announce with
  | none => simp
  | some x =>
    simp only [Bool.and_eq_true, beq_iff_eq, decide_eq_true_eq, Option.some.injEq]
    exact ⟨fun ⟨h1, h2⟩ => ⟨x.2, by rw [← h1], h2⟩, fun ⟨y, h1, h2⟩ => by rw [h1]; exact ⟨rfl, h2⟩⟩

/-- SESSION-END that finds room ends the attempt (R181). -/
theorem pump_sessionEnd {a : Nat} {o : FileOutcome} (hp : s.link.state.inProgress = true) (hw : s.link.waiting = false)
    (ht : s.link.toSend = [.sessionEnd a o]) (ho : s.link.outcome = o) (hc : s.Carries [.sessionEnd a o]) :
    pump (n + 1) s =
      ({ s with fwd := s.carried [.sessionEnd a o], link := s.link.ended o } : State).bump .attemptsCompleted := by
  have done : (({ s with fwd := s.carried [.sessionEnd a o] } : State).onQueued (.sessionEnd a o)) =
      ({ s with fwd := s.carried [.sessionEnd a o], link := s.link.ended o } : State).bump .attemptsCompleted := by
    subst ho
    rfl
  rw [pump_carries hp hw ht hc, done]
  exact pump_over rfl

section Upload
variable (hs : s.link.state = .uploading) (ht : s.link.toSend = []) (hw : s.link.waiting = false)
include hs ht hw

/-- All the unsent records that fit in one batch, and whose parts find room, are handed over (R71, R175). -/
theorem State.pumpSession_uploaded (hJ : s.journal.Ok) {first last : JournalRecord} (hf : s.uncut.head? = some first)
    (hl : s.uncut.getLast? = some last) (h32 : s.uncut.length ≤ 32) (h2 : s.journal.outstanding.length < 2)
    (hwin : ∀ b ∈ s.link.window, b.serial ≠ s.link.batchSerial + 1)
    (hc : s.Carries (partsOf (s.link.batchSerial + 1) s.uncut)) : s.pumpSession = s.uploaded first last := by
  have whole : s.uncut.take 32 = s.uncut := List.take_of_length_le h32
  have hne : s.uncut ≠ [] := fun h => by simp [h] at hf
  obtain ⟨parts, p, run, hsplit, hcount⟩ := partsOf_split hne (s.link.batchSerial + 1)
  have fuel := State.pumpFuel_ge s 32
  rw [whole] at fuel
  obtain ⟨n, hn⟩ : ∃ n, s.pumpFuel = (parts.length + (n + 1)) + 1 := ⟨s.pumpFuel - (parts.length + 2), by omega⟩
  have begun : (s.uploading first last).link.toSend = partsOf (s.link.batchSerial + 1) s.uncut := by
    simp only [State.uploading, whole]
  have carries : (s.uploading first last).Carries (partsOf (s.link.batchSerial + 1) s.uncut) := ⟨hc.up, hc.sending, hc.room⟩
  have handed := pump_parts (n := n) parts (s.uploading first last) (by simp [State.uploading, hs, SessionState.inProgress]) hw
    (begun.trans hsplit) (hsplit ▸ carries)
  rw [State.pumpSession, hn, pump_batch hs ht hw hJ (whole.symm ▸ hf) (whole.symm ▸ hl) h2, handed, ← hsplit]
  have marked := markLast_append (b := ⟨s.link.batchSerial + 1, first.serial, last.serial, false⟩) hwin
  have queued : (({ s.uploading first last with
      fwd := (s.uploading first last).carried (partsOf (s.link.batchSerial + 1) s.uncut)
      link := { (s.uploading first last).link with toSend := [.batchPart (s.link.batchSerial + 1) p true run] } } : State).onQueued
        (.batchPart (s.link.batchSerial + 1) p true run)) = s.uploaded first last := by
    simp only [State.onQueued, OutMessage.asks, State.withLink, State.uploading, whole, marked, if_true, List.drop_one,
      List.tail_cons]
    simp only [State.uploaded, ← ht, ← hw]
    rfl
  rw [queued]
  exact pump_noneLeft hs ht hw (State.uploaded_uncut s first last) (by simp [State.uploaded])

/-- How a session in UPLOADING with no part in hand goes on (R71, R175). -/
theorem State.pumpSession_uploads (hJ : s.journal.Ok) : s.Uploads s.pumpSession where
  noneLeft := fun h hwin => pump_noneLeft hs ht hw h hwin
  windowFull := fun h h2 => pump_windowFull hs ht hw h h2
  waits := fun first last m ms hf hl h2 hparts hup hfull => by
    obtain ⟨n, hn⟩ : ∃ n, s.pumpFuel = n + 1 + 1 := ⟨s.pumpFuel - 2, by simp only [State.pumpFuel]; omega⟩
    have begun : (s.uploading first last).link.toSend = m :: ms := hparts
    have full := State.handSession_full (s := s.uploading first last) (m := m) hup hfull
    rw [State.pumpSession, hn, pump_batch hs ht hw hJ hf hl h2,
      pump_waits (s := s.uploading first last) (by simp [State.uploading, hs, SessionState.inProgress]) hw begun full]
    simp only [State.uploading, hparts, State.withLink]
    rfl
  queued := fun first last hf hl h32 h2 hwin hc => State.pumpSession_uploaded hs ht hw hJ hf hl h32 h2 hwin hc

/-- How a session whose upload is over goes on (R175, R177, R181). -/
theorem State.pumpSession_decides (hu : s.uncut = []) (hwin : s.link.window = []) :
    s.Decides (s.link.newest.getD 0) s.pumpSession := by
  obtain ⟨n, hn⟩ : ∃ n, s.pumpFuel = n + 4 := ⟨s.pumpFuel - 4, by simp only [State.pumpFuel]; omega⟩
  have decided : s.pumpSession = pump (n + 3) s.downloadDecision := by
    rw [State.pumpSession, hn, pump_uploadOver hs ht hw hu hwin]
  have idle : s.link.inHand = [] := Link.inHand_free hw
  refine ⟨fun hle hc => ?ends, fun hlt hcopy hc => ?skips, fun hlt hno ho hc => ?wants⟩
  case ends =>
    have closing : s.downloadDecision = s.closing [] .none := if_pos hle
    rw [decided, closing, pump_sessionEnd (s := s.closing [] .none) (a := s.link.acked) (o := .none) rfl hw (by simp [State.closing_toSend, idle]) rfl
      ⟨hc.up, hc.sending, hc.room⟩]
    rfl
  case skips =>
    have copy : s.copyUnderWay (s.link.newest.getD 0) = true := (State.copyUnderWay_iff _ _).2 hcopy
    let v : State := { s with
      link := { s.link with state := .downloading, replyTimer := none, toSend := [.skipFile (s.link.newest.getD 0)] } }
    have skip : s.downloadDecision = v := by
      conv_lhs => simp only [State.downloadDecision, Nat.not_le.2 hlt, if_false]
      exact if_pos copy
    have hv : v.Carries [.skipFile (s.link.newest.getD 0), .sessionEnd s.link.acked .skipped] := ⟨hc.up, hc.sending, hc.room⟩
    let w : State := ({ v with fwd := v.carried [.skipFile (s.link.newest.getD 0)] } : State).onQueued
      (.skipFile (s.link.newest.getD 0))
    have hfwd : w.fwd = v.carried [.skipFile (s.link.newest.getD 0)] := rfl
    have joined : w.carried [.sessionEnd s.link.acked .skipped] = s.carried
        [.skipFile (s.link.newest.getD 0), .sessionEnd s.link.acked .skipped] := State.carried_cons (s := v) hfwd rfl
    rw [decided, skip, pump_carries (s := v) rfl hw rfl hv.head,
      pump_sessionEnd (s := w) (a := s.link.acked) (o := .skipped) rfl rfl rfl rfl (hv.tail w hfwd), joined]
    rfl
  case wants =>
    have copy : s.copyUnderWay (s.link.newest.getD 0) = false := by
      rw [← Bool.not_eq_true, State.copyUnderWay_iff]
      exact hno
    let v : State := { s with
      link := { s.link with state := .downloading, replyTimer := none, toSend := [.fileWanted (s.link.newest.getD 0)] }
      staging := { Staging.empty with owner := .session, serial := s.link.newest.getD 0 } }
    have want : s.downloadDecision = v := by
      conv_lhs => simp only [State.downloadDecision, Nat.not_le.2 hlt, if_false]
      exact (if_neg (by simp [State.copyUnderWay] at copy ⊢; exact copy))
    rw [decided, want, pump_carries (s := v) rfl hw rfl ⟨hc.up, hc.sending, hc.room⟩, pump_empty rfl rfl]
    simp only [State.onQueued, OutMessage.asks, State.withLink, v, if_true, List.drop_one, List.tail_cons]
    simp only [← ht, ← hw]
    rfl

end Upload

/-! ### A time taken with ACCEPT (R174, R191) -/

theorem Raises.bumpBy (s : State) {c : Count} {l : List Count} (h : c ∈ l) (k : Nat) : Raises l s (s.bumpBy c k) :=
  fun d hd => by
    have hne : d ≠ c := fun e => hd (e ▸ h)
    have hidx : d.ctorIdx ≠ c.ctorIdx := fun e => hne (Count.ctorIdx_inj e)
    unfold State.bumpBy
    split
    · rfl
    · simp [State.count, AMap.get_put, hidx]

/-- The counts that a mode decision may raise. -/
def modeChangeCounts : List Count := proceedCounts ++ [.modeChanges, .droppedByMode, .guestsRemovedByMode]

theorem State.fwdModeChanged_raises (s : State) (m : Mode) : Raises modeChangeCounts s (s.fwdModeChanged m) := by
  unfold State.fwdModeChanged
  dsimp only
  refine Raises.trans ?_ (.of_keeps (State.transmit_keeps _) (by decide) _)
  refine Raises.trans ?_ (.of_keeps (State.withFwd_keeps _ _) (by decide) _)
  have abandoned : ∀ b : Bool, Raises modeChangeCounts s (if b = true then
      (s.withFwd fun w => { w with sending := none }).bump .droppedByMode else s) := fun b => by
    cases b
    · exact .refl _ _
    · exact (Raises.of_keeps (State.withFwd_keeps _ _) (by decide) _).trans (.bump _ (by decide))
  split
  · refine Raises.trans ?_ (.of_keeps (State.withFwd_keeps _ _) (by decide) _)
    exact ((abandoned _).trans (.bumpBy _ (by decide) _)).trans (.bumpBy _ (by decide) _)
  · exact abandoned _

theorem State.decideMode_raises (s : State) : Raises modeChangeCounts s s.decideMode := by
  have noticed : ∀ (v : State) m, Raises modeChangeCounts v (v.noticeMode m) := fun v m => by
    unfold State.noticeMode
    dsimp only
    split
    · exact .refl _ _
    split
    · exact (State.fwdModeChanged_raises _ _).trans ((State.sessionEvent_proceeds _ _).counts.mono (by decide))
    · exact State.fwdModeChanged_raises _ _
  have changed : ∀ m, Raises modeChangeCounts s (((s.withUnit fun u => { u with mode := m }).bump .modeChanges).noticeMode m) :=
    fun m => ((Raises.of_keeps (State.withUnit_keeps _ _) (by decide) _).trans (.bump _ (by decide))).trans (noticed _ m)
  unfold State.decideMode State.changeMode
  dsimp only
  split
  · exact .refl _ _
  split
  · exact (changed _).trans (.recordAlert _ _ _ _ _ (by decide))
  · exact changed _

/-- A decision for another mode than DISTRESS ends no attempt (R182, R193). -/
theorem State.decideMode_calm (h : decidedMode s.unit ≠ .distress) : keeps [.unit, .fwd, .counts] s s.decideMode := by
  unfold State.decideMode State.changeMode State.noticeMode
  dsimp only
  repeat' split
  all_goals simp_all

theorem State.decideMode_same (h : decidedMode s.unit = s.unit.mode) : s.decideMode = s := if_pos h

theorem State.afterClock_calm {x : StoreTime} (hc : s.unit.clock = some x) (h : s.afterClock.unit.mode ≠ .distress) :
    keeps [.unit, .fwd, .counts] s s.afterClock := by
  have mode : decidedMode s.recordSchedule.unit ≠ .distress := by
    rw [State.recordSchedule_unit hc]
    rwa [State.afterClock_unit hc] at h
  exact ((s.recordSchedule_keeps.mono (by decide)).trans (State.decideMode_calm mode)).trans
    ((State.testRollover_keeps _).mono (by decide))

theorem State.recordSchedule_raises (s : State) : Raises [.overridesEnded] s s.recordSchedule := by
  unfold State.recordSchedule
  dsimp only
  repeat' split
  · exact .of_keeps (State.withUnit_keeps _ _) (by decide) _
  · exact .of_keeps (State.withUnit_keeps _ _) (by decide) _
  · exact ((Raises.of_keeps (State.withUnit_keeps _ _) (by decide) _).trans
      (.of_keeps (State.withUnit_keeps _ _) (by decide) _)).trans (.bump _ (by decide))

theorem State.afterClock_raises (s : State) : Raises (.overridesEnded :: modeChangeCounts) s s.afterClock :=
  ((s.recordSchedule_raises.mono (by decide)).trans ((State.decideMode_raises _).mono (by decide))).trans
    (.of_keeps (State.testRollover_keeps _) (by decide) _)

/-- Where the mode stays, a time taken changes the guests alone of the forwarding unit (R161, R192). -/
theorem State.afterClock_fwd {x : StoreTime} (hc : s.unit.clock = some x) (h : s.afterClock.unit.mode = s.unit.mode) :
    { s.afterClock.fwd with guests := s.fwd.guests } = s.fwd := by
  have mode : decidedMode s.recordSchedule.unit = s.recordSchedule.unit.mode := by
    rw [State.recordSchedule_unit hc]
    rwa [State.afterClock_unit hc] at h
  have fwd : s.recordSchedule.fwd = s.fwd := s.recordSchedule_keeps .fwd (by decide)
  rw [State.afterClock, State.decideMode_same mode, ← fwd]
  unfold State.testRollover
  repeat' split
  all_goals rfl

/-- What a time taken leaves of the counts, of the link and of the forwarding unit (R161, R191, R192). -/
theorem State.takeTime_raises (s : State) (x : StoreTime) (c : Count) :
    Raises (.overridesEnded :: modeChangeCounts) (s.bump c) (s.takeTime x c) := by
  have bumped : Raises (.overridesEnded :: modeChangeCounts) (s.bump c)
      ((s.withUnit fun u => { u with clock := some x, clockTimer := some (s.now + Config.seconds 1) }).bump c) :=
    fun _ _ => rfl
  exact bumped.trans (State.afterClock_raises _)

theorem State.takeTime_calm {x : StoreTime} {c : Count} (h : (s.takeTime x c).unit.mode ≠ .distress) :
    keeps [.unit, .fwd, .counts] s (s.takeTime x c) := by
  have begun : keeps [.unit, .fwd, .counts] s ((s.withUnit fun u =>
      { u with clock := some x, clockTimer := some (s.now + Config.seconds 1) }).bump c) := by simp
  exact begun.trans (State.afterClock_calm (x := x) rfl h)

theorem State.takeTime_fwd {x : StoreTime} {c : Count} (h : (s.takeTime x c).unit.mode = s.unit.mode) :
    { (s.takeTime x c).fwd with guests := s.fwd.guests } = s.fwd :=
  State.afterClock_fwd (x := x) (s := (s.withUnit fun u =>
    { u with clock := some x, clockTimer := some (s.now + Config.seconds 1) }).bump c) rfl h

theorem State.timeFromAccept_taken {x : StoreTime} (h : s.mayTakeTime = true) (hv : timeValid x = true) :
    s.timeFromAccept x = s.takeTime x .setByAccept := by simp [State.timeFromAccept, h, hv]

theorem State.timeFromAccept_ignored {x : StoreTime} (h : ¬(s.mayTakeTime = true ∧ timeValid x = true)) :
    s.timeFromAccept x = s.bump .settingsIgnored := by simp_all [State.timeFromAccept]

/-- A journal that has lost records from its oldest end, and batches, is in order (R65, R71, R72). -/
theorem Journal.Ok.acknowledged {j k : Journal} (h : j.Ok) (hr : k.records.Sublist j.records) (hc : k.counter = j.counter)
    (ho : k.outstanding.length ≤ j.outstanding.length) : k.Ok where
  size := hr.length_le.trans h.size
  rising := h.rising.sublist (hr.map _)
  issued := fun r hmem => hc ▸ h.issued r (hr.subset hmem)
  counter := hc ▸ h.counter
  batches := ho.trans h.batches

end Sys2Proof.Machine


/-! ### The statements -/

open Sys2Proof Sys2Proof.Machine

/-- Settles O41: ACCEPT from the time it brings to the first request for a batch. -/
theorem acceptBeginsTheUpload : Obligations.AcceptBeginsTheUpload := by
  intro s time n hl hserv hst takes uploading u
  let v : State := { s with link := uploading }
  have hu : u = v.timeFromAccept time := rfl
  have takes_iff : (v.mayTakeTime = true ∧ timeValid time = true) ↔ takes :=
    and_congr (State.mayTakeTime_iff v) (timeValid_iff time)
  have ran : exec (.accept s.link.attemptTag time n) s = .next u.pumpSession := by
    refine congrArg _ ((State.deliverMessage_awaited hl hserv _ (by simp [hst, SessionState.inProgress])).trans ?_)
    exact if_pos hst
  have calm : u.unit.mode ≠ .distress → keeps [.unit, .fwd, .counts] v u := fun hm => by
    by_cases ht : v.mayTakeTime = true ∧ timeValid time = true
    · rw [hu, State.timeFromAccept_taken ht.1 ht.2] at hm ⊢
      exact State.takeTime_calm hm
    · rw [hu, State.timeFromAccept_ignored ht]
      exact (State.bump_keeps _ _).mono (by decide)
  refine ⟨⟨u.pumpSession, ran, State.pumpSession_keeps _ .unit (by decide), fun hm hJ ht hw => ?goesOn⟩, fun hm => ⟨?_, ?_⟩,
    fun hno => ?ignored, fun htakes => ?taken⟩
  case goesOn =>
    have link : u.link = uploading := calm hm .link (by decide)
    have journal : u.journal = s.journal := calm hm .journal (by decide)
    have state : u.link.state = .uploading := by rw [link]
    have newest : u.link.newest.getD 0 = n := by rw [link]; rfl
    refine ⟨State.pumpSession_uploads state (by rw [link]; exact ht) (by rw [link]; exact hw) (journal ▸ hJ), fun hun hwin => ?_⟩
    exact newest ▸ State.pumpSession_decides state (by rw [link]; exact ht) (by rw [link]; exact hw) hun hwin
  · exact calm hm .link (by decide)
  · have begun : keeps [.link, .unit, .fwd, .counts] s v := State.withLink_keeps s (fun _ => uploading) |>.mono (by decide)
    exact begun.trans ((calm hm).mono (by decide))
  case ignored => exact State.timeFromAccept_ignored (mt takes_iff.1 hno)
  case taken =>
    obtain ⟨hmay, hvalid⟩ := takes_iff.2 htakes
    have taken : u = v.takeTime time .setByAccept := State.timeFromAccept_taken hmay hvalid
    have unit := State.takeTime_unit v time .setByAccept
    rw [← taken] at unit
    refine ⟨by rw [unit]; rfl, by rw [unit]; rfl, by rw [unit]; rfl, by rw [unit]; rfl, ?_, fun hm => ?_⟩
    · rw [taken, State.takeTime_raises v time .setByAccept .setByAccept (by decide)]
      exact (State.count_bump v _ _).trans (if_pos rfl)
    · rw [taken] at hm ⊢
      exact State.takeTime_fwd (s := v) hm

/-- Settles O42: the batch acknowledged, and the next request for one. -/
theorem batchTakenRemovesItsRecords : Obligations.BatchTakenRemovesItsRecords := by
  intro s b rest m ms hl hserv hst hwin hlast hout hfirst hml c kept taken
  have ran : exec c s = .next taken.pumpSession := by
    refine congrArg _ ((State.deliverMessage_awaited hl hserv _ (by simp [hst, SessionState.inProgress])).trans ?_)
    refine (if_pos hst).trans ?_
    simp only [State.takeBatchTaken, hwin, hlast, and_self, if_true]
    have acked : s.acknowledge b.first b.last = (s.withJournal fun j => { j with
        records := kept, outstanding := ms, high := j.high && decide (s.settings.highWatermark ≤ kept.length) }).bumpBy
        .recordsRemoved (s.journal.records.length - kept.length) := by
      simp only [State.acknowledge, hout, hfirst, hml, and_self, if_true]
      rfl
    rw [acked]
    refine congrArg State.pumpSession ?_
    simp only [taken, State.bumpBy]
    split <;> rfl
  have proceeds := State.pumpSession_proceeds taken
  refine ⟨⟨_, ran, proceeds.link.acked, ?_, ?_, proceeds.journal.counter⟩, fun hw => ?waiting, fun hJ ht hw => ?goesOn⟩
  · rw [proceeds.counts _ (by decide)]
    refine (State.count_bump _ _ _).trans ((if_pos rfl).trans ?_)
    rw [Raises.bumpBy (l := [.recordsRemoved]) s (List.mem_singleton.2 rfl) _ .batchesAcknowledged (by decide)]
  · have serials := congrArg (List.map (·.serial)) proceeds.journal.records
    simpa [List.map_map, Function.comp_def, JournalRecord.unmarked] using serials
  case waiting => exact ran.trans (congrArg _ (State.pumpSession_waiting hw))
  case goesOn =>
    have journal : taken.journal.Ok := hJ.acknowledged (List.dropWhile_sublist _) rfl (by simp [taken, hout])
    refine ⟨_, ran, State.pumpSession_uploads hst ht hw journal, fun hun hr => ?_⟩
    exact State.pumpSession_decides hst ht hw hun hr

end

section
/-! PROOFS. The files of a session: what each message of a download leaves, the messages that end the session, and the
share of a released file. -/

namespace Sys2Proof.Machine

open Sys2Proof

variable {s t u : State} {m : OutMessage} {n : Nat}

/-! ### The messages of a session in CLOSING (R172, R180, R181) -/

theorem Forwarding.choose_up {w x : Forwarding} {k : Mode} {p : Parcel} (h : w.choose k = some (p, x)) : x.up = w.up := by
  unfold Forwarding.choose at h
  repeat' split at h
  all_goals first
    | cases h; rfl
    | cases h

theorem State.transmit_up (s : State) : s.transmit.fwd.up = s.fwd.up := by
  unfold State.transmit
  split
  · split
    · rfl
    · rename_i p w hc
      exact Forwarding.choose_up (x := w) hc
  · rfl

/-- On its own uplink a session parcel joins the OFFICE queue or is held (R156). -/
theorem State.handSession_up (h : s.fwd.up = true) (p : List Byte) : (s.handSession p).1 ≠ .noRoute ∧
    keeps [.fwd] s (s.handSession p).2 ∧ (s.handSession p).2.fwd.up = true := by
  simp only [State.handSession, h, if_true]
  split
  · refine ⟨by simp, ?_, (State.transmit_up _).trans h⟩
    simp
  · exact ⟨by simp, by simp, h⟩

/-- A message that stands before SESSION-END in a session that has become CLOSING at once, or SESSION-END itself. -/
def OutMessage.closes : OutMessage → Bool
  | .fileTaken _ => true
  | .fileRefused _ _ => true
  | .sessionEnd _ _ => true
  | .opening _ _ _ => false
  | .batchPart _ _ _ _ => false
  | .fileWanted _ => false
  | .skipFile _ => false
  | .fileBad _ _ _ => false

/-- What a session in CLOSING leaves as it hands over its messages (R181). -/
structure State.Closed (s t : State) : Prop where
  outcome : t.link.outcome = s.link.outcome
  state : t.link.state = .closing ∨ t.link.state = .done
  kept : keeps [.link, .fwd, .trunk, .counts] s t
  trunk : s.fwd.up = true → t.trunk = s.trunk

theorem State.Closed.trans (h : s.Closed t) (hup : s.fwd.up = true → t.fwd.up = true) (k : t.Closed u) : s.Closed u :=
  ⟨k.outcome.trans h.outcome, k.state, h.kept.trans k.kept, fun hs => (k.trunk (hup hs)).trans (h.trunk hs)⟩

theorem State.handSession_closed (h : s.link.state = .closing) (p : List Byte) : s.Closed (s.handSession p).2 := by
  have link : (s.handSession p).2.link = s.link := s.handSession_keeps p .link (by decide)
  exact ⟨by rw [link], .inl (by rw [link, h]), (s.handSession_keeps p).mono (by decide),
    fun hup => (State.handSession_up hup p).2.1 .trunk (by decide)⟩

theorem State.attemptDone_closed (s : State) : s.Closed s.attemptDone :=
  ⟨rfl, .inr rfl, by simp [State.attemptDone], fun _ => rfl⟩

theorem State.sessionEvent_closed (h : s.link.state = .closing) (r : FailReason) : s.Closed (s.sessionEvent r) := by
  have done : s.sessionEvent r = s.removeSessionParcels.attemptDone := by simp only [State.sessionEvent, h]
  have removed : s.Closed s.removeSessionParcels :=
    ⟨rfl, .inl h, (State.withFwd_keeps _ _).mono (by decide), fun _ => rfl⟩
  exact done ▸ removed.trans (fun hup => hup) (State.attemptDone_closed _)

theorem pump_closed : ∀ (n : Nat) (s : State), s.link.state = .closing → (∀ m ∈ s.link.toSend, m.closes = true) →
    s.Closed (pump n s)
  | 0, s, hs, _ => ⟨rfl, .inl hs, .refl _ _, fun _ => rfl⟩
  | n + 1, s, hs, hm => by
    have same : s.Closed s := ⟨rfl, .inl hs, .refl _ _, fun _ => rfl⟩
    by_cases hw : s.link.waiting = true
    · rwa [pump_waiting hw]
    have free : s.link.waiting = false := by simpa using hw
    have going : s.link.state.inProgress = true := by rw [hs]; rfl
    cases ht : s.link.toSend with
    | nil => rwa [pump_rests (by simp [hs]) ht]
    | cons m ms =>
      have handed := State.handSession_closed hs (messageBytes m)
      have up := fun h => (State.handSession_up (s := s) h (messageBytes m)).2.2
      have link : (s.handSession (messageBytes m)).2.link = s.link := s.handSession_keeps _ .link (by decide)
      have closes : m.closes = true := hm m (by simp [ht])
      cases ha : s.handSession (messageBytes m) with
      | mk ans t =>
        simp only [ha] at handed up link
        cases ans with
        | waiting =>
          rw [pump_waits going free ht ha]
          exact handed.trans up ⟨rfl, handed.state, (State.withLink_keeps _ _).mono (by decide), fun _ => rfl⟩
        | noRoute =>
          rw [pump_noRoute going free ht ha]
          exact handed.trans up (State.sessionEvent_closed (by rw [link, hs]) _)
        | queued =>
          rw [pump_queued going free ht ha]
          have rest : ∀ x ∈ ms, x.closes = true := fun x hx => hm x (by simp [ht, hx])
          have onward : ∀ v : State, v.link.state = .closing → v.link.toSend = ms → t.Closed v → v.fwd = t.fwd →
              s.Closed (pump n v) := fun v hv hms hc hf =>
            (handed.trans up hc).trans (fun h => by rw [hf]; exact up h) (pump_closed n v hv (hms ▸ rest))
          cases m with
          | fileTaken k =>
            exact onward (t.onQueued _) (by simp [State.onQueued, link, hs]) (by simp [State.onQueued, link, ht])
              ⟨rfl, .inl (by simp [State.onQueued, link, hs]), by simp [State.onQueued], fun _ => rfl⟩ rfl
          | fileRefused k b =>
            exact onward (t.onQueued _) (by simp [State.onQueued, link, hs]) (by simp [State.onQueued, link, ht])
              ⟨rfl, .inl (by simp [State.onQueued, link, hs]), by simp [State.onQueued], fun _ => rfl⟩ rfl
          | sessionEnd k o =>
            rw [pump_over rfl]
            exact (handed.trans up (u := t.onQueued _) ⟨rfl, .inr rfl, by simp [State.onQueued, State.attemptDone], fun _ => rfl⟩)
          | opening _ _ _ => cases closes
          | batchPart _ _ _ _ => cases closes
          | fileWanted _ => cases closes
          | skipFile _ => cases closes
          | fileBad _ _ _ => cases closes

/-- The session has fuel for all its messages and for more. -/
theorem State.pumpSession_fuel (s : State) : ∃ n, s.pumpSession = pump (s.link.toSend.length + (n + 8)) s :=
  ⟨(s.journal.records.map fun r => 32 + 25 * r.lines.length).sum + 8, by
    simp only [State.pumpSession, State.pumpFuel]
    congr 1⟩

/-- A message whose QUEUED takes it off those in hand and does nothing more. -/
def OutMessage.passes : OutMessage → Bool
  | .fileTaken _ => true
  | .fileRefused _ _ => true
  | .opening _ _ _ => false
  | .batchPart _ _ _ _ => false
  | .fileWanted _ => false
  | .skipFile _ => false
  | .fileBad _ _ _ => false
  | .sessionEnd _ _ => false

theorem State.onQueued_passes (h : m.passes = true) (hw : s.link.waiting = false) {ms : List OutMessage}
    (ht : s.link.toSend = m :: ms) : s.onQueued m = { s with link := { s.link with toSend := ms } } := by
  cases m <;> cases h <;> simp [State.onQueued, OutMessage.asks, State.withLink, ht, hw]

/-- The last messages of an attempt that find room are handed over in order, and the attempt ends (R172, R181). -/
theorem pump_ended {a : Nat} {o : FileOutcome} : ∀ (ms : List OutMessage) (s : State), s.link.state.inProgress = true →
    s.link.waiting = false → s.link.toSend = ms ++ [.sessionEnd a o] → s.link.outcome = o →
    s.Carries (ms ++ [.sessionEnd a o]) → (∀ m ∈ ms, m.passes = true) →
    (pump (ms.length + (n + 1)) s).fwd = s.carried (ms ++ [.sessionEnd a o]) ∧
      (pump (ms.length + (n + 1)) s).link = s.link.ended o
  | [], s, hp, hw, ht, ho, hc, _ => by
    rw [List.length_nil, Nat.zero_add, pump_sessionEnd hp hw ht ho hc]
    exact ⟨rfl, rfl⟩
  | m :: ms, s, hp, hw, ht, ho, hc, hm => by
    have queued := State.onQueued_passes (s := { s with fwd := s.carried [m] }) (hm m (by simp)) hw ht
    let v : State := { s with fwd := s.carried [m], link := { s.link with toSend := ms ++ [.sessionEnd a o] } }
    have rest := pump_ended ms v hp hw rfl ho (hc.tail v rfl) fun x hx => hm x (by simp [hx])
    have joined : v.carried (ms ++ [.sessionEnd a o]) = s.carried (m :: (ms ++ [.sessionEnd a o])) :=
      State.carried_cons rfl rfl
    rw [List.length_cons, Nat.add_right_comm, pump_carries hp hw ht hc.head, queued]
    exact ⟨rest.1.trans joined, rest.2⟩

/-- How a session that becomes CLOSING goes on, and what stays (R172, R180, R181). -/
theorem State.closing_pumped {v : State} {ms : List OutMessage} {o : FileOutcome} (hf : v.fwd = s.fwd) (hl : v.link = s.link)
    (hset : v.settings = s.settings) (hm : ∀ m ∈ ms, m.passes = true) :
    s.Closes ms o (v.closing ms o).pumpSession ∧
    keeps [.link, .fwd, .trunk, .counts] v (v.closing ms o).pumpSession ∧
    (s.fwd.up = true → (v.closing ms o).pumpSession.trunk = v.trunk) := by
  have begun : keeps [.link, .fwd, .trunk, .counts] v (v.closing ms o) := (State.withLink_keeps _ _).mono (by decide)
  have link : (v.closing ms o).link = { s.link with
      state := .closing, outcome := o, replyTimer := none, toSend := s.link.inHand ++ ms ++ [.sessionEnd s.link.acked o] } := by
    rw [← hl]
    rfl
  have waits : s.link.waiting = true → (v.closing ms o).pumpSession = v.closing ms o := fun hw =>
    State.pumpSession_waiting (by rw [link]; exact hw)
  by_cases hw : s.link.waiting = true
  · rw [waits hw]
    refine ⟨⟨by rw [link], .inl (by rw [link]), fun _ => ⟨hf, ?_⟩, fun h => by simp [h] at hw⟩, begun, fun _ => rfl⟩
    rw [link, Link.inHand_waiting hw]
  have free : s.link.waiting = false := by simpa using hw
  have toSend : (v.closing ms o).link.toSend = ms ++ [.sessionEnd s.link.acked o] := by rw [link, Link.inHand_free free]; rfl
  have closes : ∀ m ∈ (v.closing ms o).link.toSend, m.closes = true := fun m hmem => by
    rw [toSend, List.mem_append, List.mem_singleton] at hmem
    rcases hmem with hmem | rfl
    · have := hm m hmem
      cases m <;> first | rfl | cases this
    · rfl
  have closed := pump_closed (v.closing ms o).pumpFuel (v.closing ms o) (by rw [link]) closes
  refine ⟨⟨closed.outcome.trans (by rw [link]), closed.state, fun h => absurd h hw, fun _ hc => ?_⟩,
    begun.trans closed.kept, fun hup => closed.trunk (by rw [show (v.closing ms o).fwd = s.fwd from hf]; exact hup)⟩
  obtain ⟨n, hn⟩ := State.pumpSession_fuel (v.closing ms o)
  have fuel : (v.closing ms o).link.toSend.length + (n + 8) = ms.length + (n + 8 + 1) := by
    rw [toSend, List.length_append, List.length_singleton]
    omega
  have room : (v.closing ms o).Carries (ms ++ [.sessionEnd s.link.acked o]) := by
    refine ⟨?_, ?_, ?_⟩
    · exact hf ▸ hc.up
    · exact hf ▸ hc.sending
    · exact (show (v.closing ms o).officeBytes = s.officeBytes by rw [State.officeBytes]; exact congrArg _ (congrArg _ (congrArg _ hf))) ▸ hc.room
  have ended := pump_ended (n := n + 8) ms (v.closing ms o) (by rw [link]; rfl) (by rw [link]; exact free) toSend (by rw [link])
    room hm
  rw [hn, fuel]
  refine ⟨ended.1.trans ?_, ended.2.trans ?_⟩
  · have parcels : (v.closing ms o).parcelOf = s.parcelOf := by
      funext m
      simp only [State.parcelOf, link]
      rw [show (v.closing ms o).settings = s.settings from hset]
    simp only [State.carried, parcels]
    rw [show (v.closing ms o).fwd = s.fwd from hf]
  · rw [link]
    rfl

/-! ### The share of a released file (R188) -/

/-! ### A file that fails its check (R180) -/

/-- With no owner the staging list stays as a session goes on, but in UPLOADING (R177, R182). -/
theorem pump_staging : ∀ (n : Nat) (s : State), s.link.state ≠ .uploading → s.staging.owner ≠ .session →
    (pump n s).staging = s.staging
  | 0, _, _, _ => rfl
  | n + 1, s, hs, ho => by
    by_cases hp : s.link.state.inProgress = true
    case neg => rw [pump_over (by simpa using hp)]
    by_cases hw : s.link.waiting = true
    case pos => rw [pump_waiting hw]
    have free : s.link.waiting = false := by simpa using hw
    cases ht : s.link.toSend with
    | nil => rw [pump_rests hs ht]
    | cons m ms =>
      have kept := s.handSession_keeps (messageBytes m)
      have link : (s.handSession (messageBytes m)).2.link = s.link := kept .link (by decide)
      have staging : (s.handSession (messageBytes m)).2.staging = s.staging := kept .staging (by decide)
      cases ha : s.handSession (messageBytes m) with
      | mk ans t =>
        simp only [ha] at link staging
        cases ans with
        | waiting => exact (congrArg _ (pump_waits hp free ht ha)).trans staging
        | noRoute =>
          rw [pump_noRoute hp free ht ha, ← staging]
          have failed : (t.failAttempt .noRoute).staging = t.staging :=
            (t.failAttempt_spec .noRoute).1.kept (.inl (staging ▸ ho))
          unfold State.sessionEvent
          split
          all_goals first
            | exact failed
            | rfl
        | queued =>
          have queued : (t.onQueued m).staging = t.staging := t.onQueued_keeps m .staging (by decide)
          have before : t.link.state ≠ .uploading := link ▸ hs
          have state : (t.onQueued m).link.state ≠ .uploading := by
            cases m with
            | opening _ _ _ => exact before
            | batchPart _ _ last _ => cases last <;> exact before
            | fileWanted _ => exact before
            | skipFile _ => simp [State.onQueued, State.closing]
            | fileTaken _ => exact before
            | fileBad _ _ second => cases second <;> simp [State.onQueued, State.closing, before]
            | fileRefused _ _ => exact before
            | sessionEnd _ _ => simp [State.onQueued, State.attemptDone, Link.attemptOver]
          rw [pump_queued hp free ht ha, pump_staging n _ state (by rw [queued, staging]; exact ho), queued, staging]

section FileBad
variable {serial k : Nat} (hd : s.link.state = .downloading) (hw : s.link.waiting = false)
include hd hw

theorem pump_fileBad (ht : s.link.toSend = [.fileBad serial k false]) (hc : s.Carries [.fileBad serial k false]) :
    pump (n + 1) s = { s with
      fwd := s.carried [.fileBad serial k false]
      link := { s.link with toSend := [], replyTimer := some (s.now + Config.seconds 30) } } := by
  have queued : ({ s with fwd := s.carried [.fileBad serial k false] } : State).onQueued (.fileBad serial k false) = { s with
      fwd := s.carried [.fileBad serial k false]
      link := { s.link with toSend := [], replyTimer := some (s.now + Config.seconds 30) } } := by
    simp [State.onQueued, OutMessage.asks, State.withLink, ht, hw]
  rw [pump_carries (by rw [hd]; rfl) hw ht hc, queued]
  exact pump_empty hd rfl

theorem pump_secondFileBad (ht : s.link.toSend = [.fileBad serial k true])
    (hc : s.Carries [.fileBad serial k true, .sessionEnd s.link.acked .bad]) :
    pump (n + 2) s = ({ s with
      fwd := s.carried [.fileBad serial k true, .sessionEnd s.link.acked .bad]
      link := s.link.ended .bad } : State).bump .attemptsCompleted := by
  let w : State := { s with
    fwd := s.carried [.fileBad serial k true]
    link := { s.link with
      state := .closing, outcome := .bad, replyTimer := none, waiting := false, toSend := [.sessionEnd s.link.acked .bad] } }
  have queued : ({ s with fwd := s.carried [.fileBad serial k true] } : State).onQueued (.fileBad serial k true) = w := by
    simp [w, State.onQueued, State.closing, Link.inHand, OutMessage.asks, State.withLink, ht]
  have whole : w.carried [.sessionEnd s.link.acked .bad] =
      s.carried [.fileBad serial k true, .sessionEnd s.link.acked .bad] := State.carried_cons rfl rfl
  rw [pump_carries (by rw [hd]; rfl) hw ht hc.head, queued,
    pump_sessionEnd (s := w) (a := s.link.acked) (o := .bad) rfl rfl rfl rfl (hc.tail w rfl), whole]
  rfl

end FileBad

section Failed
variable {serial : Nat}

/-- The alert of a file that failed stands in the list as long as no other is recorded. -/
theorem State.fileBad_alert (h : t.alerts = (s.formFileBad serial).alerts) :
    ∃ a ∈ t.alerts.list, a.kind = .fileBad ∧ a.severity = .warn ∧ a.subject = .file serial :=
  h ▸ State.formFileBad_alert s serial

variable (hd : s.link.state = .downloading)
include hd

theorem State.formFileBad_free (hw : s.link.waiting = false) :
    (s.formFileBad serial).link.state = .downloading ∧ (s.formFileBad serial).link.waiting = false ∧
    (s.formFileBad serial).link.toSend = [.fileBad serial s.staging.records.length s.link.resendUsed] := by
  rw [State.formFileBad_link, Link.inHand_free hw]
  exact ⟨hd, hw, rfl⟩

/-- The first failed file leaves the session awaiting the file once more (R180). -/
theorem State.fileFailed_first (hw : s.link.waiting = false) (hr : s.link.resendUsed = false) (hup : s.fwd.up = true) :
    keeps [.fwd, .link] (s.formFileBad serial) (s.fileFailed serial) ∧ (s.fileFailed serial).link.resendUsed = true ∧
    (s.fileFailed serial).link.state = .downloading := by
  obtain ⟨state, free, toSend⟩ := State.formFileBad_free hd (serial := serial) hw
  rw [hr] at toSend
  have up : (s.formFileBad serial).fwd.up = true := by rw [State.formFileBad_fwd]; exact hup
  have used : (s.formFileBad serial).link.resendUsed = true := by rw [State.formFileBad_link]
  obtain ⟨n, hn⟩ := State.pumpSession_succ (s.formFileBad serial)
  rw [State.fileFailed, hn]
  generalize s.formFileBad serial = v at state free toSend up used
  have going : v.link.state.inProgress = true := by rw [state]; rfl
  obtain ⟨route, kept, -⟩ := State.handSession_up up (messageBytes (.fileBad serial s.staging.records.length false))
  have link := kept .link (by decide)
  cases ha : v.handSession (messageBytes (.fileBad serial s.staging.records.length false)) with
  | mk ans t =>
    simp only [ha] at route kept link
    have link : t.link = v.link := link
    cases ans with
    | noRoute => exact absurd rfl route
    | waiting =>
      rw [pump_waits going free toSend ha]
      exact ⟨(keeps.mono kept (by decide)).trans ((State.withLink_keeps _ _).mono (by decide)), by simp [link, used],
        by simp [link, state]⟩
    | queued =>
      have queued : t.onQueued (.fileBad serial s.staging.records.length false) = t.withLink fun l => { l with
          toSend := l.toSend.drop 1, waiting := false, replyTimer := some (t.now + Config.seconds 30) } := rfl
      rw [pump_queued going free toSend ha, queued, pump_empty (by simp [link, state]) (by simp [link, toSend])]
      exact ⟨(keeps.mono kept (by decide)).trans ((State.withLink_keeps _ _).mono (by decide)), by simp [link, used],
        by simp [link, state]⟩

/-- The second failed file leaves no staging list (R180). -/
theorem State.fileFailed_second (hr : s.link.resendUsed = true) : (s.fileFailed serial).staging = Staging.empty := by
  have staging : (s.formFileBad serial).staging = Staging.empty := by rw [State.formFileBad_staging, if_pos hr]
  rw [State.fileFailed, State.pumpSession, pump_staging _ _ (by rw [State.formFileBad_link]; simp [hd]) (by rw [staging]; simp [Staging.empty]),
    staging]

omit hd in
theorem State.formFileBad_carries {ms : List OutMessage} (hc : s.Carries ms) : (s.formFileBad serial).Carries ms ∧
    (s.formFileBad serial).carried ms = s.carried ms := by
  have fwd := State.formFileBad_fwd s serial
  have settings : (s.formFileBad serial).settings = s.settings := State.formFileBad_keeps s serial .settings (by decide)
  have tag : (s.formFileBad serial).link.attemptTag = s.link.attemptTag := by rw [State.formFileBad_link]
  refine ⟨⟨by rw [fwd]; exact hc.up, by rw [fwd]; exact hc.sending, by rw [State.officeBytes, fwd]; exact hc.room⟩, ?_⟩
  have parcels : (s.formFileBad serial).parcelOf = s.parcelOf := by
    funext m
    simp only [State.parcelOf, settings, tag]
  simp only [State.carried, fwd, parcels]

/-- A first FILE-BAD that finds room is handed over at once (R180). -/
theorem State.fileFailed_queued (hw : s.link.waiting = false) (hr : s.link.resendUsed = false)
    (hc : s.Carries [.fileBad serial s.staging.records.length false]) :
    s.fileFailed serial = { s.formFileBad serial with
      fwd := s.carried [.fileBad serial s.staging.records.length false]
      link := { s.link with resendUsed := true, toSend := [], replyTimer := some (s.now + Config.seconds 30) } } := by
  obtain ⟨state, free, toSend⟩ := State.formFileBad_free hd (serial := serial) hw
  rw [hr] at toSend
  obtain ⟨carries, joined⟩ := State.formFileBad_carries (serial := serial) hc
  have now : (s.formFileBad serial).now = s.now := State.formFileBad_keeps s serial .now (by decide)
  have link := State.formFileBad_link s serial
  obtain ⟨n, hn⟩ := State.pumpSession_succ (s.formFileBad serial)
  rw [State.fileFailed, hn]
  generalize s.formFileBad serial = v at state free toSend carries joined now link
  have awaits : { v.link with toSend := [], replyTimer := some (v.now + Config.seconds 30) } = { s.link with
      resendUsed := true, toSend := [], replyTimer := some (s.now + Config.seconds 30) } := by rw [link, now]
  rw [pump_fileBad state free toSend carries, joined, awaits]

/-- A second FILE-BAD that finds room is handed over at once, and SESSION-END after it (R180, R181). -/
theorem State.fileFailed_ends (hw : s.link.waiting = false) (hr : s.link.resendUsed = true)
    (hc : s.Carries [.fileBad serial s.staging.records.length true, .sessionEnd s.link.acked .bad]) :
    s.fileFailed serial = ({ s.formFileBad serial with
      fwd := s.carried [.fileBad serial s.staging.records.length true, .sessionEnd s.link.acked .bad]
      link := s.link.ended .bad } : State).bump .attemptsCompleted := by
  obtain ⟨state, free, toSend⟩ := State.formFileBad_free hd (serial := serial) hw
  rw [hr] at toSend
  obtain ⟨carries, joined⟩ := State.formFileBad_carries (serial := serial) hc
  have link := State.formFileBad_link s serial
  obtain ⟨n, hn⟩ := State.pumpSession_fuel (s.formFileBad serial)
  rw [State.fileFailed, hn]
  generalize s.formFileBad serial = v at state free toSend carries joined link
  have acked : v.link.acked = s.link.acked := by rw [link]
  have ended : v.link.ended .bad = s.link.ended .bad := by
    rw [link, ← hr]
    rfl
  rw [toSend, List.length_singleton, Nat.add_comm 1, pump_secondFileBad state free toSend (acked ▸ carries), acked, joined, ended]

end Failed

/-! ### The share of a released file (R188) -/

/-- The number of frames in the share of a staging list (R188). -/
def Staging.frames (g : Staging) : Nat := shareFrames (g.count.getD 0) + 2

/-- The share has been handed over in full (R188). -/
def State.shared (s : State) : State := (s.withStaging fun g => { g with share := none }).freeStaging

theorem shareFrom_over {p : Nat} (h : s.staging.share = some p) (hp : s.staging.frames ≤ p) :
    shareFrom (n + 1) s = s.shared := by
  simp only [shareFrom, h]
  exact if_pos hp

section Share
variable {p : Nat} (h : s.staging.share = some p) (hp : p < s.staging.frames)
include h hp

theorem shareFrom_queued (ho : s.offer (Frame.new none (s.staging.shareFrame p) .share) = (.queued, t)) :
    shareFrom (n + 1) s = shareFrom n (t.withStaging fun g => { g with share := some (p + 1) }) := by
  simp only [shareFrom, h, ho]
  exact if_neg (Nat.not_le.2 hp)

theorem shareFrom_waits (ho : s.offer (Frame.new none (s.staging.shareFrame p) .share) = (.waiting, t)) :
    shareFrom (n + 1) s = t := by
  simp only [shareFrom, h, ho]
  exact if_neg (Nat.not_le.2 hp)

theorem shareFrom_lost (ho : s.offer (Frame.new none (s.staging.shareFrame p) .share) = (.notTaken, t)) :
    shareFrom (n + 1) s = shareFrom n ((t.bump .shareFramesLost).withStaging fun g => { g with share := some (p + 1) }) := by
  simp only [shareFrom, h, ho]
  exact if_neg (Nat.not_le.2 hp)

end Share

theorem Staging.shareFrame_class (g : Staging) (p : Nat) : (g.shareFrame p).trunkClass = .notice ∧
    (g.shareFrame p).waits = true := by
  unfold Staging.shareFrame
  dsimp only
  repeat' split
  all_goals exact ⟨rfl, rfl⟩

/-- The frames of the share that find room are handed over one after another (R188). -/
theorem shareFrom_all : ∀ (d k p : Nat) (s : State), s.staging.share = some p → p + d = s.staging.frames → d < k →
    s.canSend = true → s.trunk.notice.length + d ≤ 64 →
    shareFrom k s = (s.withTrunk fun t => { t with
      notice := t.notice ++ (List.range d).map fun i => Frame.new none (s.staging.shareFrame (p + i)) .share }).shared
  | d, 0, _, _, _, _, hk, _, _ => absurd hk (Nat.not_lt_zero d)
  | 0, k + 1, p, s, h, hd, _, _, _ => by
    rw [shareFrom_over h (by omega)]
    simp [State.withTrunk]
  | d + 1, k + 1, p, s, h, hd, hk, hc, hroom => by
    have offered := State.offer_notice_queued (s := s) (f := Frame.new none (s.staging.shareFrame p) .share)
      (Staging.shareFrame_class _ _).1 hc (by omega)
    rw [shareFrom_queued h (by omega) offered]
    let v : State := (s.withTrunk fun x => { x with
      notice := x.notice ++ [Frame.new none (s.staging.shareFrame p) .share] }).withStaging fun g =>
        { g with share := some (p + 1) }
    have room : v.trunk.notice.length + d ≤ 64 := by
      simp only [v, State.withStaging_trunk, State.withTrunk_trunk, List.length_append, List.length_singleton]
      omega
    have rest := shareFrom_all d k (p + 1) v rfl (by rw [show v.staging.frames = s.staging.frames from rfl]; omega)
      (by omega) hc room
    have frames : (List.range d).map (fun i => Frame.new none (v.staging.shareFrame (p + 1 + i)) .share) =
        (List.range d).map fun i => Frame.new none (s.staging.shareFrame (p + (i + 1))) .share :=
      List.map_congr_left fun i _ => by rw [Nat.add_assoc, Nat.add_comm 1 i]; rfl
    refine rest.trans ?_
    rw [frames, List.range_succ_eq_map, List.map_cons, List.map_map]
    simp only [v, State.shared, State.withTrunk, State.withStaging, List.append_assoc, List.singleton_append, Nat.add_zero]
    rfl

/-- A part that may not send loses every frame of the share that is left (R188). -/
theorem shareFrom_none : ∀ (d k p : Nat) (s : State), s.staging.share = some p → p + d = s.staging.frames → d < k →
    s.canSend = false → (shareFrom k s).trunk = s.trunk ∧
      (shareFrom k s).count .shareFramesLost =
        (if d = 0 then s.count .shareFramesLost else min (s.count .shareFramesLost + d) 4294967295) ∧
      (s.staging.released = false → (shareFrom k s).staging = { s.staging with share := none })
  | d, 0, _, _, _, _, hk, _ => absurd hk (Nat.not_lt_zero d)
  | 0, k + 1, p, s, h, hd, _, _ => by
    rw [shareFrom_over h (by omega)]
    have freed : ∀ v : State, keeps [.staging] v v.freeStaging := fun v => by
      unfold State.freeStaging
      split
      · exact State.withStaging_keeps _ _
      · exact .refl _ _
    refine ⟨freed _ .trunk (by decide), ?_, fun hr => ?_⟩
    · exact Raises.of_keeps (freed _) (by decide) [] _ (by simp)
    · simp [State.shared, State.freeStaging, hr]
  | d + 1, k + 1, p, s, h, hd, hk, hc => by
    have offered : s.offer (Frame.new none (s.staging.shareFrame p) .share) = (.notTaken, s.bump .notTakenNotice) := by
      rw [State.offer_of_not_canSend _ _ hc, Frame.new, (Staging.shareFrame_class _ _).1]
      rfl
    rw [shareFrom_lost h (by omega) offered]
    let v : State := ((s.bump .notTakenNotice).bump .shareFramesLost).withStaging fun g => { g with share := some (p + 1) }
    have staging : v.staging = { s.staging with share := some (p + 1) } := by simp [v]
    have count : v.count .shareFramesLost = min (s.count .shareFramesLost + 1) 4294967295 := by
      refine (State.count_bump (s.bump .notTakenNotice) _ _).trans ((if_pos rfl).trans ?_)
      rw [State.count_bump_ne _ (by decide)]
    obtain ⟨trunk, lost, left⟩ := shareFrom_none d k (p + 1) v (by rw [staging])
      (by rw [show v.staging.frames = s.staging.frames by rw [staging]; rfl]; omega) (by omega)
      (by rw [← hc]; exact State.canSend_of_keeps (fs := [.counts, .staging]) (by simp [v]) (by decide))
    refine ⟨trunk.trans (by simp [v]), ?_, fun hr => ?_⟩
    · rw [lost, count, if_neg (Nat.succ_ne_zero d)]
      split <;> omega
    · rw [left (by rw [staging]; exact hr), staging]

/-- As long as the release is not complete the share changes its own position alone in the staging list (R187, R188). -/
theorem shareFrom_staging : ∀ (k : Nat) (s : State), s.staging.released = false →
    ∃ x, (shareFrom k s).staging = { s.staging with share := x }
  | 0, s, _ => ⟨s.staging.share, rfl⟩
  | k + 1, s, hr => by
    cases h : s.staging.share with
    | none => exact ⟨none, by simp only [shareFrom, h]; rw [← h]⟩
    | some p =>
      by_cases hp : p < s.staging.frames
      case neg =>
        rw [shareFrom_over h (Nat.not_lt.1 hp)]
        exact ⟨none, by simp [State.shared, State.freeStaging, hr]⟩
      have onward : ∀ v : State, v.staging = { s.staging with share := some (p + 1) } →
          ∃ x, (shareFrom k v).staging = { s.staging with share := x } := fun v hv => by
        obtain ⟨x, hx⟩ := shareFrom_staging k v (by rw [hv]; exact hr)
        exact ⟨x, by rw [hx, hv]⟩
      have kept := State.offer_keeps s (Frame.new none (s.staging.shareFrame p) .share) .staging (by decide)
      cases ho : s.offer (Frame.new none (s.staging.shareFrame p) .share) with
      | mk ans t =>
        rw [ho] at kept
        have staging : t.staging = s.staging := kept
        cases ans with
        | queued => exact shareFrom_queued h hp ho ▸ onward _ (by simp [staging])
        | waiting => exact ⟨some p, by rw [shareFrom_waits h hp ho, staging, ← h]⟩
        | notTaken => exact shareFrom_lost h hp ho ▸ onward _ (by simp [staging])

/-- A file of the session that is handed to the price book unit, before its share begins (R187, R188). -/
def State.releasing (s : State) : State :=
  { s with
    staging := { s.staging with
      phase := .releasing, share := if s.settings.share then some 0 else none, released := false }
    book := { s.book with cursor := some 0 } }

theorem State.beginRelease_session (ho : s.staging.owner = .session) (hc : 0 < s.staging.count.getD 0) :
    s.beginRelease = s.releasing.shareOn := by
  have hne : s.staging.count.getD 0 ≠ 0 := Nat.ne_of_gt hc
  simp [State.beginRelease, ho, hne, State.withStaging, State.withBook, State.releasing]

/-- The share of a file that has just been taken finds room as a whole (R188). -/
theorem State.releasing_shared (hs : s.settings.share = true) (hc : s.releasing.canSend = true)
    (hroom : s.trunk.notice.length + s.staging.frames ≤ 64) :
    let frame (i : Nat) : Frame := .new none (s.staging.shareFrame i) .share
    s.releasing.shareOn.trunk = { s.trunk with notice := s.trunk.notice ++ (List.range s.staging.frames).map frame } ∧
    s.releasing.shareOn.staging = { s.staging with phase := .releasing, share := none, released := false } := by
  intro frame
  have begun : s.releasing.staging = { s.staging with phase := .releasing, share := some 0, released := false } := by
    simp [State.releasing, hs]
  have frames : s.releasing.staging.frames = s.staging.frames := by rw [begun]; rfl
  have same : (fun i => Frame.new none (s.releasing.staging.shareFrame (0 + i)) .share) = frame := by
    funext i
    rw [begun, Nat.zero_add]
    rfl
  have all := shareFrom_all s.staging.frames (s.staging.frames + 1) 0 s.releasing (by rw [begun])
    (by rw [frames, Nat.zero_add]) (Nat.lt_succ_self _) hc hroom
  rw [same] at all
  have on : s.releasing.shareOn = shareFrom (s.staging.frames + 1) s.releasing :=
    congrArg (fun k => shareFrom k s.releasing) (congrArg (· + 1) frames)
  rw [on, all]
  have trunk : s.releasing.trunk = s.trunk := rfl
  constructor
  · simp [State.shared, State.freeStaging, begun, trunk]
  · simp [State.shared, State.freeStaging, begun]

/-- A file of the session that passes its check (R180, R187). -/
theorem State.takeFileEnd_passes (serial : Nat) (hp : s.staging.passes = true) (ho : s.staging.owner = .session)
    (hc : 0 < s.staging.count.getD 0) :
    s.takeFileEnd serial = (((s.bump .filesTaken).releasing.shareOn).closing [.fileTaken serial] .taken).pumpSession := by
  rw [State.takeFileEnd, if_pos hp, State.beginRelease_session (by simpa using ho) (by simpa using hc)]

/-- A block with a frame of the share in a hold line is the office link controller (R124). -/
theorem Frame.sender_ne_link {f : Frame} {x : FrameBody} (h : f.purpose ≠ .share) (hr : ∀ b, f.purpose ≠ .reply b) :
    f.sender ≠ (Frame.new none x .share).sender := by
  unfold Frame.sender
  split <;> simp_all [Frame.new]

end Sys2Proof.Machine

/-! ### The statements -/

open Sys2Proof Sys2Proof.Machine

/-- Settles O43: each message of the download, the frames of the share, and the messages that stand in line. -/
theorem sessionFilesAreReceived : Obligations.SessionFilesAreReceived := by
  refine ⟨fun s serial hl hserv hst ho hp => ?messages, fun s m next rest hst hw ht hm hup hfull => ?inLine, fun s => ?share⟩
  case messages =>
    intro tag g ends
    have collects : s.SessionCollects := ⟨hst, ho, hp⟩
    have going : s.link.state.inProgress = true := by rw [hst]; rfl
    have taken : ∀ m, s.deliverMessage s.link.attemptTag m = s.awaited m :=
      fun m => State.deliverMessage_awaited hl hserv m going
    have started : g.count = none → ∀ count check, exec (.fileStart tag serial count check) s =
        .next (s.takeFileStart serial count check) := fun hc count check =>
      congrArg _ ((taken (.fileStart serial count check)).trans (if_pos ((State.awaitsStart_iff s).2 ⟨collects, hc⟩)))
    have ended : ∀ count, g.count = some count → s.link.newest = some serial →
        exec (.fileEnd tag serial) s = .next (s.takeFileEnd serial) := fun count hc hn => by
      have receiving : (s.receiving && s.link.newest == some serial) = true := by
        rw [(State.receiving_iff s).2 ⟨collects, by rw [show s.staging.count = some count from hc]; simp⟩, hn]
        simp
      exact congrArg _ ((taken (.fileEnd serial)).trans (if_pos receiving))
    refine ⟨fun hc count check => ⟨fun hn hle => ?start, fun hno => ?refused⟩, fun hc hr hn => ?noResend,
      fun count hc hn => ⟨fun first rs hlo hhi => ?part, fun hpass hpos => ?passes, fun hfail hr hw hup => ?first,
        fun hfail hr => ?second, fun hfail => ?fails⟩⟩
    case start =>
      have fits : ¬ Config.stagingCapacity < count := Nat.not_lt.2 hle
      rw [started hc, State.takeFileStart, if_neg (not_not_intro hn), if_neg fits]
      rfl
    case refused =>
      have refuse : s.takeFileStart serial count check = s.refuseFile serial (s.link.newest == some serial) := by
        rw [State.takeFileStart]
        by_cases hn : s.link.newest = some serial
        · have hbig : Config.stagingCapacity < count := hno.resolve_left (not_not_intro hn)
          rw [if_neg (not_not_intro hn), if_pos hbig, beq_iff_eq.2 hn]
        · rw [if_pos hn, beq_eq_false_iff_ne.2 hn]
      obtain ⟨closes, kept, -⟩ := State.closing_pumped (s := s) (v := (s.withStaging fun _ => Staging.empty).bump .filesRefused)
        (ms := [.fileRefused serial (s.link.newest == some serial)]) (o := .refused) (by simp) (by simp) (by simp) (by simp [OutMessage.passes])
      refine ⟨_, started hc _ _, ?_⟩
      rw [refuse]
      exact ⟨(kept .staging (by decide)).trans (by simp), closes⟩
    case noResend =>
      have awaited : (s.awaitsStart && s.link.resendUsed && s.link.newest == some serial) = true := by
        rw [(State.awaitsStart_iff s).2 ⟨collects, hc⟩, hr, hn]
        simp
      obtain ⟨closes, kept, -⟩ := State.closing_pumped (s := s) (v := s.withStaging fun _ => Staging.empty)
        (ms := []) (o := .bad) rfl rfl rfl (by simp)
      have ran : exec (.noResend tag serial) s =
          .next ((s.withStaging fun _ => Staging.empty).closing [] .bad).pumpSession :=
        congrArg _ ((taken (.noResend serial)).trans (if_pos awaited))
      exact ⟨_, ran, kept .staging (by decide), closes⟩
    case part =>
      obtain ⟨m, hstore, hput, hkeep⟩ := storeRecords_indexed first rs s
      obtain rfl : count = s.staging.count.getD 0 := by rw [show s.staging.count = some count from hc]; rfl
      have received : (s.receiving && s.link.newest == some serial && inRange rs.length 32) = true := by
        rw [(State.receiving_iff s).2 ⟨collects, by rw [show s.staging.count = some _ from hc]; simp⟩, hn, (inRange_iff _ _).2 ⟨hlo, hhi⟩]
        simp
      refine ⟨m, congrArg _ ((taken (.filePart serial first rs)).trans ((if_pos received).trans ?_)), hput, hkeep⟩
      rw [hstore]
      simp only [State.restartReply, State.withLink, State.withStaging, State.bumpBy_link, State.bumpBy_staging, State.bumpBy_now]
      rfl
    case passes =>
      have goal := State.takeFileEnd_passes serial hpass ho (by rw [show s.staging.count = some count from hc]; exact hpos)
      have shared := State.shareOn_keeps (s.bump .filesTaken).releasing
      obtain ⟨x, staging⟩ := shareFrom_staging _ (s.bump .filesTaken).releasing rfl
      have fwd : (s.bump .filesTaken).releasing.shareOn.fwd = s.fwd := (shared .fwd (by decide)).trans (by simp [State.releasing])
      have link : (s.bump .filesTaken).releasing.shareOn.link = s.link := (shared .link (by decide)).trans (by simp [State.releasing])
      have settings : (s.bump .filesTaken).releasing.shareOn.settings = s.settings :=
        (shared .settings (by decide)).trans (by simp [State.releasing])
      have book : (s.bump .filesTaken).releasing.shareOn.book = { s.book with cursor := some 0 } :=
        (shared .book (by decide)).trans (by simp [State.releasing])
      obtain ⟨closes, kept, -⟩ := State.closing_pumped (s := s) (v := (s.bump .filesTaken).releasing.shareOn)
        (ms := [.fileTaken serial]) (o := .taken) fwd link settings (by simp [OutMessage.passes])
      have list := (kept .staging (by decide)).trans staging
      refine ⟨_, ended count hc hn, ?_⟩
      rw [goal]
      exact ⟨(kept .book (by decide)).trans book, by rw [list]; rfl, by rw [list]; simp [State.releasing, g], closes⟩
    case first =>
      have failed : s.takeFileEnd serial = s.fileFailed serial := by rw [State.takeFileEnd, show s.staging.passes = false from hfail]; rfl
      obtain ⟨kept, used, state⟩ := State.fileFailed_first hst (serial := serial) hw hr hup
      refine ⟨_, ended count hc hn, ?_⟩
      rw [failed]
      refine ⟨(kept .staging (by decide)).trans ?_, used, state, State.fileBad_alert (kept .alerts (by decide))⟩
      rw [State.formFileBad_staging, hr]
      rfl
    case second =>
      have failed : s.takeFileEnd serial = s.fileFailed serial := by rw [State.takeFileEnd, show s.staging.passes = false from hfail]; rfl
      exact ⟨_, ended count hc hn, failed ▸ State.fileFailed_second hst hr⟩
    case fails =>
      intro bad last fails
      have failed : s.takeFileEnd serial = s.fileFailed serial := by rw [State.takeFileEnd, show s.staging.passes = false from hfail]; rfl
      have staging := State.formFileBad_staging s serial
      have ran : exec (.fileEnd tag serial) s = .next (s.fileFailed serial) := failed ▸ ended count hc hn
      refine ⟨fun hw => ?behind, fun hw hr hcar => ?queued, fun hw hr hcar => ?ends⟩
      case behind =>
        refine ⟨_, ran, ?_⟩
        rw [State.fileFailed_waiting hw]
        refine ⟨?_, State.formFileBad_fwd s serial, staging, State.formFileBad_alert s serial⟩
        rw [State.formFileBad_link, Link.inHand_waiting hw]
      case queued =>
        have hcar' : s.Carries [.fileBad serial s.staging.records.length false] := by simpa [bad, g, hr] using hcar
        have bad_eq : bad = .fileBad serial s.staging.records.length false := by simp only [bad, hr, g]
        refine ⟨_, ran, ?_⟩
        rw [State.fileFailed_queued hst hw hr hcar', bad_eq]
        exact ⟨rfl, rfl, staging, State.formFileBad_alert s serial⟩
      case ends =>
        have bad_eq : bad = .fileBad serial s.staging.records.length true := by simp only [bad, hr, g]
        refine ⟨_, ran, ?_⟩
        rw [bad_eq] at hcar ⊢
        rw [State.fileFailed_ends hst hw hr hcar]
        refine ⟨by simp, by simp; rfl, by simpa using staging, State.fileBad_alert (s := s) (by simp)⟩
  case inLine =>
    have going : (s.link.state.inProgress && s.link.waiting) = true := by rw [hst, hw]; rfl
    let v : State := { s with
      link := { s.link with waiting := false, toSend := next :: rest, replyTimer := some (s.now + Config.seconds 30) } }
    have queued : s.onQueued m = v := by
      obtain ⟨k, rfl | ⟨n, rfl⟩⟩ := hm <;> simp [v, State.onQueued, OutMessage.asks, State.withLink, ht]
    obtain ⟨n, hn⟩ := State.pumpSession_succ v
    have told : s.toldQueued = v.pumpSession := by
      rw [State.toldQueued, if_pos going, ht, ← queued]
    rw [told, hn, pump_waits (s := v) (by simp [v, hst, SessionState.inProgress]) rfl rfl
      (State.handSession_full (s := v) hup hfull)]
    simp only [v, State.withLink, ← hw]
    rfl
  case share =>
    intro g count check parts body frame ended
    have frames : g.frames = parts + 2 := rfl
    have notice : ∀ p, (g.shareFrame p).trunkClass = .notice := fun p => (g.shareFrame_class p).1
    refine ⟨fun p h hle hc hroom => ?all, fun p h hlt hc hfull hno => ?waits, fun p f h hf => ?next, fun p h hlt hc => ?lost,
      fun serial hl hserv hst ho hp hn hpass hpos hup hc => ?released⟩
    case all =>
      exact shareFrom_all (parts + 2 - p) (parts + 3) p s h (by rw [show s.staging.frames = parts + 2 from rfl]; omega) (by omega)
        hc hroom
    case waits =>
      have held := State.offer_held (s := s) (f := Frame.new none (g.shareFrame p) .share) hc (g.shareFrame_class p).2
        (by simp only [Frame.new, notice]; exact hfull)
        (by simp only [Frame.new, notice]; exact fun x hx => Frame.sender_ne_link (hno x hx).1 (hno x hx).2)
      refine (shareFrom_waits h hlt held).trans ?_
      simp only [Frame.new, notice]
      rfl
    case next => simp only [State.notifyQueued, hf, State.shareNext, show s.staging.share = some p from h]
    case lost =>
      obtain ⟨trunk, lost, left⟩ := shareFrom_none (parts + 2 - p) (parts + 3) p s h
        (by rw [show s.staging.frames = parts + 2 from rfl]; omega) (by omega) hc
      exact ⟨_, rfl, trunk, by rw [show s.shareOn = shareFrom (parts + 3) s from rfl, lost, if_neg (by omega)], left⟩
    case released =>
      intro c
      have collects : s.SessionCollects := ⟨hst, ho, hp⟩
      have some_count : s.staging.count = some count := by
        cases hcount : s.staging.count with
        | none => simp [count, g, hcount] at hpos
        | some k => simp [count, g, hcount]
      have receiving : (s.receiving && s.link.newest == some serial) = true := by
        rw [(State.receiving_iff s).2 ⟨collects, by rw [some_count]; simp⟩, hn]
        simp
      let v : State := (s.bump .filesTaken).releasing
      have ran : exec c s = .next ((v.shareOn).closing [.fileTaken serial] .taken).pumpSession :=
        congrArg _ (((State.deliverMessage_awaited hl hserv (.fileEnd serial) (by rw [hst]; rfl)).trans (if_pos receiving)).trans
          (State.takeFileEnd_passes serial hpass ho hpos))
      have fwd : v.shareOn.fwd = s.fwd := (State.shareOn_keeps v .fwd (by decide)).trans (by simp [v, State.releasing])
      obtain ⟨-, kept, trunk⟩ := State.closing_pumped (s := v.shareOn) (v := v.shareOn) (ms := [.fileTaken serial]) (o := .taken)
        rfl rfl rfl (by simp [OutMessage.passes])
      have trunk := trunk (by rw [fwd]; exact hup)
      have staging := kept .staging (by decide)
      have send : v.canSend = true := by simpa [State.canSend, v, State.releasing] using hc
      refine ⟨fun hshare hroom => ?shared, fun hshare => ?alone⟩
      case shared =>
        have all := State.releasing_shared (s := s.bump .filesTaken) (by simpa using hshare) send
          (by simpa [show s.staging.frames = parts + 2 from rfl, Nat.add_assoc] using hroom)
        refine ⟨_, ran, ?_, staging.trans (all.2.trans (by simp [g]))⟩
        rw [trunk]
        refine all.1.trans ?_
        simp only [State.bump_trunk, State.bump_staging]
        rfl
      case alone =>
        have on : v.shareOn = v := by
          have alone : v.staging.share = none := by simp [v, State.releasing, hshare]
          simp only [State.shareOn, shareFrom, alone]
        refine ⟨_, ran, ?_, ?_⟩
        · rw [trunk, on]
          simp [v, State.releasing]
        · refine staging.trans ?_
          rw [on]
          simp [v, State.releasing, hshare, g]

end

section
/-! PROOFS. A part that may not send: no operation gives it a frame or a holder; the station clash and the silence of a
peer. -/

namespace Sys2Proof.Machine

open Sys2Proof

variable {s t u : State}

/-! ### A part that may not send (R138, R150) -/

/-- From a state in which it may not send, the part keeps its part state, its trunk controller and its holder. -/
def State.Mute (s t : State) : Prop :=
  s.canSend = false → t.part = s.part ∧ t.trunk = s.trunk ∧ t.fwd.holder = s.fwd.holder

theorem State.Mute.refl (s : State) : s.Mute s := fun _ => ⟨rfl, rfl, rfl⟩

theorem State.Mute.trans (h : s.Mute t) (k : t.Mute u) : s.Mute u := fun hs => by
  obtain ⟨part, trunk, holder⟩ := h hs
  obtain ⟨part', trunk', holder'⟩ := k (by simpa only [State.canSend, part] using hs)
  exact ⟨part'.trans part, trunk'.trans trunk, holder'.trans holder⟩

theorem State.Mute.of_keeps {fs : List Field} (hk : keeps fs s t) (hf : Field.part ∉ fs ∧ Field.trunk ∉ fs ∧ Field.fwd ∉ fs) :
    s.Mute t := fun _ => ⟨hk .part hf.1, hk .trunk hf.2.1, congrArg Forwarding.holder (hk .fwd hf.2.2)⟩

theorem State.Mute.withFwd (s : State) (f : Forwarding → Forwarding) (h : ∀ w, (f w).holder = w.holder) :
    s.Mute (s.withFwd f) := fun _ => ⟨rfl, rfl, h s.fwd⟩

theorem State.Mute.bump (s : State) (c : Count) : s.Mute (s.bump c) := .of_keeps (s.bump_keeps c) (by decide)

theorem State.Mute.offer (s : State) (f : Frame) : s.Mute (s.offer f).2 := fun hs => by
  rw [State.offer_of_not_canSend s f hs]
  exact State.Mute.bump s _ hs

theorem State.Mute.foldl {α : Type} {g : State → α → State} (h : ∀ (x : State) (a : α), x.Mute (g x a)) (as : List α) (s : State) :
    s.Mute (as.foldl g s) := by
  induction as generalizing s with
  | nil => exact .refl s
  | cons a as ih => exact (h s a).trans (ih _)

/-! ### The forwarding unit -/

theorem Forwarding.choose_holder {w x : Forwarding} {k : Mode} {p : Parcel} (h : w.choose k = some (p, x)) :
    x.holder = w.holder := by
  unfold Forwarding.choose at h
  repeat' split at h
  all_goals first
    | cases h; rfl
    | cases h

theorem State.transmit_mute (s : State) : s.Mute s.transmit := by
  unfold State.transmit
  split
  · split
    · exact .refl s
    · rename_i p w hc
      exact fun _ => ⟨rfl, rfl, Forwarding.choose_holder (x := w) hc⟩
  · exact .refl s

theorem State.joinUplink_mute (s : State) (p : Parcel) : s.Mute (s.joinUplink p) :=
  (State.Mute.withFwd s _ fun w => by cases h : p.cls <;> rfl).trans (State.transmit_mute _)

theorem State.pendingOutcome_mute (s : State) (l : LaneNo) (n : Nat) (r : LaneReply) : s.Mute (s.pendingOutcome l n r) := by
  have late : ∀ v : State, v.Mute (v.outcomeWithoutEntry l) := fun v =>
    (State.Mute.bump v _).trans (.of_keeps (State.withLane_keeps _ _ _) (by decide))
  have dropped : s.Mute (s.dropPending l) := fun _ => ⟨rfl, rfl, rfl⟩
  have answered : ∀ v : State, v.Mute (v.authOutcome l n r) := fun v => .of_keeps (v.authOutcome_keeps l n r) (by decide)
  unfold State.pendingOutcome
  split
  · exact late s
  split
  · split
    · exact dropped.trans (answered _)
    · exact answered s
  · exact late s

theorem State.relayLost_mute (s : State) (out : Bool) (p : Parcel) : s.Mute (s.relayLost out p) := by
  unfold State.relayLost
  repeat' split
  · exact .refl s
  · exact s.pendingOutcome_mute _ _ _
  · exact .refl s
  · exact .refl s
  · exact .refl s
  · exact .bump s _

theorem drainRelayBack_mute (q : List Parcel) (s : State) : s.Mute (drainRelayBack q s) := by
  induction q generalizing s with
  | nil => exact .withFwd s _ fun _ => rfl
  | cons p q ih =>
    unfold drainRelayBack
    split
    · exact .withFwd s _ fun _ => rfl
    split
    · exact (State.Mute.bump s _).trans (ih _)
    · dsimp only
      split
      · exact ((State.Mute.offer s _).trans (.bump _ _)).trans (ih _)
      · exact (State.Mute.offer s _).trans (ih _)

/-! ### The price book unit -/

theorem State.formReports_mute (s : State) : s.Mute s.formReports := by
  unfold State.formReports
  dsimp only
  split
  · exact .refl s
  · exact (State.Mute.offer s _).trans (.of_keeps (State.withBook_keeps _ _) (by decide))

theorem State.retarget_mute (s : State) (n : Nat) (x : Target) : s.Mute (s.retarget n x) := by
  have put : ∀ o, s.Mute (s.putOwned n o) := fun o => .of_keeps (State.withLabels_keeps _ _) (by decide)
  unfold State.retarget
  split
  · exact .refl s
  dsimp only
  split
  · exact put _
  · exact put _
  · exact put _
  · exact put _
  · split
    · exact put _
    · exact (put _).trans (.offer _ _)

theorem State.unbindAll_mute (s : State) (a : Nat) : s.Mute (s.unbindAll a) :=
  .foldl (fun v n => by
    unfold State.unbindOne
    split
    · exact .refl v
    · exact ((State.Mute.of_keeps (State.withLabels_keeps _ _) (by decide)).trans (State.retarget_mute _ _ _)).trans
        (.of_keeps (State.uncountBound_keeps _ _) (by decide))) _ s

theorem State.complete_mute (s : State) (a : Nat) (c : Changeover) : s.Mute (s.complete a c) := by
  have entry : ∀ (v : State) (f : Entry → Entry), v.Mute (v.modifyEntry a f) := fun v f =>
    .of_keeps (v.modifyEntry_keeps a f) (by decide)
  have removed : ∀ v : State, v.Mute (v.removeEntry a) := fun v => .of_keeps (State.withBook_keeps _ _) (by decide)
  unfold State.complete
  repeat' split
  · exact entry s _
  · exact (s.unbindAll_mute a).trans (removed _)
  · exact (s.unbindAll_mute a).trans (entry _ _)
  · exact ((s.unbindAll_mute a).trans (removed _)).trans (.bump _ _)

theorem State.release_mute (s : State) (a : Nat) (c : Changeover) (n : Station) : s.Mute (s.release a c n) := by
  have entry : ∀ f, s.Mute (s.modifyEntry a f) := fun f => .of_keeps (s.modifyEntry_keeps a f) (by decide)
  unfold State.release
  dsimp only
  split
  · exact (entry _).trans (State.complete_mute _ _ _)
  · exact entry _

theorem State.localDone_mute (s : State) (a v : Nat) : s.Mute (s.localDone a v) := by
  unfold State.localDone
  repeat' split
  · exact .refl s
  · exact .refl s
  · exact .refl s
  · exact ((State.Mute.of_keeps (s.addReport_keeps _) (by decide)).trans (State.release_mute _ _ _ _)).trans
      (State.formReports_mute _)
  · exact .refl s

theorem State.listeningShelfCheck_mute (s : State) : s.Mute s.listeningShelfCheck :=
  .foldl (fun v a => by
    unfold State.listeningCheck
    repeat' split
    · exact .refl v
    · exact .refl v
    · exact .refl v
    · exact v.localDone_mute _ _
    · exact .refl v) _ s

/-! ### The share and the outcomes of the trunk controller -/

theorem State.freeStaging_keeps_staging (s : State) : keeps [.staging] s s.freeStaging := by
  unfold State.freeStaging
  split
  · exact State.withStaging_keeps _ _
  · exact .refl _ _

theorem shareFrom_mute : ∀ (n : Nat) (s : State), s.Mute (shareFrom n s)
  | 0, s => .refl s
  | n + 1, s => by
    have staged : ∀ (v : State) (f : Staging → Staging), v.Mute (v.withStaging f) := fun v f =>
      .of_keeps (v.withStaging_keeps f) (by decide)
    unfold shareFrom
    split
    · exact .refl s
    · dsimp only
      split
      · exact (staged s _).trans (.of_keeps (State.freeStaging_keeps_staging _) (by decide))
      split
      · exact ((State.Mute.offer s _).trans (staged _ _)).trans (shareFrom_mute n _)
      · exact .offer s _
      · exact (((State.Mute.offer s _).trans (.bump _ _)).trans (staged _ _)).trans (shareFrom_mute n _)

theorem State.shareNext_mute (s : State) : s.Mute s.shareNext := by
  unfold State.shareNext
  split
  · exact .refl s
  · exact (State.Mute.of_keeps (s.withStaging_keeps _) (by decide)).trans (shareFrom_mute _ _)

theorem State.tell_mute (s : State) (sent : Bool) (f : Frame) : s.Mute (s.tell sent f) := by
  unfold State.tell
  repeat' split
  all_goals first
    | exact .refl s
    | exact .bump s _
    | exact s.relayLost_mute _ _
    | exact (State.Mute.of_keeps (s.withBook_keeps _) (by decide)).trans (State.formReports_mute _)

/-! ### The session -/

theorem State.removeSessionParcels_mute (s : State) : s.Mute s.removeSessionParcels := fun _ => ⟨rfl, rfl, rfl⟩

theorem State.stopAttempt_mute (s : State) : s.Mute s.stopAttempt :=
  (((State.Mute.of_keeps (s.withLink_keeps _) (by decide)).trans (.of_keeps (State.clearSent_keeps _) (by decide))).trans
    (State.removeSessionParcels_mute _)).trans ((State.Mute.of_keeps (State.discardCollecting_keeps _) (by decide)).trans (.bump _ _))

theorem State.sessionEvent_mute (s : State) (r : FailReason) : s.Mute (s.sessionEvent r) := by
  have failed : s.Mute (s.failAttempt r) := s.stopAttempt_mute.trans (.of_keeps (State.restOrDone_keeps _ _) (by decide))
  have done : s.Mute s.removeSessionParcels.attemptDone :=
    s.removeSessionParcels_mute.trans (.of_keeps (State.attemptDone_keeps _) (by decide))
  unfold State.sessionEvent
  split
  · exact failed
  · exact failed
  · exact failed
  · exact done
  · exact .refl s
  · exact .refl s
  · exact .refl s

theorem State.handSession_mute (s : State) (p : List Byte) : s.Mute (s.handSession p).2 := by
  have path : ∀ n, s.Mute (s.withFwd fun w => { w with sessionPath := some n }) := fun n => .withFwd s _ fun _ => rfl
  unfold State.handSession
  dsimp only
  split
  · split
    · exact (path _).trans (State.joinUplink_mute _ _)
    · exact (path _).trans (.withFwd _ _ fun _ => rfl)
  · split
    · exact .refl s
    · split
      · exact (path _).trans (.offer _ _)
      · exact (path _).trans (.offer _ _)
      · exact ((path _).trans (.offer _ _)).trans (State.relayLost_mute _ _ _)

theorem pump_mute : ∀ (n : Nat) (s : State), s.Mute (pump n s)
  | 0, s => .refl s
  | n + 1, s => by
    unfold pump
    split
    · exact .refl s
    split
    · dsimp only
      split
      · exact ((s.handSession_mute _).trans (.of_keeps (State.onQueued_keeps _ _) (by decide))).trans (pump_mute n _)
      · exact (s.handSession_mute _).trans (.of_keeps (State.withLink_keeps _ _) (by decide))
      · exact (s.handSession_mute _).trans (State.sessionEvent_mute _ _)
    · split
      · have taken : s.Mute (s.takeBatch (s.link.cut.getD 0)).2 := .of_keeps (s.takeBatch_keeps _) (by decide)
        dsimp only
        split
        · exact taken
        · split
          · exact (taken.trans (.of_keeps (State.downloadDecision_keeps _) (by decide))).trans (pump_mute n _)
          · exact taken
        · exact (taken.trans (.of_keeps (State.joinBatch_keeps _ _) (by decide))).trans (pump_mute n _)
      · exact .refl s

theorem State.startAttempt_mute (s : State) (k : AttemptKind) : s.Mute (s.startAttempt k) :=
  ((State.Mute.of_keeps (s.withLink_keeps _) (by decide)).trans (.bump _ _)).trans (pump_mute _ _)

theorem State.watermarkCrossed_mute (s : State) : s.Mute s.watermarkCrossed := by
  have early : s.Mute s.earlyStart := by
    unfold State.earlyStart
    split
    · exact s.startAttempt_mute _
    · exact .bump s _
  have pending : s.Mute (s.withLink fun l => { l with earlyPending := true }) := .of_keeps (s.withLink_keeps _) (by decide)
  unfold State.watermarkCrossed
  split
  · exact pending
  · exact pending
  · exact early
  · exact early
  · exact .refl s

theorem State.takeEarlyNotice_mute (s : State) : s.Mute s.takeEarlyNotice := by
  unfold State.takeEarlyNotice
  split
  · exact (State.Mute.of_keeps (s.withLink_keeps _) (by decide)).trans (State.watermarkCrossed_mute _)
  · exact .refl s

/-! ### The clash (R137, R138) -/

theorem State.judgeReference_mute (s : State) : s.Mute s.judgeReference := .of_keeps s.judgeReference_keeps (by decide)

/-- A part that may not send has no holder once it has judged it (R150). -/
theorem State.judgeHolder_mute (h : s.canSend = false) :
    s.judgeHolder.part = s.part ∧ s.judgeHolder.trunk = s.trunk ∧ s.judgeHolder.fwd.holder = none := by
  have judged : s.judgedHolder = none := by simp [State.judgedHolder, h]
  have kept := s.judgeHolder_keeps
  refine ⟨kept .part (by decide), kept .trunk (by decide), ?_⟩
  unfold State.judgeHolder
  rw [judged]
  dsimp only
  split
  · rename_i hsame
    exact hsame.symm
  · let v : State := (s.withFwd fun w => { w with holder := none }).bump .holderChanges
    have off : v.canSend = false := by simpa [v, State.canSend] using h
    have holder : v.fwd.holder = none := by simp [v]
    split
    · exact holder
    · split
      · exact (State.sessionEvent_mute v .pathLost off).2.2.trans holder
      · exact holder

theorem State.judgeHolder_alerts (s : State) : State.Alerts 1 s s.judgeHolder := by
  have changed : ∀ h, State.Alerts 0 s ((s.withFwd fun w => { w with holder := h }).bump .holderChanges) := fun h =>
    .of_keeps (fs := [.fwd, .counts]) (by simp) (by decide) 0
  unfold State.judgeHolder
  dsimp only
  split
  · exact .refl 1 s
  · split
    · exact (changed _).mono (by decide)
    · split
      · exact (changed _).trans (State.sessionEvent_alerts _ _)
      · exact (changed _).mono (by decide)

theorem State.watermarkCrossed_alerts (s : State) : State.Alerts 1 s s.watermarkCrossed := by
  have early : State.Alerts 1 s s.earlyStart := by
    unfold State.earlyStart
    split
    · exact s.startAttempt_alerts _
    · exact .of_keeps (s.bump_keeps _) (by decide) 1
  have pending : State.Alerts 1 s (s.withLink fun l => { l with earlyPending := true }) :=
    .of_keeps (s.withLink_keeps _) (by decide) 1
  unfold State.watermarkCrossed
  split
  · exact pending
  · exact pending
  · exact early
  · exact early
  · exact .refl 1 s

theorem State.takeEarlyNotice_alerts (s : State) : State.Alerts 1 s s.takeEarlyNotice := by
  unfold State.takeEarlyNotice
  split
  · have cleared : State.Alerts 0 s (s.withLink fun l => { l with earlyPending := false }) :=
      .of_keeps (s.withLink_keeps _) (by decide) 0
    exact cleared.trans (State.watermarkCrossed_alerts _)
  · exact .refl 1 s

theorem State.endListening_alerts (s : State) : State.Alerts 2 s s.endListening := by
  have checked : State.Alerts 0 s s.listeningShelfCheck.judgeReference :=
    .of_keeps (fs := shelfFields) ((State.listeningShelfCheck_keeps s).trans ((State.judgeReference_keeps _).mono (by decide)))
      (by decide) 0
  exact (checked.trans (State.judgeHolder_alerts _)).trans (State.takeEarlyNotice_alerts _)

/-- What the clash discards, before the part judges its holder again (R138). -/
theorem State.dropAll_spec (hc : s.canSend = false) (hr : ∀ g ∈ s.trunk.frames ++ s.trunk.kept, g.purpose ≠ .reply true) :
    s.dropAll.part = s.part ∧ s.dropAll.trunk = { s.trunk with
      urgent := [], notice := [], bulk := [], holdNotice := [], holdBulk := [], kept := [], inAir := none
      beaconTimer := none } ∧ s.dropAll.alerts = s.alerts := by
  have quiet : (s.trunk.frames ++ s.trunk.kept).any Frame.restarts = false := by
    rw [List.any_eq_false]
    simpa [Frame.restarts] using hr
  let v : State := s.withTrunk fun t =>
    { t with urgent := [], notice := [], bulk := [], holdNotice := [], holdBulk := [], kept := [], inAir := none
             beaconTimer := none }
  have dropped : s.dropAll = drainRelayBack
      ((s.trunk.frames.foldl (fun s f => s.tell false f) v).loseKept s.trunk.kept).shareNext.fwd.relayBack
      ((s.trunk.frames.foldl (fun s f => s.tell false f) v).loseKept s.trunk.kept).shareNext :=
    if_neg (by rw [quiet]; decide)
  have told : v.Mute (s.trunk.frames.foldl (fun s f => s.tell false f) v) :=
    .foldl (g := fun s f => s.tell false f) (fun x f => x.tell_mute false f) s.trunk.frames v
  have lost : ∀ x : State, x.Mute (x.loseKept s.trunk.kept) := fun x =>
    .foldl (g := fun s f => ((s.offer f).2).tell false f) (fun x f => (State.Mute.offer x f).trans (State.tell_mute _ false f)) _ x
  obtain ⟨part, trunk, -⟩ := (((told.trans (lost _)).trans (State.shareNext_mute _)).trans (drainRelayBack_mute _ _)) hc
  have alerts : keeps [.book, .trunk, .counts, .lanes, .out, .fwd, .staging] s s.dropAll := by
    rw [dropped]
    refine (keeps.trans ?_ ((State.shareNext_keeps _).mono (by decide))).trans ((drainRelayBack_keeps _ _).mono (by decide))
    refine keeps.trans ?_ ((State.loseKept_keeps _ _).mono (by decide))
    exact ((State.withTrunk_keeps s _).mono (by decide)).trans
      ((foldl_keeps (fun s f => s.tell false f) s.trunk.frames v fun u f => u.tell_keeps false f).mono (by decide))
  exact ⟨dropped ▸ part, dropped ▸ trunk, alerts .alerts (by decide)⟩

/-- A part that sends becomes a part in LISTEN-ONLY without a frame or a holder (R137, R138, R150). -/
theorem State.clash_spec (hr : ∀ g ∈ s.trunk.frames ++ s.trunk.kept, g.purpose ≠ .reply true) :
    s.clash.part = .listenOnly ∧ s.clash.trunk = { s.trunk with
      clash := true, urgent := [], notice := [], bulk := [], holdNotice := [], holdBulk := [], kept := [], inAir := none
      beaconTimer := none } ∧ s.clash.fwd.holder = none ∧
    State.Alerts 2 (s.recordAlert .stationClash .warn .self .nothing) s.clash := by
  let noted : State := s.recordAlert .stationClash .warn .self .nothing
  have trunk : noted.trunk = s.trunk := State.recordAlert_keeps s _ _ _ _ .trunk (by decide)
  let v : State := { noted.withTrunk fun t => { t with clash := true } with part := .listenOnly }
  have frames : v.trunk = { s.trunk with clash := true } := congrArg (fun t : Trunk => { t with clash := true }) trunk
  obtain ⟨part, empty, alerts⟩ := State.dropAll_spec (s := v) rfl (by rw [frames]; exact hr)
  have off : v.dropAll.canSend = false := by
    simp only [State.canSend, part]
    rfl
  have begun : s.clash = if s.part = .listening then v.dropAll.endListening else v.dropAll.judgeReference.judgeHolder := by
    have working : v.dropAll.part ≠ .starting := by
      rw [part]
      exact fun h => nomatch h
    exact if_neg working
  have recorded : State.Alerts 0 noted v.dropAll := by
    unfold State.Alerts
    rw [alerts]
    exact AlertList.Grows.refl 0 _
  rw [begun]
  split
  case isTrue =>
    obtain ⟨p1, t1, -⟩ := (State.listeningShelfCheck_mute _).trans (State.judgeReference_mute _) off
    have off1 : v.dropAll.listeningShelfCheck.judgeReference.canSend = false := by
      simpa only [State.canSend, p1] using off
    obtain ⟨p2, t2, h2⟩ := State.judgeHolder_mute off1
    have off2 : v.dropAll.listeningShelfCheck.judgeReference.judgeHolder.canSend = false := by
      simpa only [State.canSend, p2] using off1
    obtain ⟨p3, t3, h3⟩ := State.takeEarlyNotice_mute _ off2
    exact ⟨p3.trans (p2.trans (p1.trans part)), t3.trans (t2.trans (t1.trans (empty.trans (by rw [frames])))), h3.trans h2,
      recorded.trans (State.endListening_alerts _)⟩
  case isFalse =>
    obtain ⟨p1, t1, -⟩ := State.judgeReference_mute _ off
    have off1 : v.dropAll.judgeReference.canSend = false := by simpa only [State.canSend, p1] using off
    obtain ⟨p2, t2, h2⟩ := State.judgeHolder_mute off1
    have judged : State.Alerts 0 v.dropAll v.dropAll.judgeReference := .of_keeps (State.judgeReference_keeps _) (by decide) 0
    exact ⟨p2.trans (p1.trans part), t2.trans (t1.trans (empty.trans (by rw [frames]))), h2,
      (recorded.trans (judged.trans (State.judgeHolder_alerts _))).mono (by decide)⟩

/-- The silence of an ALIVE peer (R136, R209). -/
theorem exec_peerSilent {n : Station} {due : Nat} (hl : s.live = true) (hs : s.serving = true)
    (ht : (s.peer n).timer = some due) (ha : (s.peer n).state = .alive) :
    exec (.peerSilent n) s = .next (((((s.reach due).withPeer n fun p => { p with state := .silent, timer := none }).withCommands
      fun c => { c with places := c.places.set n.val none n.isLt }).recordAlert .peerSilent
        (if (s.peer n).kind = some .controller then .warn else .info) (.station n) .nothing).judgeReference).judgeHolder := by
  simp [exec, execPeerSilent, ht, hl, hs, ha]

end Sys2Proof.Machine

/-! ### The statements -/

open Sys2Proof Sys2Proof.Machine

/-- Settles O32: the clash through what LISTEN-ONLY discards, and the silence of a peer. -/
theorem clashAndSilence : Obligations.ClashAndSilence := by
  refine ⟨fun s f b hl hc hsrc hr => ?clash, fun s n due hl hs ht => ⟨fun ha => ?asleep, fun ha => ?silent⟩⟩
  case clash =>
    have hserv : s.serving = true := by
      cases hp : s.part <;> simp_all [State.canSend, State.serving, State.working]
    have ran : exec (.beaconReceived f b) s = .next s.clash := by
      simp [exec, execBeaconReceived, hl, hserv, hsrc, State.self, State.ownBeacon, hc]
    obtain ⟨part, trunk, holder, alerts⟩ := State.clash_spec hr
    refine ⟨_, ran, part, by rw [trunk], by rw [trunk]; rfl, by rw [trunk], by rw [trunk], by rw [trunk], by rw [trunk], holder,
      State.recordAlert_stays alerts (by decide)⟩
  case asleep =>
    have ha' : ((s.peer n).state == .alive) = false := beq_eq_false_iff_ne.2 ha
    simp [exec, execPeerSilent, ht, hl, hs, ha']
  case silent =>
    let v : State := ((s.reach due).withPeer n fun p => { p with state := .silent, timer := none }).withCommands
      fun c => { c with places := c.places.set n.val none n.isLt }
    let sev : Severity := if (s.peer n).kind = some .controller then .warn else .info
    let w : State := v.recordAlert .peerSilent sev (.station n) .nothing
    have judged : keeps [.labels, .link, .journal, .counts, .fwd, .staging, .alerts] v w.judgeReference.judgeHolder :=
      (((State.recordAlert_keeps v _ _ _ _).mono (by decide)).trans ((State.judgeReference_keeps _).mono (by decide))).trans
        ((State.judgeHolder_keeps _).mono (by decide))
    have alerts : State.Alerts 1 w w.judgeReference.judgeHolder := by
      have first : State.Alerts 0 w w.judgeReference := .of_keeps (State.judgeReference_keeps _) (by decide) 0
      exact first.trans (State.judgeHolder_alerts _)
    refine ⟨_, exec_peerSilent hl hs ht ha, judged .now (by decide), fun m => ?_, fun m => ?_, ?_⟩
    · have trunk := congrArg (fun t : Trunk => t.peers.get m) (judged .trunk (by decide))
      exact trunk.trans ((vector_get_set _ _ _ _).trans rfl)
    · have commands := congrArg (fun c : CommandMemory => c.places.get m) (judged .commands (by decide))
      exact commands.trans (vector_get_set _ _ _ _)
    · obtain ⟨a, ha, hk, hv, hx, -⟩ := State.recordAlert_stays alerts (by decide)
      exact ⟨a, ha, hk, hx, hv⟩

end

section
/-! PROOFS. The labels of an article as a mark or a completed withdrawal leaves them; changeovers and the reports of other
stations' shelves. -/

namespace Sys2Proof.Machine

open Sys2Proof

variable {s t u : State}

/-! ### What an entry of the book holds after a change (R1) -/

theorem State.entry_modifyEntry (s : State) (a b : Nat) (f : Entry → Entry) :
    (s.modifyEntry a f).entry b = if b = a then (s.entry b).map f else s.entry b := AMap.get_modify _ _ _ _

theorem State.entry_modifyEntry_self {a : Nat} {e : Entry} (h : s.entry a = some e) (f : Entry → Entry) :
    (s.modifyEntry a f).entry a = some (f e) := by
  rw [State.entry_modifyEntry, if_pos rfl, h]
  rfl

theorem State.entry_putEntry_self (s : State) (a : Nat) (e : Entry) : (s.putEntry a e).entry a = some e :=
  AMap.get_put_self _ _ _

theorem State.entry_removeEntry_self (s : State) (a : Nat) : (s.removeEntry a).entry a = none :=
  (AMap.get_del _ _ _).trans (if_pos rfl)

theorem State.modifyEntry_modifyEntry (s : State) (a : Nat) (f g : Entry → Entry) :
    (s.modifyEntry a f).modifyEntry a g = s.modifyEntry a fun e => g (f e) := by
  have fused : ∀ m : AMap Entry, AMap.modify (AMap.modify m a f) a g = AMap.modify m a fun e => g (f e) := fun m => by
    simp only [AMap.modify, List.map_map]
    refine List.map_congr_left fun e _ => ?_
    by_cases h : e.1 = a <;> simp [h]
  simp only [State.modifyEntry, State.withBook, fused]

/-- Changes that agree on the article's entry are the same. -/
theorem State.modifyEntry_congr {a : Nat} {e : Entry} {f g : Entry → Entry} (hw : AMap.wf s.book.entries = true)
    (h : s.entry a = some e) (hfg : f e = g e) : s.modifyEntry a f = s.modifyEntry a g := by
  have get : AMap.get s.book.entries a = some e := h
  simp only [State.modifyEntry, State.withBook, AMap.modify_eq hw, get, hfg]

/-! ### Labels that take a new target (R84 to R86) -/

/-- An OWNED entry as a change of its target at part time `now` leaves it (R84). -/
def Owned.retargeted (o : Owned) (now : Nat) (x : Target) : Owned :=
  let o1 := { o with target := x }
  match o.state with
  | .showing => o1.settled now
  | .updateDue _ => o1
  | .sent _ => o1
  | .lost => o1
  | .moving m => if m.inAir || o1.current then o1 else { o1 with state := .updateDue now }

/-- A change of target changes the target, and perhaps the state; a LOST label stays LOST (R84). -/
theorem Owned.retargeted_spec (o : Owned) (now : Nat) (x : Target) : ∃ st,
    o.retargeted now x = { o with target := x, state := st } ∧ (st = .lost ↔ o.state = .lost) := by
  obtain ⟨bound, display, state, target, lastSent, attempts, power, battery, lastReceived, hearing⟩ := o
  cases state with
  | showing => exact ⟨_, rfl, by split <;> simp⟩
  | updateDue d => exact ⟨_, rfl, Iff.rfl⟩
  | sent d => exact ⟨_, rfl, Iff.rfl⟩
  | lost => exact ⟨_, rfl, Iff.rfl⟩
  | moving m =>
    unfold Owned.retargeted
    dsimp only
    split
    · exact ⟨_, rfl, Iff.rfl⟩
    · exact ⟨_, rfl, by simp⟩

theorem State.retarget_labels {n : Nat} {o : Owned} (h : s.owned n = some o) (x : Target) :
    (s.retarget n x).labels = { s.labels with owned := AMap.put s.labels.owned n (o.retargeted s.now x) } := by
  unfold State.retarget Owned.retargeted
  simp only [h]
  cases o.state with
  | showing => rfl
  | updateDue d => rfl
  | sent d => rfl
  | lost => rfl
  | moving m =>
    dsimp only
    split
    · rfl
    · exact State.offer_keeps _ _ .labels (by decide)

theorem State.retarget_none {n : Nat} (h : s.owned n = none) (x : Target) : s.retarget n x = s := by
  simp only [State.retarget, h]

/-- One label after another changed in the table, as one change of the table. -/
theorem foldl_modify_labels {g : State → Nat → State} {f : Nat → Owned → Owned}
    (hg : ∀ v n, AMap.wf v.labels.owned = true →
      (g v n).labels = { v.labels with owned := AMap.modify v.labels.owned n (f v.now) })
    (hk : ∀ v n, (g v n).now = v.now) (ns : List Nat) (hn : ns.Nodup) (s : State) (hw : AMap.wf s.labels.owned = true) :
    (ns.foldl g s).labels = { s.labels with
      owned := s.labels.owned.map fun e => (e.1, if e.1 ∈ ns then f s.now e.2 else e.2) } := by
  have fold : ∀ (ns : List Nat) (v : State), AMap.wf v.labels.owned = true → (ns.foldl g v).labels = { v.labels with
      owned := ns.foldl (fun m n => AMap.modify m n (f v.now)) v.labels.owned } := by
    intro ns
    induction ns with
    | nil => intro v _; rfl
    | cons n ns ih =>
      intro v hv
      have next : AMap.wf (g v n).labels.owned = true := by
        rw [hg v n hv]
        exact AMap.wf_modify _ _ _ hv
      rw [List.foldl_cons, ih _ next, hg v n hv, hk]
      rfl
  rw [fold ns s hw, AMap.foldl_modify ns hn]

theorem State.retarget_modify (n : Nat) (x : Target) (hw : AMap.wf s.labels.owned = true) :
    (s.retarget n x).labels = { s.labels with owned := AMap.modify s.labels.owned n fun o => o.retargeted s.now x } := by
  rw [AMap.modify_eq hw]
  cases h : s.owned n with
  | none =>
    have get : AMap.get s.labels.owned n = none := h
    rw [State.retarget_none h, get]
  | some o =>
    have get : AMap.get s.labels.owned n = some o := h
    rw [State.retarget_labels h, get]

/-- The labels bound to an article, each once. -/
theorem State.boundLabels_spec (a : Nat) (hw : AMap.wf s.labels.owned = true) : (s.boundLabels a).Nodup ∧
    ∀ n, n ∈ s.boundLabels a ↔ ∃ o, s.owned n = some o ∧ o.bound = some a := by
  obtain ⟨rises, mem⟩ := AMap.keys_filter hw fun e => e.2.bound == some a
  refine ⟨rises.imp Nat.ne_of_lt, fun n => (mem n).trans ?_⟩
  simp only [beq_iff_eq]
  rfl

/-- A change to every label bound to an article, as one change of the table. -/
theorem State.boundLabels_map (a : Nat) (hw : AMap.wf s.labels.owned = true) (f : Owned → Owned) :
    (s.labels.owned.map fun e => (e.1, if e.1 ∈ s.boundLabels a then f e.2 else e.2)) =
      s.labels.owned.map fun e => (e.1, if e.2.bound = some a then f e.2 else e.2) := by
  refine List.map_congr_left fun e he => ?_
  have get : s.owned e.1 = some e.2 := (AMap.get_eq_some_iff hw).2 he
  have iff : e.1 ∈ s.boundLabels a ↔ e.2.bound = some a := by
    rw [(State.boundLabels_spec a hw).2, get]
    simp
  simp only [iff]

/-- A mark gives every label bound to the article the target (R85). -/
theorem State.mark_labels (a : Nat) (x : Target) (hw : AMap.wf s.labels.owned = true) : (s.mark a x).labels = { s.labels with
    owned := s.labels.owned.map fun e => (e.1, if e.2.bound = some a then e.2.retargeted s.now x else e.2) } := by
  rw [← State.boundLabels_map a hw fun o => o.retargeted s.now x]
  exact foldl_modify_labels (f := fun now o => o.retargeted now x) (fun v n hv => State.retarget_modify n x hv)
    (fun v n => v.retarget_keeps n x .now (by decide)) _ (State.boundLabels_spec a hw).1 s hw

/-- An OWNED entry as a completed withdrawal leaves it (R86). -/
def Owned.unbound (o : Owned) (now : Nat) : Owned := ({ o with bound := none } : Owned).retargeted now .unbound

theorem State.unbindOne_labels (a n : Nat) (hw : AMap.wf s.labels.owned = true) :
    (s.unbindOne a n).labels = { s.labels with owned := AMap.modify s.labels.owned n fun o => o.unbound s.now } := by
  rw [AMap.modify_eq hw]
  unfold State.unbindOne
  cases h : s.owned n with
  | none =>
    have get : AMap.get s.labels.owned n = none := h
    rw [get]
  | some o =>
    have get : AMap.get s.labels.owned n = some o := h
    have put := State.retarget_labels (s := s.putOwned n { o with bound := none }) (State.owned_putOwned_self s n _) .unbound
    have uncounted := State.uncountBound_keeps ((s.putOwned n { o with bound := none }).retarget n .unbound) a .labels (by decide)
    rw [get]
    refine uncounted.trans (put.trans ?_)
    simp only [State.putOwned, State.withLabels, AMap.put_put, Owned.unbound]

theorem State.unbindAll_labels (a : Nat) (hw : AMap.wf s.labels.owned = true) : (s.unbindAll a).labels = { s.labels with
    owned := s.labels.owned.map fun e => (e.1, if e.2.bound = some a then e.2.unbound s.now else e.2) } := by
  rw [← State.boundLabels_map a hw fun o => o.unbound s.now]
  exact foldl_modify_labels (f := fun now o => o.unbound now) (fun v n hv => State.unbindOne_labels a n hv)
    (fun v n => v.unbindOne_keeps a n .now (by decide)) _ (State.boundLabels_spec a hw).1 s hw

/-- Every label unbound counts for its article no more (R23, R86). -/
theorem State.unbindAll_entry {a : Nat} {e : Entry} (hw : AMap.wf s.labels.owned = true) (h : s.entry a = some e) :
    (s.unbindAll a).entry a = some { e with bound := e.bound - (s.boundLabels a).length } := by
  have fold : ∀ (ns : List Nat) (v : State) (e : Entry), AMap.wf v.labels.owned = true → v.entry a = some e →
      (∀ n ∈ ns, (v.owned n).isSome) →
      (ns.foldl (fun s n => s.unbindOne a n) v).entry a = some { e with bound := e.bound - ns.length } := by
    intro ns
    induction ns with
    | nil => intro v e _ he _; exact he
    | cons n ns ih =>
      intro v e hv he hn
      obtain ⟨o, ho⟩ := Option.isSome_iff_exists.1 (hn n (by simp))
      have labels := State.unbindOne_labels (s := v) a n hv
      have entry : (v.unbindOne a n).entry a = some { e with bound := e.bound - 1 } := by
        have before : ((v.putOwned n { o with bound := none }).retarget n .unbound).entry a = some e := by
          have book := State.retarget_keeps (v.putOwned n { o with bound := none }) n .unbound .book (by decide)
          exact (congrArg (fun b : Book => AMap.get b.entries a) book).trans he
        unfold State.unbindOne
        simp only [ho]
        exact State.entry_modifyEntry_self before _
      have wf : AMap.wf (v.unbindOne a n).labels.owned = true := by
        rw [labels]
        exact AMap.wf_modify v.labels.owned n (fun o => o.unbound v.now) hv
      have owned : ∀ k ∈ ns, ((v.unbindOne a n).owned k).isSome := fun k hk => by
        have kept := hn k (by simp [hk])
        simp only [State.owned, labels, AMap.get_modify] at kept ⊢
        split
        · simpa using kept
        · exact kept
      rw [List.foldl_cons, ih _ _ wf entry owned]
      simp only [List.length_cons, Nat.sub_sub, Nat.add_comm 1]
  exact fold _ s e hw h fun n hn => by
    obtain ⟨o, ho, -⟩ := ((State.boundLabels_spec a hw).2 n).1 hn
    simp [ho]

/-! ### The completion of a changeover (R18, R19) -/

theorem State.complete_set {c : Changeover} {k : ArticleKind} {x : Terms} (h : c.pending.action = .set k x) (s : State) (a : Nat) :
    s.complete a c = s.modifyEntry a fun e => e.completeSet k x c := by
  simp only [State.complete, h]

/-- What the completion of a withdrawal leaves (R19, R86). -/
theorem State.complete_withdrawn {v : State} {a : Nat} {e : Entry} {c d : Changeover} (hl : v.labels.owned = s.labels.owned)
    (hw : AMap.wf s.labels.owned = true) (hp : d.pending = c.pending) (hq : d.queued = c.queued)
    (ha : c.pending.action = .withdraw) (hf : v.entry a = some { e with phase := .changing d }) :
    s.Withdrawn a e c (v.complete a d) := by
  have hv : AMap.wf v.labels.owned = true := hl ▸ hw
  have labels := State.unbindAll_labels a hv
  have entry := State.unbindAll_entry hv hf
  have bound : v.boundLabels a = s.boundLabels a := by simp only [State.boundLabels, hl]
  have unbinds : ∀ t : State, t.labels = (v.unbindAll a).labels → ∀ n o, s.owned n = some o → o.bound = some a →
      ∃ p, t.owned n = some p ∧ p.bound = none ∧ p.target = .unbound ∧ p.display = o.display := by
    intro t ht n o ho hb
    obtain ⟨st, hst, -⟩ := ({ o with bound := none } : Owned).retargeted_spec v.now .unbound
    have get : AMap.get s.labels.owned n = some o := ho
    refine ⟨o.unbound v.now, ?_, ?_⟩
    · simp only [State.owned, ht, labels, hl]
      rw [AMap.get_map s.labels.owned fun o : Owned => if o.bound = some a then o.unbound v.now else o, get]
      simp [hb]
    · rw [Owned.unbound, hst]
      exact ⟨rfl, rfl, rfl⟩
  have hd : d.pending.action = .withdraw := by rw [hp, ha]
  have done : v.complete a d = match d.queued with
      | none => (v.unbindAll a).removeEntry a
      | some q => match q.action with
        | .set k _ => (v.unbindAll a).modifyEntry a fun e =>
            { e with kind := k, current := none, version := d.pending.version, phase := .waiting q }
        | .withdraw => ((v.unbindAll a).removeEntry a).bump .recordsStale := by
    simp only [State.complete, hd] <;> rfl
  rw [done]
  cases hqd : d.queued with
  | none =>
    refine ⟨unbinds _ rfl, fun _ => State.entry_removeEntry_self _ _, fun q k x hcq => ?_⟩
    rw [← hq, hqd] at hcq
    cases hcq
  | some q =>
    have same : ∀ q', c.queued = some q' → q' = q := fun q' h => by
      rw [← hq, hqd] at h
      exact (Option.some.inj h).symm
    cases hqa : q.action with
    | set k x =>
      simp only [hqa]
      refine ⟨unbinds _ rfl, fun hno => absurd hqa (hno q k x (by rw [← hq, hqd])), fun q' k' x' hcq hqa' => ?_⟩
      obtain rfl := same q' hcq
      rw [hqa] at hqa'
      cases hqa'
      rw [State.entry_modifyEntry_self entry, bound, hp]
    | withdraw =>
      simp only [hqa]
      refine ⟨unbinds _ (State.bump_labels _ _), fun _ => ?_, fun q' k x hcq hqa' => ?_⟩
      · simp only [State.entry, State.bump_book]
        exact State.entry_removeEntry_self _ _
      · obtain rfl := same q' hcq
        rw [hqa] at hqa'
        cases hqa'

/-! ### The start of a changeover (R10, R11) -/

theorem holdsOut_iff (n : Station) (l : List Holdout) : holdsOut n l = true ↔ ∃ h ∈ l, h.station = n := by
  simp [holdsOut]

/-- The stations a changeover holds out at its start (R10). -/
theorem State.mem_newHoldout (s : State) (n : Station) : (∃ h ∈ s.newHoldout, h.station = n) ↔
    (n = s.self ∧ s.settings.labelService = true) ∨ (n ≠ s.self ∧ (s.peer n).state ≠ .absent ∧
      (s.peer n).kind = some .controller ∧ (s.peer n).labelService = true) := by
  have all : n ∈ allStations := allStations_eq_finRange ▸ List.mem_finRange n
  have station : (∃ h ∈ s.newHoldout, h.station = n) ↔ (if n = s.self then s.settings.labelService
      else (s.peer n).state != .absent && (s.peer n).labelController) = true := by
    simp only [State.newHoldout, List.mem_map, List.mem_filter]
    constructor
    · rintro ⟨h, ⟨m, ⟨-, hm⟩, rfl⟩, rfl⟩
      exact hm
    · exact fun h => ⟨_, ⟨n, ⟨all, h⟩, rfl⟩, rfl⟩
  rw [station]
  split
  · rename_i h
    simp [h]
  · rename_i h
    simp [h, Peer.labelController]

/-- A mark changes no label's display, article or loss, so that the shelves show what they showed (R85, R98). -/
theorem State.mark_floor (a b : Nat) (x : Target) (hw : AMap.wf s.labels.owned = true) : (s.mark a x).floor b = s.floor b := by
  have fold : ∀ m : List (Nat × Owned),
      floorOf b (m.map fun e => (e.1, if e.2.bound = some a then e.2.retargeted s.now x else e.2)) = floorOf b m := by
    intro m
    induction m with
    | nil => rfl
    | cons e m ih =>
      obtain ⟨k, o⟩ := e
      obtain ⟨st, hst, hlost⟩ := o.retargeted_spec s.now x
      simp only [List.map_cons, floorOf, ih]
      split
      · simp only [hst, hlost, ne_eq, Owned.shows]
      · rfl
  rw [State.floor, State.mark_labels a x hw]
  exact fold _

/-- The changeover that starts from a WAITING entry (R10, R11). -/
def State.begun (s : State) (p : Change) : Changeover :=
  { pending := p, queued := none, holdout := s.newHoldout, deadline := s.newDeadline, age := 0 }

/-- The target that the labels of an article take as its change goes on sale (R85). -/
def Change.target (p : Change) (a : Nat) : Target :=
  match p.action with
  | .set _ _ => .price a p.version
  | .withdraw => .blank a p.version

/-- A changeover that does not complete at once (R10, R12). -/
theorem State.startChangeover_held {a : Nat} {e : Entry} {p : Change} (hw : AMap.wf s.labels.owned = true)
    (he : s.entry a = some e) (hne : s.newHoldout ≠ []) (hno : s.settings.labelService = false ∨ s.shelfDone a p.version = false) :
    s.startChangeover a e p = (s.putEntry a { e with phase := .changing (s.begun p) }).mark a (p.target a) := by
  let v : State := (s.putEntry a { e with phase := .changing (s.begun p) }).mark a (p.target a)
  have kept := State.mark_keeps (s.putEntry a { e with phase := .changing (s.begun p) }) a (p.target a)
  have undone : (holdsOut s.self s.newHoldout && v.shelfDone a p.version) = false := by
    rcases hno with hoff | hshelf
    · have out : holdsOut s.self s.newHoldout = false := by
        rw [← Bool.not_eq_true, holdsOut_iff, State.mem_newHoldout]
        simp [hoff]
      rw [out, Bool.false_and]
    · have settings : v.settings = s.settings := kept .settings (by decide)
      have entry : v.entry a = some { e with phase := .changing (s.begun p) } :=
        (congrArg (fun b : Book => AMap.get b.entries a) (kept .book (by decide))).trans (State.entry_putEntry_self _ _ _)
      have floor : v.floor a = s.floor a := State.mark_floor (s := s.putEntry a _) a a (p.target a) hw
      have same : v.shelfDone a p.version = s.shelfDone a p.version := by
        simp only [State.shelfDone, settings, entry, he, floor]
      rw [same, hshelf, Bool.and_false]
  have some_out : ¬ s.newHoldout.isEmpty = true := by simpa using hne
  have not_done : ¬ (holdsOut s.self s.newHoldout && v.shelfDone a p.version) = true := by
    rw [undone]
    decide
  exact (if_neg some_out).trans (if_neg not_done)

theorem State.Withdrawn.of_keeps {a : Nat} {e : Entry} {c : Changeover} (h : s.Withdrawn a e c t) {fs : List Field}
    (hk : keeps fs t u) (hf : Field.book ∉ fs ∧ Field.labels ∉ fs) : s.Withdrawn a e c u := by
  have book : u.book = t.book := hk .book hf.1
  have labels : u.labels = t.labels := hk .labels hf.2
  have entry : u.entry a = t.entry a := by simp only [State.entry, book]
  have owned : ∀ n, u.owned n = t.owned n := fun n => by simp only [State.owned, labels]
  exact ⟨fun n o ho hb => owned n ▸ h.labels n o ho hb, fun hno => entry ▸ h.removed hno,
    fun q k x hq hqa => entry ▸ h.waits q k x hq hqa⟩

/-! ### The deadline (R11, R20) -/

theorem exec_changeoverDeadline {a : Nat} {e : Entry} {c : Changeover} (hl : s.live = true) (hw : s.working = true)
    (he : s.entry a = some e) (hp : e.phase = .changing c) (hd : s.deadlineReached c = true) :
    exec (.changeoverDeadline a) s = .next ((((s.modifyEntry a fun e => { e with phase := .changing { c with holdout := [] } }).complete
      a { c with holdout := [] }).bump .forcedChangeovers).recordAlert .changeoverForced .warn (.article a)
        (.forced c.pending.version c.holdout)) := by
  simp [exec, execChangeoverDeadline, hl, hw, he, hp, hd]

/-! ### The reports of other stations' shelves (R14, R16, R17) -/

theorem reportsOk_of {rs : List Report} (hlo : 1 ≤ rs.length) (hhi : rs.length ≤ 64) : reportsOk rs = true :=
  (inRange_iff _ _).2 ⟨hlo, hhi⟩

section Reports
variable {r : Report} {n : Station} {e : Entry} {c : Changeover}

theorem State.takeDone_ignored (h : ∀ e c, s.entry r.article = some e → e.phase ≠ .changing c) : s.takeDone n r = s := by
  unfold State.takeDone
  split
  · rfl
  · rename_i e he
    split
    · rfl
    · rfl
    · rename_i c hc
      exact absurd hc (h e c he)

theorem State.takePending_ignored (h : ∀ e c, s.entry r.article = some e → e.phase ≠ .changing c) : s.takePending n r = s := by
  unfold State.takePending
  split
  · rfl
  · rename_i e he
    split
    · rfl
    · rfl
    · rename_i c hc
      exact absurd hc (h e c he)

variable (he : s.entry r.article = some e) (hp : e.phase = .changing c)
include he hp

theorem State.takeDone_covered (hv : c.pending.version ≤ r.version) (hh : ∃ h ∈ c.holdout, h.station = n) :
    s.takeDone n r = s.release r.article c n := by
  simp only [State.takeDone, he, hp, hv, (holdsOut_iff _ _).2 hh, and_self, if_true]

theorem State.takeDone_not (h : ¬ (c.pending.version ≤ r.version ∧ ∃ h ∈ c.holdout, h.station = n)) : s.takeDone n r = s := by
  rw [← holdsOut_iff] at h
  simp only [State.takeDone, he, hp, h, if_false]

end Reports

/-- The changeover once a station has left its holdout set (R14). -/
def Changeover.without (c : Changeover) (n : Station) : Changeover := { c with holdout := dropStation n c.holdout }

theorem State.release_held {c : Changeover} {n : Station} (h : ∃ x ∈ c.holdout, x.station ≠ n) (a : Nat) :
    s.release a c n = s.modifyEntry a fun e => { e with phase := .changing (c.without n) } := by
  have left : ¬ (c.without n).holdout.isEmpty = true := by
    obtain ⟨x, hx, hn⟩ := h
    have mem : x ∈ dropStation n c.holdout := List.mem_filter.2 ⟨hx, by simpa using hn⟩
    simpa [Changeover.without] using List.ne_nil_of_mem mem
  exact if_neg left

theorem State.release_last {c : Changeover} {n : Station} (h : ∀ x ∈ c.holdout, x.station = n) (a : Nat) :
    s.release a c n =
      (s.modifyEntry a fun e => { e with phase := .changing (c.without n) }).complete a (c.without n) := by
  have none_left : (c.without n).holdout.isEmpty = true := by
    simp only [Changeover.without, dropStation, List.isEmpty_iff, List.filter_eq_nil_iff]
    intro x hx
    simp [h x hx]
  exact if_pos none_left

/-- Hearing a frame changes the peer table alone of the trunk controller (R135). -/
theorem State.heardFrom_trunk (s : State) (n : Station) (u : Peer → Peer) :
    ∃ p, (s.heardFrom n u).trunk = { s.trunk with peers := p } := by
  have taken : ∀ t : State, t.assertTaken.trunk = t.trunk := fun t => t.assertTaken_keeps .trunk (by decide)
  have judged : ∀ x : State, x.judgeReference.judgeHolder.trunk = x.trunk := fun x =>
    (x.judgeReference.judgeHolder_keeps .trunk (by decide)).trans (x.judgeReference_keeps .trunk (by decide))
  simp only [State.heardFrom, taken, State.hear]
  split
  · rw [judged]
    exact ⟨_, rfl⟩
  · exact ⟨_, rfl⟩

/-- What is heard of another station leaves the shelves as they are (R16, R136). -/
theorem State.heardFrom_shelfDone (s : State) (n : Station) (u : Peer → Peer) (a v : Nat) :
    (s.heardFrom n u).shelfDone a v = s.shelfDone a v := by
  obtain ⟨r, x, h⟩ := s.heardFrom_labels n u
  simp only [State.shelfDone, State.floor, h, State.heardFrom_settings, State.heardFrom_entry]
  rfl

/-- A NOTICE frame that finds room joins the queue (R123). -/
theorem State.send_notice {f : Frame} (hc : f.body.trunkClass = .notice) (hsend : s.canSend = true)
    (hroom : s.trunk.notice.length < 64) : s.send f = s.withTrunk fun x => { x with notice := x.notice ++ [f] } := by
  rw [State.send, State.offer_notice_queued hc hsend hroom]

/-- The answers to a SHELF-QUERY that find room (R16). -/
theorem State.answerQuery_queued (n : Station) (rs : List Report) (hsend : s.canSend = true) :
    let yes := rs.filter fun r => s.shelfDone r.article r.version
    let no := rs.filter fun r => !s.shelfDone r.article r.version
    let frames : List Frame :=
      (if yes = [] then [] else [.new none (.shelfDone yes) .shelfAnswer]) ++
        if no = [] then [] else [.new (some n) (.shelfPending no) .shelfQuestion]
    s.trunk.notice.length + frames.length ≤ 64 →
      s.answerQuery n rs = s.withTrunk fun t => { t with notice := t.notice ++ frames } := by
  intro yes no frames hroom
  have answered : s.answerQuery n rs =
      let s1 := if yes.isEmpty then s else s.send (Frame.new none (.shelfDone yes) .shelfAnswer)
      if no.isEmpty then s1 else s1.send (Frame.new (some n) (.shelfPending no) .shelfQuestion) := rfl
  rw [answered]
  by_cases hy : yes = []
  · by_cases hn : no = []
    · simp [frames, hy, hn, State.withTrunk]
    · have room : s.trunk.notice.length < 64 := by
        simp [frames, hy, hn] at hroom
        omega
      simp [frames, hy, hn, State.send_notice (f := Frame.new (some n) (.shelfPending no) .shelfQuestion) rfl hsend room]
  · by_cases hn : no = []
    · have room : s.trunk.notice.length < 64 := by
        simp [frames, hy, hn] at hroom
        omega
      simp [frames, hy, hn, State.send_notice (f := Frame.new none (.shelfDone yes) .shelfAnswer) rfl hsend room]
    · have room : s.trunk.notice.length + 2 ≤ 64 := by simpa [frames, hy, hn] using hroom
      let v : State := s.withTrunk fun x => { x with notice := x.notice ++ [Frame.new none (.shelfDone yes) .shelfAnswer] }
      have first : s.send (Frame.new none (.shelfDone yes) .shelfAnswer) = v := State.send_notice rfl hsend (by omega)
      have second := State.send_notice (s := v) (f := Frame.new (some n) (.shelfPending no) .shelfQuestion) rfl hsend
        (by simp [v]; omega)
      have both : (v.withTrunk fun x => { x with
          notice := x.notice ++ [Frame.new (some n) (.shelfPending no) .shelfQuestion] }) = s.withTrunk fun t => { t with
            notice := t.notice ++ [.new none (.shelfDone yes) .shelfAnswer, .new (some n) (.shelfPending no) .shelfQuestion] } := by
        simp only [v, State.withTrunk, List.append_assoc, List.singleton_append]
      simp [frames, hy, hn, first, second, both]

end Sys2Proof.Machine

/-! ### The statements -/

open Sys2Proof Sys2Proof.Machine

/-- Settles O19: the start of a changeover through its mark, and the completion that its deadline forces. -/
theorem changeoversStartAndAreForced : Obligations.ChangeoversStartAndAreForced := by
  refine ⟨fun s a e p he hp hcur hcome hw hne hno => ?start, fun s a e c hl hwork he hp => ⟨fun hd => ?early, fun hd => ?forced⟩⟩
  case start =>
    have come : (isAtOnce p.effective || s.hasCome p.effective) = true := by
      rcases hcome with h | h
      · simp [h, isAtOnce]
      · simp [h]
    have current : e.current.isSome = true := by
      rw [← Option.ne_none_iff_isSome]
      exact hcur
    have started : s.examine a = (s.putEntry a { e with phase := .changing (s.begun p) }).mark a (p.target a) := by
      rw [← State.startChangeover_held hw he hne hno]
      simp only [State.examine, he, hp, come, if_true, State.effectiveTimeReached, current]
    have labels := State.mark_labels (s := s.putEntry a { e with phase := .changing (s.begun p) }) a (p.target a) hw
    rw [started]
    refine ⟨?_, State.mem_newHoldout s, fun n o ho hb => ?_⟩
    · have book := State.mark_keeps (s.putEntry a { e with phase := .changing (s.begun p) }) a (p.target a) .book (by decide)
      exact (congrArg (fun b : Book => AMap.get b.entries a) book).trans (State.entry_putEntry_self _ _ _)
    · obtain ⟨st, hst, -⟩ := o.retargeted_spec s.now (p.target a)
      have get : AMap.get s.labels.owned n = some o := ho
      refine ⟨o.retargeted s.now (p.target a), ?_, by rw [hst], by rw [hst]; exact hb, by rw [hst]; rfl⟩
      have marked := AMap.get_map s.labels.owned
        (fun o : Owned => if o.bound = some a then o.retargeted s.now (p.target a) else o) n
      rw [get, Option.map_some, if_pos hb] at marked
      simp only [State.owned, labels]
      exact marked
  case early => simp [exec, execChangeoverDeadline, hl, hwork, he, hp, hd]
  case forced =>
    let d : Changeover := { c with holdout := [] }
    let v : State := s.modifyEntry a fun e => { e with phase := .changing d }
    let w : State := (v.complete a d).bump .forcedChangeovers
    have recorded := State.recordAlert_keeps w .changeoverForced .warn (.article a) (.forced c.pending.version c.holdout)
    have begun : v.entry a = some { e with phase := .changing d } := State.entry_modifyEntry_self he _
    refine ⟨_, exec_changeoverDeadline hl hwork he hp hd, ?_, ?_, fun k x ha => ?_, fun ha hw => ?_⟩
    · have completed : keeps shelfFields s w :=
        ((State.modifyEntry_keeps s a _).mono (by decide)).trans
          (((State.complete_keeps v a d).mono (by decide)).trans ((State.bump_keeps _ _).mono (by decide)))
      exact (completed.mono (by decide)).trans (recorded.mono (by decide))
    · obtain ⟨alert, hmem, hk, hs, hx, hdet, -⟩ := State.recordAlert_stays (s := w) (AlertList.Grows.refl 0 _) (by decide)
      exact ⟨alert, hmem, hk, hs, hx, hdet⟩
    · have set : v.complete a d = v.modifyEntry a fun e => e.completeSet k x d := State.complete_set (by exact ha) v a
      have entry : (v.complete a d).entry a = some (({ e with phase := .changing d } : Entry).completeSet k x d) := by
        rw [set]
        exact State.entry_modifyEntry_self begun _
      have book := recorded .book (by decide)
      refine (congrArg (fun b : Book => AMap.get b.entries a) book).trans ?_
      simp only [w, State.bump_book]
      exact entry
    · have withdrawn : s.Withdrawn a e c (v.complete a d) := State.complete_withdrawn rfl hw rfl rfl ha begun
      exact (withdrawn.of_keeps (State.bump_keeps _ .forcedChangeovers) (by decide)).of_keeps recorded (by decide)

/-- Settles O20: each kind of report received, by the changeover of its article. -/
theorem shelfReportsAreTaken : Obligations.ShelfReportsAreTaken := by
  refine ⟨fun s f h hd => ?done, fun s f h hd => ?pending, fun s f rs h hd hlo hhi hc => ?query⟩
  case done =>
    have received : ∀ rs : List Report, 1 ≤ rs.length → rs.length ≤ 64 →
        exec (.shelfDoneReceived f rs) s = .next (rs.foldl (fun s r => s.takeDone f.src r) (s.heardFrom f.src id)) :=
      fun rs hlo hhi => congrArg _ ((State.receive_all h hd _ id _).trans (if_pos (reportsOk_of hlo hhi)))
    have one : ∀ r : Report, exec (.shelfDoneReceived f [r]) s = .next ((s.heardFrom f.src id).takeDone f.src r) :=
      fun r => received [r] (by simp) (by simp)
    have heard : ∀ a, (s.heardFrom f.src id).entry a = s.entry a := State.heardFrom_entry s f.src id
    refine ⟨received, fun r hno => ?_, fun r e c he hp => ⟨fun hcov hother => ?_, fun hcov hlast => ⟨fun k x ha => ?_, fun ha hw => ?_⟩,
      fun hnot => ?_⟩⟩
    · rw [one, State.takeDone_ignored fun e c he => hno e c (heard _ ▸ he)]
    · rw [one, State.takeDone_covered ((heard _).trans he) hp hcov.1 hcov.2, State.release_held hother]
      rfl
    · rw [one, State.takeDone_covered ((heard _).trans he) hp hcov.1 hcov.2, State.release_last hlast,
        State.complete_set (by exact ha), State.modifyEntry_modifyEntry]
      rfl
    · refine ⟨_, one r, ?_⟩
      rw [State.takeDone_covered ((heard _).trans he) hp hcov.1 hcov.2, State.release_last hlast]
      obtain ⟨ref, al, labels⟩ := s.heardFrom_labels f.src id
      exact State.complete_withdrawn (d := c.without f.src) (by simp [State.modifyEntry, labels]) hw rfl rfl ha
        (State.entry_modifyEntry_self ((heard _).trans he) _)
    · rw [one, State.takeDone_not ((heard _).trans he) hp hnot]
  case pending =>
    have received : ∀ rs : List Report, 1 ≤ rs.length → rs.length ≤ 64 →
        exec (.shelfPendingReceived f rs) s = .next (rs.foldl (fun s r => s.takePending f.src r) (s.heardFrom f.src id)) :=
      fun rs hlo hhi => congrArg _ ((State.receive_station h hd _ id _).trans (if_pos (reportsOk_of hlo hhi)))
    have one : ∀ r : Report, exec (.shelfPendingReceived f [r]) s = .next ((s.heardFrom f.src id).takePending f.src r) :=
      fun r => received [r] (by simp) (by simp)
    have heard : ∀ a, (s.heardFrom f.src id).entry a = s.entry a := State.heardFrom_entry s f.src id
    refine ⟨received, fun r hno => ?_, fun r e c hw he hp => ⟨fun hv => ?_, fun hv => ?_⟩⟩
    · rw [one, State.takePending_ignored fun e c he => hno e c (heard _ ▸ he)]
    · have taken : (s.heardFrom f.src id).takePending f.src r =
          (s.heardFrom f.src id).setQueryStatus f.src .pending r.article := by
        simp only [State.takePending, heard, he, hp, hv, if_true]
      rw [one, taken]
      refine congrArg _ (State.modifyEntry_congr (by simpa using hw) ((heard _).trans he) ?_)
      simp only [hp, setStatus]
    · rw [one]
      simp only [State.takePending, heard, he, hp, hv, if_false]
  case query =>
    intro yes no frames hroom
    have answered := State.answerQuery_queued (s := s.heardFrom f.src id) f.src rs (by simpa using hc)
    simp only [State.heardFrom_shelfDone] at answered
    have trunk : (s.heardFrom f.src id).trunk.notice = s.trunk.notice := by
      obtain ⟨p, hp⟩ := s.heardFrom_trunk f.src id
      rw [hp]
    refine congrArg _ ((State.receive_station h hd _ id _).trans ((if_pos (reportsOk_of hlo hhi)).trans ?_))
    exact answered (by rw [trunk]; exact hroom)

end

section
/-! PROOFS. A part held in reset or without power, and one in HALTED. -/

namespace Sys2Proof.Machine

open Sys2Proof

variable {s t u : State}

/-! ### Commands that need a part which serves (R208) -/

/-- The part has no power, is held in reset, or is in HALTED. -/
def State.Unserved (s : State) : Prop := s.live = false ∨ s.part = .halted

section Unserved
variable (h : s.Unserved)
include h

theorem State.Unserved.serving : (s.live && s.serving) = false := by
  rcases h with h | h <;> simp [h, State.serving, State.working]

theorem State.Unserved.working : (s.live && s.working) = false := by
  rcases h with h | h <;> simp [h, State.working]

theorem State.Unserved.canSend : (s.live && s.canSend) = false := by
  rcases h with h | h <;> simp [h, State.canSend]

theorem State.Unserved.starting : (s.live && s.part == .starting) = false := by
  rcases h with h | h <;> simp [h]

/-- No trunk frame is received (R131 step 1). -/
theorem State.Unserved.receive (f : FrameHead) (toAll ok : Bool) (upd : Peer → Peer) (d : State → State) :
    s.receive f toAll ok upd d = s := State.receive_not_serving h.serving f toAll ok upd d

/-- No OFFICE command is received (R209). -/
theorem State.Unserved.office {c : Instr} {x : OfficeHead} {k : Nat} (hc : officeCommand c = some (x, k)) :
    exec c s = .next s := by
  obtain ⟨b, act, hexec⟩ := exec_of_officeCommand hc
  rw [hexec]
  exact congrArg _ (h.receive _ _ _ _ _)

/-- No message from head office is delivered (R144). -/
theorem State.Unserved.message {c : Instr} {tag : Nat} {m : InMessage} (hc : officeMessage c = some (tag, m)) :
    exec c s = .next s := by
  rw [exec_of_officeMessage hc]
  simp [State.deliverMessage, h.serving]

/-- No frame that a block takes is delivered (R132). -/
theorem State.Unserved.delivered {c : Instr} {n : Station} (hc : deliveredFrom c = some n) : exec c s = .next s := by
  rcases hoc : officeCommand c with _ | ⟨x, k⟩
  · cases c <;> cases hoc <;> simp only [deliveredFrom, officeCommand, Option.map_none, Option.some.injEq, reduceCtorEq] at hc
    all_goals exact congrArg _ (h.receive _ _ _ _ _)
  · exact h.office hoc

end Unserved

/-! ### What a part that serves nothing may change (R26, R50, R208) -/

/-- What a command leaves of a part in HALTED. -/
structure State.Dormant (s t : State) : Prop where
  kept : keeps [.now, .carrier, .levels, .listenTimer, .counts, .lanes, .fwd, .book, .link, .out] s t
  entries : t.book.entries = s.book.entries
  tag : t.link.attemptTag = s.link.attemptTag
  held : t.link.held = s.link.held
  lastClosed : ∀ l, (t.lane l).lastClosed = (s.lane l).lastClosed
  out : ∃ os, t.out = s.out ++ os ∧ ∀ o ∈ os, ∃ l b r, o = .laneReply l b r

theorem State.Dormant.of_keeps {fs : List Field} (hk : keeps fs s t)
    (hf : fs ⊆ [.now, .carrier, .levels, .listenTimer, .counts, .fwd]) : s.Dormant t := by
  have out : ∀ {f : Field}, f ∉ [Field.now, .carrier, .levels, .listenTimer, .counts, .fwd] → f ∉ fs := fun hn hm => hn (hf hm)
  have book : t.book = s.book := hk .book (out (by decide))
  have link : t.link = s.link := hk .link (out (by decide))
  have lanes : t.lanes = s.lanes := hk .lanes (out (by decide))
  have emitted : t.out = s.out := hk .out (out (by decide))
  exact ⟨hk.mono (List.Subset.trans hf (by decide)), by rw [book], by rw [link], by rw [link],
    fun l => by rw [State.lane, State.lane, lanes], [], by simp [emitted], by simp⟩

theorem State.Dormant.refl (s : State) : s.Dormant s := .of_keeps (fs := []) (keeps.refl _ _) (by simp)

theorem State.Dormant.trans (h : s.Dormant t) (k : t.Dormant u) : s.Dormant u := by
  obtain ⟨os, ho, hl⟩ := h.out
  obtain ⟨os', ho', hl'⟩ := k.out
  refine ⟨h.kept.trans k.kept, k.entries.trans h.entries, k.tag.trans h.tag, k.held.trans h.held,
    fun l => (k.lastClosed l).trans (h.lastClosed l), os ++ os', by rw [ho', ho, List.append_assoc], fun o ho => ?_⟩
  rcases List.mem_append.1 ho with ho | ho
  · exact hl o ho
  · exact hl' o ho

theorem State.Dormant.withLane (s : State) (l : LaneNo) (f : Lane → Lane) (hf : ∀ x, (f x).lastClosed = x.lastClosed) :
    s.Dormant (s.withLane l f) := by
  refine ⟨(State.withLane_keeps _ _ _).mono (by decide), rfl, rfl, rfl, fun k => ?_, [], by simp, by simp⟩
  have get := vector_get_set s.lanes l k (f (s.lanes.get l))
  simp only [State.lane, State.withLane] at get ⊢
  rw [get]
  split
  · rename_i hk
    rw [hk]
    exact hf _
  · rfl

theorem State.Dormant.reply (s : State) (l : LaneNo) (b : Bool) (r : LaneReply) : s.Dormant (s.emit (.laneReply l b r)) :=
  ⟨(State.emit_keeps _ _).mono (by decide), rfl, rfl, rfl, fun _ => rfl, [.laneReply l b r], rfl,
    fun _ ho => ⟨l, b, r, List.mem_singleton.1 ho⟩⟩

/-- The commands that do nothing to a part that serves nothing. -/
def needsService : Instr → Bool
  | .powerOn => false
  | .resetLineAsserted => false
  | .resetLineReleased => false
  | .powerLoss => false
  | .listeningTimerExpiry => false
  | .secondTimerExpiry => false
  | .releaseRecord => false
  | .laneFrameBad _ _ => false
  | .laneTimeout _ => false
  | .openBasket _ _ => false
  | .item _ _ _ _ _ => false
  | .void _ _ _ => false
  | .total _ _ => false
  | .close _ _ _ => false
  | .cancel _ _ => false
  | .lookup _ _ _ => false
  | .auth _ _ _ => false
  | .authTimeout _ => false
  | .basketAbandon _ => false
  | .uplinkCarrierChange _ => false
  | .guestRefillTimer => false
  | .sessionSecondTimer => false
  | .clockTimerExpiry => false
  | .eventLineChange _ _ => false
  | .mainsRiseTimeout => false
  | .mainsFallTimeout => false
  | _ => true

/-- A command that needs service does nothing where there is none (R208). -/
theorem State.Unserved.exec (h : s.Unserved) {c : Instr} (hc : needsService c = true) : exec c s = .next s := by
  have serving := h.serving
  have working := h.working
  have send := h.canSend
  cases hd : deliveredFrom c with
  | some n => exact h.delivered hd
  | none =>
    cases hm : officeMessage c with
    | some x => exact h.message (tag := x.1) (m := x.2) hm
    | none =>
      cases c
      all_goals try (cases hc; done)
      all_goals try (cases hd; done)
      all_goals try (cases hm; done)
      case profileLoad image => simp [Machine.exec, execProfileLoad, h.starting]
      case changeoverDeadline a => simp [Machine.exec, execChangeoverDeadline, working]
      case restTimerExpiry =>
        simp only [Machine.exec, execRestTimerExpiry, working, Bool.false_eq_true, if_false]
        split <;> rfl
      case sessionReplyTimeout =>
        simp only [Machine.exec, execSessionReplyTimeout, working, Bool.false_eq_true, if_false]
        split <;> rfl
      case slotEnd =>
        simp only [Machine.exec, execSlotEnd, serving, Bool.false_eq_true, if_false]
        split <;> rfl
      case claimExpiry n =>
        simp only [Machine.exec, execClaimExpiry, serving, Bool.false_and, Bool.false_eq_true, if_false]
        split <;> rfl
      case ackReceived a => simp [Machine.exec, execAckReceived, serving]
      case presenceReceived p => simp [Machine.exec, execPresenceReceived, serving]
      case presenceWindowEnd => simp [Machine.exec, execPresenceWindowEnd, serving]
      case beaconTimerExpiry =>
        simp only [Machine.exec, execBeaconTimerExpiry, send, Bool.false_eq_true, if_false]
        split <;> rfl
      case beaconReceived f b =>
        simp only [Machine.exec, execBeaconReceived, serving, Bool.false_and, Bool.false_eq_true, if_false]
        exact congrArg _ (h.receive _ _ _ _ _)
      case malformedFrameReceived f =>
        simp only [Machine.exec, execMalformedFrameReceived, serving, Bool.false_and, Bool.false_eq_true, if_false]
        exact congrArg _ (h.receive _ _ _ _ _)
      case peerSilent n =>
        simp only [Machine.exec, execPeerSilent, serving, Bool.false_and, Bool.false_eq_true, if_false]
        split <;> rfl
      case trunkFrameBegin others => simp [Machine.exec, execTrunkFrameBegin, send]
      case trunkAttemptEnd a b => simp [Machine.exec, execTrunkAttemptEnd, send]
      case trunkFrameBadCheck => simp [Machine.exec, execTrunkFrameBadCheck, serving]
      case trunkFrameOtherDest f b => simp [Machine.exec, execTrunkFrameOtherDest, serving]
      case trunkCollectionTimeout => simp [Machine.exec, execTrunkCollectionTimeout, serving]
      case uplinkSendEnd =>
        simp only [Machine.exec, execUplinkSendEnd, serving, Bool.false_eq_true, if_false]
        split <;> rfl
      case uplinkParcelReceived p => simp [Machine.exec, execUplinkParcelReceived, serving]
      case guestFrameReceived a d p => simp [Machine.exec, execGuestFrameReceived, serving]

/-! ### A part without power or held in reset (R208) -/

section Off
variable (h : s.live = false)
include h

theorem State.request_off (l : LaneNo) (bit : Bool) (k : RequestKind) (act : State → Acted) : s.request l bit k act = s := by
  simp [State.request, h]

theorem State.discardFrame_off (l : LaneNo) (why : LaneFault) : s.discardFrame l why = s := by
  simp [State.discardFrame, h]

/-- A part that is not live takes no command but the levels of its inputs (R208). -/
theorem exec_off {c : Instr} (hr : resets c = false) : ∃ t, exec c s = .next t ∧ keeps [.carrier, .levels] s t := by
  have unserved : s.Unserved := .inl h
  have idle : exec c s = .next s → ∃ t, exec c s = .next t ∧ keeps [.carrier, .levels] s t :=
    fun he => ⟨s, he, keeps.refl _ _⟩
  have request : ∀ l b k act, exec c s = .next (s.request l b k act) → exec c s = .next s := fun l b k act he =>
    he.trans (congrArg _ (State.request_off h l b k act))
  cases hn : needsService c with
  | true => exact idle (unserved.exec hn)
  | false =>
    cases c
    all_goals try (cases hn; done)
    all_goals try (cases hr; done)
    case uplinkCarrierChange p =>
      refine ⟨{ s with carrier := p }, by simp [exec, execUplinkCarrierChange, h], keeps_of_fields fun g hg => ?_⟩
      cases g <;> first | rfl | exact absurd (by decide) hg
    case eventLineChange n high =>
      refine ⟨{ s with levels := s.levels.set n.val high n.isLt }, by simp [exec, execEventLineChange, h],
        keeps_of_fields fun g hg => ?_⟩
      cases g <;> first | rfl | exact absurd (by decide) hg
    case laneFrameBad l why => exact idle (congrArg _ (State.discardFrame_off h l why))
    case openBasket l b => exact idle (request _ _ _ _ rfl)
    case item l b a q m => exact idle (request _ _ _ _ rfl)
    case void l b x => exact idle (request _ _ _ _ rfl)
    case total l b => exact idle (request _ _ _ _ rfl)
    case close l b x => exact idle (request _ _ _ _ rfl)
    case cancel l b => exact idle (request _ _ _ _ rfl)
    case lookup l b a => exact idle (request _ _ _ _ rfl)
    case auth l b p =>
      refine idle (congrArg Host.Outcome.next ?_)
      split
      · exact State.request_off h _ _ _ _
      · exact State.discardFrame_off h _ _
    case listeningTimerExpiry =>
      refine idle (congrArg Host.Outcome.next ?_)
      simp only [h, Bool.false_eq_true, if_false]
      split <;> rfl
    case secondTimerExpiry => exact idle (by simp [exec, execSecondTimerExpiry, h])
    case releaseRecord =>
      refine idle (congrArg Host.Outcome.next ?_)
      simp only [h, Bool.false_eq_true, if_false]
      split <;> rfl
    case laneTimeout l =>
      refine idle (congrArg Host.Outcome.next ?_)
      simp only [h, Bool.false_eq_true, if_false]
      split <;> rfl
    case authTimeout l =>
      refine idle (congrArg Host.Outcome.next ?_)
      simp only [h, Bool.false_eq_true, if_false]
      split <;> rfl
    case basketAbandon l =>
      refine idle (congrArg Host.Outcome.next ?_)
      simp only [h, Bool.false_eq_true, if_false]
      split <;> rfl
    case guestRefillTimer => exact idle (by simp [exec, execGuestRefillTimer, h])
    case sessionSecondTimer => exact idle (by simp [exec, execSessionSecondTimer, h])
    case clockTimerExpiry =>
      refine idle (congrArg Host.Outcome.next ?_)
      simp only [h, Bool.false_eq_true, if_false]
      split <;> rfl
    case mainsRiseTimeout =>
      refine idle (congrArg Host.Outcome.next ?_)
      simp only [h, Bool.false_eq_true, if_false]
      split <;> rfl
    case mainsFallTimeout =>
      refine idle (congrArg Host.Outcome.next ?_)
      simp only [h, Bool.false_eq_true, if_false]
      split <;> rfl

end Off

/-! ### A part in HALTED (R29, R50, R208) -/

theorem State.Dormant.reach (s : State) (d : Nat) : s.Dormant (s.reach d) := .of_keeps (State.reach_keeps s d) (by decide)

section Halted
variable (h : s.part = .halted)
include h

theorem State.request_dormant (hl : s.live = true) (l : LaneNo) (bit : Bool) (k : RequestKind) (act : State → Acted) :
    s.Dormant (s.request l bit k act) := by
  rw [State.request_halted s l bit k act hl h]
  have good : s.Dormant (s.goodFrame l) := .withLane s l _ fun _ => rfl
  exact good.trans (.reply _ _ _ _)

omit h in
theorem State.discardFrame_dormant (s : State) (l : LaneNo) (why : LaneFault) : s.Dormant (s.discardFrame l why) := by
  unfold State.discardFrame
  split
  · exact .refl s
  split
  · exact .refl s
  · exact .withLane s l _ fun _ => by cases why <;> rfl

/-- In HALTED the part answers its lanes, runs its timers and holds what attached memory holds (R26, R29, R50, R208). -/
theorem exec_halted {c : Instr} (hr : resets c = false) (hl : s.live = true) (hcur : s.book.cursor = none)
    (hclock : s.unit.clock = none) (hmains : s.unit.mains = .clear) : ∃ t, exec c s = .next t ∧ s.Dormant t := by
  have unserved : s.Unserved := .inr h
  have serving : s.serving = false := by simp [State.serving, State.working, h]
  have working : ∀ t : State, t.part = s.part → t.working = false := fun t ht => by simp [State.working, ht, h]
  have request : ∀ l b k act, exec c s = .next (s.request l b k act) → ∃ t, exec c s = .next t ∧ s.Dormant t :=
    fun l b k act he => ⟨_, he, State.request_dormant h hl l b k act⟩
  cases hn : needsService c with
  | true => exact ⟨s, unserved.exec hn, .refl s⟩
  | false =>
    cases c
    all_goals try (cases hn; done)
    all_goals try (cases hr; done)
    case uplinkCarrierChange p =>
      refine ⟨{ s with carrier := p }, by simp [exec, execUplinkCarrierChange, serving],
        .of_keeps (fs := [.carrier]) (keeps_of_fields fun g hg => ?_) (by decide)⟩
      cases g <;> first | rfl | exact absurd (by decide) hg
    case eventLineChange n high =>
      refine ⟨{ s with levels := s.levels.set n.val high n.isLt }, by simp [exec, execEventLineChange, serving],
        .of_keeps (fs := [.levels]) (keeps_of_fields fun g hg => ?_) (by decide)⟩
      cases g <;> first | rfl | exact absurd (by decide) hg
    case laneFrameBad l why => exact ⟨_, rfl, s.discardFrame_dormant l why⟩
    case openBasket l b => exact request _ _ _ _ rfl
    case item l b a q m => exact request _ _ _ _ rfl
    case void l b x => exact request _ _ _ _ rfl
    case total l b => exact request _ _ _ _ rfl
    case close l b x => exact request _ _ _ _ rfl
    case cancel l b => exact request _ _ _ _ rfl
    case lookup l b a => exact request _ _ _ _ rfl
    case auth l b p =>
      refine ⟨_, rfl, ?_⟩
      split
      · exact State.request_dormant h hl _ _ _ _
      · exact s.discardFrame_dormant _ _
    case listeningTimerExpiry =>
      refine ⟨_, rfl, ?_⟩
      simp only [hl, if_true]
      split
      · exact .refl s
      · rename_i due hd
        have expired : s.Dormant { s.reach due with listenTimer := none } :=
          .of_keeps (fs := [.now, .listenTimer])
            (keeps_of_fields fun g hg => by cases g <;> first | rfl | exact absurd (by decide) hg) (by decide)
        have still : (s.reach due).part ≠ .listening := by
          rw [show (s.reach due).part = .halted from h]
          exact fun e => nomatch e
        rw [if_neg still]
        exact expired
    case secondTimerExpiry =>
      have off := working ((s.reach s.book.timer).withBook fun b => { b with timer := b.timer + Config.seconds 1 }) rfl
      refine ⟨_, rfl, ?_⟩
      simp only [hl, off, if_true, Bool.false_eq_true, if_false]
      exact (State.Dormant.reach s _).trans ⟨(State.withBook_keeps _ _).mono (by decide), rfl, rfl, rfl, fun _ => rfl, [],
        (List.append_nil _).symm, by simp⟩
    case releaseRecord => exact ⟨s, by simp [exec, execReleaseRecord, hcur], .refl s⟩
    case laneTimeout l =>
      refine ⟨_, rfl, ?_⟩
      simp only [hl, if_true]
      split
      · exact .refl s
      · exact (State.Dormant.reach s _).trans (.withLane _ l _ fun _ => rfl)
    case authTimeout l =>
      refine ⟨_, rfl, ?_⟩
      simp only [hl, if_true]
      split
      · exact .refl s
      · rename_i f hf
        have answered : (s.reach f.due).Dormant ((s.reach f.due).endAuth l f .timeout) :=
          (State.Dormant.withLane (s.reach f.due) l (fun x => { x with flight := none, last := some (f.bit, .auth, .timeout) })
            fun _ => rfl).trans (.reply _ l f.bit .timeout)
        exact ((State.Dormant.reach s _).trans answered).trans (.of_keeps (State.withdrawAuth_keeps _ _ _) (by decide))
    case basketAbandon l =>
      refine ⟨_, rfl, ?_⟩
      simp only [hl, if_true]
      split
      · exact .refl s
      · rename_i b hb
        have ended : (s.reach (b.lastActivity + Config.minutes 30)).Dormant
            ((s.reach (b.lastActivity + Config.minutes 30)).setBasket l none) := .withLane _ l _ fun _ => rfl
        exact ((State.Dormant.reach s _).trans ended).trans (.of_keeps (State.bump_keeps _ _) (by decide))
    case guestRefillTimer =>
      refine ⟨_, rfl, ?_⟩
      simp only [hl, if_true]
      exact (State.Dormant.reach s _).trans (.of_keeps (State.withFwd_keeps _ _) (by decide))
    case sessionSecondTimer =>
      have off := working ((s.reach s.link.timer).withLink fun l => { l with timer := l.timer + Config.seconds 1 }) rfl
      refine ⟨_, rfl, ?_⟩
      simp only [hl, off, if_true, Bool.false_eq_true, if_false]
      exact (State.Dormant.reach s _).trans ⟨(State.withLink_keeps _ _).mono (by decide), rfl, rfl, rfl, fun _ => rfl, [],
        (List.append_nil _).symm, by simp⟩
    case clockTimerExpiry => exact ⟨s, by simp [exec, execClockTimerExpiry, hclock], .refl s⟩
    case mainsRiseTimeout => exact ⟨s, by simp [exec, execMainsRiseTimeout, hmains], .refl s⟩
    case mainsFallTimeout => exact ⟨s, by simp [exec, execMainsFallTimeout, hmains], .refl s⟩

end Halted

end Sys2Proof.Machine

/-! ### The statements -/

open Sys2Proof Sys2Proof.Machine

/-- Settles O48: each kind of command by what it needs of the part. -/
theorem heldAndHaltedPartsServeNothing : Obligations.HeldAndHaltedPartsServeNothing := by
  refine fun c s hr => ⟨fun hl => exec_off hl hr, fun hl hp hcur hclock hmains => ?_⟩
  obtain ⟨t, ht, h⟩ := exec_halted hp hr hl hcur hclock hmains
  exact ⟨t, ht, h.kept, h.entries, h.tag, h.held, h.lastClosed, h.out⟩

end

section
/-! PROOFS. Claims of shared labels, and how they are judged. -/

namespace Sys2Proof.Machine

open Sys2Proof

variable {s t u : State}

/-! ### The claim test (R114) -/

/-- The claim test of a HEARD label whose entry names the station `n` (R114). -/
theorem State.mayClaim_iff {h : Heard} {x : Int} (hx : h.hearing.smoothed = some x) : s.mayClaim h = true ↔
    s.part = .running ∧ s.labels.aligned = true ∧ h.hearing.owner ≠ s.self ∧
      (s.peer h.hearing.owner).kind = some .controller ∧ (s.peer h.hearing.owner).state = .alive ∧ -300 ≤ x ∧
      (∀ n, h.claimAge = some n → 8 ≤ n) ∧
      ∀ y, h.hearing.ownerLevel = some y → y + 4 * (s.settings.claimMargin : Int) ≤ x := by
  simp [State.mayClaim, hx, Option.all_eq_true, and_assoc]

/-- A label that is not claimed leaves everything as it stands. -/
theorem State.claim_not {h : Heard} (hm : s.mayClaim h = false) (n : Nat) : s.claim n h = s := by
  simp [State.claim, hm]

/-- A claim that finds room in the NOTICE queue (R114). -/
theorem State.claim_queued {h : Heard} {x : Int} (hx : h.hearing.smoothed = some x) (hm : s.mayClaim h = true)
    (hsend : s.canSend = true) (hroom : s.trunk.notice.length < 64) (n : Nat) :
    s.claim n h = ((s.putHeard n { h with claimAge := some 0, claimed := true }).withTrunk fun t =>
      { t with notice := t.notice ++ [{ dest := some h.hearing.owner, purpose := .label, attempts := 0
                                        body := .labelClaim n s.self s.settings.labelChannel x }] }).bump .claimsSent := by
  have offered := State.offer_notice_queued (s := s.putHeard n { h with claimAge := some 0, claimed := true })
    (f := Frame.new (some h.hearing.owner) (.labelClaim n s.self s.settings.labelChannel x) .label) rfl hsend hroom
  simp only [State.claim, hm, if_true, hx, Option.getD_some, offered]
  rfl

/-- A NOTICE frame that may not wait is not taken by a full queue (R123). -/
theorem State.offer_notice_full {f : Frame} (hc : f.body.trunkClass = .notice) (hw : f.body.waits = false)
    (hsend : s.canSend = true) (hfull : 64 ≤ s.trunk.notice.length) : s.offer f = (.notTaken, s.bump .notTakenNotice) := by
  simp [State.offer, hc, hw, hsend, Trunk.queue, Config.queueCapacity, Nat.not_lt.2 hfull, notTakenCount]

/-- A claim that the NOTICE queue does not take (R114). -/
theorem State.claim_full {h : Heard} (hm : s.mayClaim h = true) (hsend : s.canSend = true)
    (hfull : 64 ≤ s.trunk.notice.length) (n : Nat) :
    s.claim n h = ((s.putHeard n { h with claimAge := some 0, claimed := true }).bump .notTakenNotice).bump
      .claimsDropped := by
  have refused := State.offer_notice_full (s := s.putHeard n { h with claimAge := some 0, claimed := true })
    (f := Frame.new (some h.hearing.owner) (.labelClaim n s.self s.settings.labelChannel (h.hearing.smoothed.getD 0)) .label)
    rfl rfl hsend hfull
  simp only [State.claim, hm, if_true, refused]
  rfl

/-! ### What a presence is taken for (R112) -/

/-- The presence is counted and the order of hearing moves on (R112). -/
def State.noted (s : State) : State := (s.withLabels fun l => { l with stamp := l.stamp + 1 }).bump .presencesTaken

/-- The presence's level and cycle in the hearing fields of an entry (R112). -/
def State.sampled (s : State) (p : PresencePacket) (h : Hearing) : Hearing :=
  h.sample p.level s.labels.cycle (s.labels.stamp + 1)

/-- A presence of an OWNED label, before the orphan rule (R112). -/
def State.tookOwned (s : State) (p : PresencePacket) (o : Owned) : State :=
  let o1 := { o with hearing := s.sampled p o.hearing }
  (s.noted.putOwned p.label o1).presenceOwned p o1

/-- A presence of a HEARD label, before the orphan rule (R112). -/
def State.tookHeard (s : State) (p : PresencePacket) (h : Heard) : State :=
  let h1 := { h with hearing := (s.sampled p h.hearing).named p.owner }
  (s.noted.putHeard p.label h1).presenceHeard p h1

theorem State.takePresence_eq (s : State) (p : PresencePacket) : s.takePresence p =
    let v := match s.owned p.label with
      | some o => s.tookOwned p o
      | none => match s.heard p.label with
        | some h => s.tookHeard p h
        | none => s.noted
    if p.orphan then v.answerOrphan p else v := rfl

theorem State.takePresence_owned {p : PresencePacket} {o : Owned} (ho : s.owned p.label = some o) : s.takePresence p =
    if p.orphan then (s.tookOwned p o).answerOrphan p else s.tookOwned p o := by
  rw [State.takePresence_eq]
  simp only [ho]

theorem State.takePresence_heard {p : PresencePacket} {h : Heard} (ho : s.owned p.label = none)
    (hh : s.heard p.label = some h) : s.takePresence p =
    if p.orphan then (s.tookHeard p h).answerOrphan p else s.tookHeard p h := by
  rw [State.takePresence_eq]
  simp only [ho, hh]

/-- A presence where labels are served: one of a label with no entry makes a HEARD entry where there is room (R112). -/
theorem exec_presenceReceived (p : PresencePacket) (hl : s.live = true) (hv : s.serving = true)
    (hs : s.settings.labelService = true) : exec (.presenceReceived p) s = .next (
      if (s.owned p.label).isSome || (s.heard p.label).isSome then s.takePresence p
      else if (s.newHeard p).1 then (s.newHeard p).2.takePresence p else (s.newHeard p).2) := by
  have run : exec (.presenceReceived p) s = execPresenceReceived p s := rfl
  simp only [run, execPresenceReceived, hl, hv, hs, Bool.and_self, if_true]

/-- A presence of a HEARD label that names another station, the orphan flag clear, is followed by the claim test (R112,
R114). -/
theorem State.tookHeard_other {p : PresencePacket} {h : Heard} (ho : p.orphan = false) (hn : p.owner ≠ s.self) :
    let h1 : Heard := { h with hearing := (s.sampled p h.hearing).named p.owner }
    s.tookHeard p h = (s.noted.putHeard p.label h1).claim p.label h1 := by
  intro h1
  have other : ¬ p.owner = (s.noted.putHeard p.label h1).self := hn
  rw [State.tookHeard, State.presenceHeard]
  simp only [h1] at other
  simp only [other, if_false, ho, Bool.false_eq_true]
  rfl

/-! ### What a claim, a refusal and a claim's end do (R109, R115, R117) -/

/-- A LABEL-REFUSE that finds room in the NOTICE queue (R115). -/
theorem State.refuseClaim_queued (hsend : s.canSend = true) (hroom : s.trunk.notice.length < 64) (n : Nat) (c : Station)
    (level : Option Int) : s.refuseClaim n c level = s.withTrunk fun t =>
      { t with notice := t.notice ++ [{ dest := some c, body := .labelRefuse n level, purpose := .label, attempts := 0 }] } :=
  State.send_notice rfl hsend hroom

/-- A LABEL-CLAIM for this part is judged after its sender has been heard (R115, R131). -/
theorem exec_labelClaimReceived {f : FrameHead} (h : s.Hears f.src) (hd : f.dest = .station s.settings.station) (n : Nat)
    (x : Station) (ch : Nat) (y : Int) :
    exec (.labelClaimReceived f n x ch y) s = .next ((s.heardFrom f.src id).takeClaim f.src n ch y) :=
  congrArg _ (s.receive_station h hd true id _)

/-- A refused LABEL-CLAIM (R115). -/
theorem State.takeClaim_refused {n : Nat} {y : Int} {x : Option Int} (hp : s.part ≠ .listenOnly)
    (hj : s.judgeClaim n y = .refuse x) (c : Station) (ch : Nat) :
    s.takeClaim c n ch y = ((s.bump .claimsReceived).bump .claimsRefused).refuseClaim n c x := by
  simp only [State.takeClaim, hp, if_false, hj]

end Sys2Proof.Machine

/-! ### The statements -/

open Sys2Proof Sys2Proof.Machine

/-- Settles O28, by the claim test and the tests of a LABEL-CLAIM. -/
theorem claimsAreJudgedAndEnd : Obligations.ClaimsAreJudgedAndEnd := by
  unfold Obligations.ClaimsAreJudgedAndEnd
  refine ⟨?presence, ?claim, ?refusal, ?expiry⟩
  case presence =>
    intro s p h hl hv hs ho hn hu hh level reported sampled counted claims claimed
    have entry : ({ h with hearing := (s.sampled p h.hearing).named p.owner } : Heard) = sampled := by
      by_cases e : h.hearing.owner = p.owner <;>
        simp [sampled, reported, level, State.sampled, Hearing.sample, Hearing.named, e]
    have run : exec (.presenceReceived p) s = .next ((counted.putHeard p.label sampled).claim p.label sampled) := by
      rw [exec_presenceReceived p hl hv hs, State.takePresence_heard hu hh, State.tookHeard_other ho hn, entry]
      simp [hh, ho, counted, State.noted]
    have test : (counted.putHeard p.label sampled).mayClaim sampled = true ↔ claims := by
      rw [State.mayClaim_iff (x := level) rfl]
      exact ⟨fun ⟨a, b, _, d⟩ => ⟨a, b, d⟩, fun ⟨a, b, d⟩ => ⟨a, b, hn, d⟩⟩
    have sends (hc : claims) : (counted.putHeard p.label sampled).canSend = true := by
      have running : s.part = .running := hc.1
      simp [counted, State.canSend, State.putHeard, State.withLabels, State.bump, running]
    have again : (counted.putHeard p.label sampled).putHeard p.label { sampled with claimAge := some 0, claimed := true } =
        claimed := by
      simp [claimed, State.putHeard, State.withLabels, AMap.put_put]
    refine ⟨fun hc => run.trans (congrArg _ ?_), fun hc hroom => run.trans (congrArg _ ?_),
      fun hc hfull => run.trans (congrArg _ ?_)⟩
    · exact State.claim_not (by simpa using fun hm => hc (test.1 hm)) p.label
    · rw [State.claim_queued (x := level) rfl (test.2 hc) (sends hc) hroom, again]
      rfl
    · rw [State.claim_full (test.2 hc) (sends hc) hfull, again]
  case claim =>
    intro s f n ch c y hh hd h refuses
    have run := exec_labelClaimReceived hh hd n c ch y
    have refused (x : Option Int) (hp : s.part ≠ .listenOnly) (hj : (s.heardFrom f.src id).judgeClaim n y = .refuse x) :
        refuses x := by
      intro hsend hroom
      obtain ⟨q, hq⟩ := s.heardFrom_trunk f.src id
      refine run.trans (congrArg _ ?_)
      rw [State.takeClaim_refused (by simpa using hp) hj]
      refine State.refuseClaim_queued (s := h.bump .claimsRefused) ?_ ?_ n f.src x
      · have sends : (s.heardFrom f.src id).canSend = true := by simpa using hsend
        exact sends
      · have room : (s.heardFrom f.src id).trunk.notice.length < 64 := by
          rw [hq]
          exact hroom
        exact room
    refine ⟨fun hp => run.trans (congrArg _ ?_), fun hp => refused none (by simp [hp]) ?_, fun hp => ⟨?_, ?_⟩⟩
    · simp [State.takeClaim, hp, h]
    · simp [State.judgeClaim, hp]
    · rintro (hs | ho)
      · exact refused none (by simp [hp]) (by simp [State.judgeClaim, hs])
      · exact refused none (by simp [hp]) (by simp [State.judgeClaim, ho])
    · intro hs o ho
      refine ⟨fun hx => refused none (by simp [hp]) ?_, fun x hx hno => refused (some x) (by simp [hp]) ?_,
        fun x hx hst hle => run.trans (congrArg _ ?_)⟩
      · simp [State.judgeClaim, ho, hx]
      · have out : ¬ (o.state = .showing ∧ x + 4 * (s.settings.claimMargin : Int) ≤ y) := by
          rintro ⟨a, b⟩
          rcases hno with hno | hno
          · exact hno a
          · omega
        simp [State.judgeClaim, hs, hp, ho, hx, out]
      · have judged : (s.heardFrom f.src id).judgeClaim n y = .accept o := by
          simp [State.judgeClaim, hs, hp, ho, hx, hst, hle]
        simp [State.takeClaim, hp, judged, h]
  case refusal =>
    intro s f n level hh hd
    have run : exec (.labelRefuseReceived f n level) s = .next ((s.heardFrom f.src id).takeRefusal f.src n level) :=
      congrArg _ (s.receive_station hh hd true id _)
    refine ⟨fun h hn ho => run.trans (congrArg _ ?_), fun hno => run.trans (congrArg _ ?_)⟩
    · rw [State.takeRefusal, State.heardFrom_heard, hn]
      exact if_pos ho
    · rw [State.takeRefusal, State.heardFrom_heard]
      cases hn : s.heard n with
      | none => rfl
      | some h => simp [hno h hn]
  case expiry =>
    intro s n h hl hv hn
    have run : exec (.claimExpiry n) s = .next (if s.live && s.serving && h.claimed && h.claimAge == some 16 then
        s.putHeard n { h with claimed := false } else s) := by
      have eq : exec (.claimExpiry n) s = execClaimExpiry n s := rfl
      simp only [eq, execClaimExpiry, hn]
    refine ⟨fun hc ha => run.trans (congrArg _ ?_), fun hno => run.trans (congrArg _ ?_)⟩
    · simp [hl, hv, hc, ha]
    · rcases hno with hc | ha
      · simp [hc]
      · simp [ha]
end

section
/-! PROOFS. Acknowledgements, the retry ladder and a station's own shelf reports. -/

namespace Sys2Proof.Machine

open Sys2Proof

variable {s t u : State}

/-! ### What the turns of a slot leave of the cycle (R87, R88) -/

/-- Of the label table no more than its entries have changed. -/
def State.SameCycle (s t : State) : Prop := ∃ o h, t.labels = { s.labels with owned := o, heard := h }

theorem State.SameCycle.refl (s : State) : s.SameCycle s := ⟨_, _, rfl⟩

theorem State.SameCycle.trans (h : s.SameCycle t) (k : t.SameCycle u) : s.SameCycle u := by
  obtain ⟨o, x, h⟩ := h
  obtain ⟨o', x', k⟩ := k
  exact ⟨o', x', by rw [k, h]⟩

theorem State.SameCycle.of_keeps {fs : List Field} (hk : keeps fs s t) (hl : Field.labels ∉ fs) : s.SameCycle t :=
  ⟨s.labels.owned, s.labels.heard, hk .labels hl⟩

theorem State.SameCycle.putOwned (s : State) (n : Nat) (o : Owned) : s.SameCycle (s.putOwned n o) := ⟨_, _, rfl⟩

theorem State.SameCycle.foldl {α : Type} {g : State → α → State} (hg : ∀ (s : State) x, s.SameCycle (g s x)) (l : List α) (s : State) :
    s.SameCycle (l.foldl g s) := by
  induction l generalizing s with
  | nil => exact .refl s
  | cons x l ih => exact (hg s x).trans (ih _)

theorem State.refuseClaim_cycle (s : State) (n : Nat) (c : Station) (y : Option Int) : s.SameCycle (s.refuseClaim n c y) :=
  .of_keeps (s.refuseClaim_keeps n c y) (by decide)

theorem State.retarget_cycle (s : State) (n : Nat) (x : Target) : s.SameCycle (s.retarget n x) := by
  unfold State.retarget
  split
  · exact .refl s
  · next o ho =>
    dsimp only
    split
    case h_5 m hm =>
      split
      · exact .putOwned s n _
      · exact (State.SameCycle.putOwned s n _).trans (State.refuseClaim_cycle _ _ _ _)
    all_goals exact .putOwned s n _

theorem State.unbindAll_cycle (s : State) (a : Nat) : s.SameCycle (s.unbindAll a) := by
  refine .foldl (fun s n => ?_) _ s
  unfold State.unbindOne
  split
  · exact .refl s
  · exact ((State.SameCycle.putOwned s n _).trans (State.retarget_cycle _ _ _)).trans
      (.of_keeps (State.uncountBound_keeps _ a) (by decide))

theorem State.complete_cycle (s : State) (a : Nat) (c : Changeover) : s.SameCycle (s.complete a c) := by
  unfold State.complete
  split
  · exact .of_keeps (s.modifyEntry_keeps a _) (by decide)
  · refine (s.unbindAll_cycle a).trans ?_
    dsimp only
    split
    · exact .of_keeps (State.removeEntry_keeps _ a) (by decide)
    · split
      · exact .of_keeps (State.modifyEntry_keeps _ a _) (by decide)
      · exact .of_keeps (fs := [.book, .counts]) (by simp) (by decide)

theorem State.floorReport_cycle (s : State) (a : Nat) : s.SameCycle (s.floorReport a) := by
  have released (v : State) (c : Changeover) (n : Station) : v.SameCycle (v.release a c n) := by
    unfold State.release
    dsimp only
    split
    · exact (State.SameCycle.of_keeps (v.modifyEntry_keeps a _) (by decide)).trans (State.complete_cycle _ a _)
    · exact .of_keeps (v.modifyEntry_keeps a _) (by decide)
  unfold State.floorReport State.localDone
  repeat' split
  case h_3.isTrue =>
    exact ((State.SameCycle.of_keeps (s.addReport_keeps _) (by decide)).trans (released _ _ _)).trans
      (.of_keeps (State.formReports_keeps _) (by decide))
  all_goals exact .refl s

theorem State.floorReportOpt_cycle (s : State) (a : Option Nat) : s.SameCycle (s.floorReportOpt a) := by
  cases a with
  | none => exact .refl s
  | some a => exact s.floorReport_cycle a

theorem State.unanswered_cycle (s : State) (n : Nat) (o : Owned) : s.SameCycle (s.unanswered n o) := by
  unfold State.unanswered
  have counted : s.SameCycle (s.bump .unansweredAttempts) := .of_keeps (s.bump_keeps _) (by decide)
  dsimp only
  split
  · exact counted.trans (.putOwned _ n _)
  · have put := counted.trans (State.SameCycle.putOwned _ n { o.missed with state := .lost })
    have told : s.SameCycle ((((s.bump .unansweredAttempts).putOwned n { o.missed with state := .lost }).bump
        .labelsLost).recordAlert .labelLost .warn (.label n) (.lost o.missed.bound o.missed.target.version)) :=
      put.trans (.of_keeps (fs := [.counts, .alerts]) (by simp) (by decide))
    exact told.trans (State.floorReportOpt_cycle _ _)

theorem State.moveUnanswered_cycle (s : State) (n : Nat) (o : Owned) (m : Move) : s.SameCycle (s.moveUnanswered n o m) := by
  unfold State.moveUnanswered
  have counted : s.SameCycle (s.bump .unansweredAttempts) := .of_keeps (s.bump_keeps _) (by decide)
  dsimp only
  split
  · exact counted.trans (.putOwned _ n _)
  · exact ((counted.trans (.putOwned _ n _)).trans (.of_keeps (State.bump_keeps _ _) (by decide))).trans
      (State.refuseClaim_cycle _ _ _ _)

theorem State.endTurn_cycle (s : State) (n : Nat) : s.SameCycle (s.endTurn n) := by
  unfold State.endTurn
  split
  · exact .refl s
  · split
    case h_3 => exact s.unanswered_cycle n _
    case h_4 =>
      split
      · exact s.moveUnanswered_cycle n _ _
      · exact .refl s
    all_goals exact .refl s

/-- The turns end without touching the cycle (R93). -/
theorem State.endTurns_cycle (s : State) : s.SameCycle s.endTurns := .foldl (fun s n => s.endTurn_cycle n) _ s

theorem State.mayFill_of (hk : keeps [.book, .labels, .trunk, .counts, .alerts] s t) (hc : s.SameCycle t) :
    t.mayFill = s.mayFill := by
  obtain ⟨o, h, hc⟩ := hc
  have settings : t.settings = s.settings := hk .settings (by decide)
  have part : t.part = s.part := hk .part (by decide)
  simp [State.mayFill, State.working, settings, part, hc]

/-- The end of a slot (R87, R93). -/
theorem exec_slotEnd {due : Nat} (hl : s.live = true) (hv : s.serving = true) (hd : s.labels.slotEnd = some due) :
    exec .slotEnd s = .next ((s.reach due).endTurns.nextSlot due) := by
  have run : exec .slotEnd s = execSlotEnd s := rfl
  simp only [run, execSlotEnd, hd, hl, hv, Bool.and_self, if_true]

/-- The next slot of a cycle, where turns may not be filled (R87, R88). -/
theorem State.nextSlot_idle (h : s.labels.slot < 127) (hm : s.mayFill = false) (due : Nat) :
    s.nextSlot due = s.withLabels fun l =>
      { l with slot := s.labels.slot + 1, slotEnd := some (due + s.labels.length * 1000000 / 128) } := by
  have fill : (s.withLabels fun l =>
      { l with slot := l.slot + 1, slotEnd := some (due + slotLength l.length) }).mayFill = false := hm
  simp only [State.nextSlot, h, if_true, State.beginSlot, fill, Bool.false_eq_true, if_false]
  rfl

/-! ### A listed label's turn (R84, R88, R89) -/

/-- A target other than a stray PRICE is not redirected (R89). -/
theorem State.redirect_not {n : Nat} {o : Owned} (ho : s.owned n = some o)
    (hx : ∀ a v, o.target = .price a v → s.displayTerms a v ≠ none) : s.redirect n = s := by
  simp only [State.redirect, ho]
  split
  · rfl
  · rfl
  · next a v ht =>
    split
    · rfl
    · next hn => exact absurd hn (hx a v ht)

/-- The turn of a listed label once its target needs no redirection (R88). -/
theorem State.takeTurn_of {n due : Nat} {o : Owned} (ho : (s.redirect n).owned n = some o) (hs : o.state = .updateDue due) :
    s.takeTurn n = (s.redirect n).sendPacket n due o := by
  simp only [State.takeTurn, ho, hs]

theorem State.sendPacket_price {n due a v : Nat} {k : ArticleKind} {x : Terms} {o : Owned} (ht : o.target = .price a v)
    (hx : s.displayTerms a v = some (k, x)) :
    s.sendPacket n due o = ((s.putOwned n { o with state := .sent due, lastSent := some ⟨.price, some a, v⟩ }).emit
      (.radio (.show s.settings.labelChannel n a v k x o.power))).bump .showsSent := by
  simp only [State.sendPacket, State.markSent, ht, hx]

theorem State.sendPacket_blank {n due a v : Nat} {o : Owned} (ht : o.target = .blank a v) :
    s.sendPacket n due o = ((s.putOwned n { o with state := .sent due, lastSent := some ⟨.blank, some a, v⟩ }).emit
      (.radio (.blank s.settings.labelChannel n (some a) v o.power))).bump .blanksSent := by
  simp only [State.sendPacket, State.markSent, ht]

theorem State.sendPacket_unbound {n due : Nat} {o : Owned} (ht : o.target = .unbound) :
    s.sendPacket n due o = ((s.putOwned n { o with state := .sent due, lastSent := some ⟨.blank, none, 0⟩ }).emit
      (.radio (.blank s.settings.labelChannel n none 0 o.power))).bump .blanksSent := by
  simp only [State.sendPacket, State.markSent, ht]

/-- A target that changes leaves a listed label where it stands (R84). -/
theorem State.retarget_listed {n due : Nat} {o : Owned} (ho : s.owned n = some o) (hs : o.state = .updateDue due) (x : Target) :
    s.retarget n x = s.putOwned n { o with target := x } := by
  simp only [State.retarget, ho, hs]

/-- The redirection of a PRICE target of a version that the article's entry does not hold (R89). -/
theorem State.redirect_entry {n due a v : Nat} {o : Owned} {e : Entry} (ho : s.owned n = some o)
    (hs : o.state = .updateDue due) (ht : o.target = .price a v) (hx : s.displayTerms a v = none) (he : s.entry a = some e) :
    s.redirect n = s.putOwned n { o with target := e.display a } := by
  simp only [State.redirect, ho, ht, hx, he]
  exact State.retarget_listed ho hs _

/-- Changing what a key holds changes nothing where it holds nothing. -/
theorem AMap.modify_of_none {α : Type} {m : AMap α} {k : Nat} (h : AMap.get m k = none) (f : α → α) :
    AMap.modify m k f = m := by
  induction m with
  | nil => rfl
  | cons x m ih =>
    simp only [AMap.get] at h
    split at h
    · cases h
    · next hne => rw [AMap.modify, List.map_cons, if_neg hne, ← AMap.modify, ih h]

theorem State.uncountBound_none {a : Nat} (h : s.entry a = none) : s.uncountBound a = s := by
  have same := AMap.modify_of_none h fun e => { e with bound := e.bound - 1 }
  simp only [State.uncountBound, State.modifyEntry, State.withBook, same]

theorem State.floorReport_none {a : Nat} (h : s.entry a = none) : s.floorReport a = s := by
  simp only [State.floorReport, State.localDone, h, ite_self]

/-- What a label bound to an article with no entry is left as (R89, R99). -/
theorem State.redirect_stray {n due a v : Nat} {o : Owned} (ho : s.owned n = some o) (hs : o.state = .updateDue due)
    (ht : o.target = .price a v) (he : s.entry a = none) (hb : o.bound = some a) :
    s.redirect n = s.putOwned n { o with bound := none, target := .unbound } := by
  have hx : s.displayTerms a v = none := by simp only [State.displayTerms, he]
  have put : (s.putOwned n { o with bound := none }).owned n = some { o with bound := none } := s.owned_putOwned_self n _
  have listed : (s.putOwned n { o with bound := none }).retarget n .unbound =
      (s.putOwned n { o with bound := none }).putOwned n { o with bound := none, target := .unbound } :=
    State.retarget_listed put hs .unbound
  have twice : (s.putOwned n { o with bound := none }).putOwned n { o with bound := none, target := .unbound } =
      s.putOwned n { o with bound := none, target := .unbound } := by
    simp [State.putOwned, State.withLabels, AMap.put_put]
  have stray : s.redirect n = s.unbindStray n a := by simp only [State.redirect, ho, ht, hx, he]
  rw [stray]
  simp only [State.unbindStray, ho, listed, twice, hb, State.uncountOpt]
  have gone : (s.putOwned n { o with bound := none, target := .unbound }).entry a = none := he
  rw [State.uncountBound_none gone, State.floorReport_none gone]

/-! ### This station's own shelf reports (R12, R13, R99) -/

/-- A floor report of an article that is CHANGING, this station held out, its floor at the pending version (R12). -/
theorem State.floorReport_done {a : Nat} {e : Entry} {c : Changeover} (hs : s.settings.labelService = true)
    (he : s.entry a = some e) (hp : e.phase = .changing c) (hv : c.pending.version ≤ s.floor a)
    (hh : ∃ h ∈ c.holdout, h.station = s.self) :
    s.floorReport a = ((s.addReport ⟨a, c.pending.version⟩).release a c s.self).formReports := by
  simp only [State.floorReport, hs, if_true, State.localDone, he, hp, hv, (holdsOut_iff _ _).2 hh, and_self]

/-- Any other floor report changes nothing (R12). -/
theorem State.floorReport_not {a : Nat} (h : ∀ e c, s.entry a = some e → e.phase = .changing c →
    ¬ (s.settings.labelService = true ∧ c.pending.version ≤ s.floor a ∧ ∃ h ∈ c.holdout, h.station = s.self)) :
    s.floorReport a = s := by
  unfold State.floorReport State.localDone
  split
  · next hs =>
    split
    · rfl
    · next e he =>
      split
      · rfl
      · rfl
      · next c hp =>
        split
        · next hd => exact absurd ⟨hs, hd.1, (holdsOut_iff _ _).1 hd.2⟩ (h e c he hp)
        · rfl
  · rfl

/-- A frame of reports is outstanding: none is formed (R13). -/
theorem State.formReports_outstanding (h : s.book.outstanding = true) : s.formReports = s := by
  simp [State.formReports, h]

/-- A frame of the one report there is finds room (R13). -/
theorem State.formReports_queued {r : Report} (hr : s.book.reports = [r]) (ho : s.book.outstanding = false)
    (hsend : s.canSend = true) (hroom : s.trunk.notice.length < 64) : s.formReports =
    (s.withBook fun b => { b with reports := [], outstanding := true }).withTrunk fun t => { t with notice :=
      t.notice ++ [{ dest := none, body := .shelfDone [r], purpose := .reports, attempts := 0 }] } := by
  have queued := State.offer_notice_queued (s := s) (f := Frame.new none (.shelfDone [r]) .reports) rfl hsend hroom
  simp only [State.formReports, hr, ho, List.isEmpty_cons, Bool.or_self, Bool.false_eq_true, if_false, Config.reportCapacity]
  simp only [List.take_succ_cons, List.take_nil, queued]
  simp [State.withBook, State.withTrunk, Frame.new, hr]

/-- A frame of the one report there is that is not taken is lost with its report (R13). -/
theorem State.formReports_lost {r : Report} (hr : s.book.reports = [r]) (ho : s.book.outstanding = false)
    (hno : s.canSend = false ∨ 64 ≤ s.trunk.notice.length) : s.formReports =
    (s.withBook fun b => { b with reports := [], outstanding := false }).bump .notTakenNotice := by
  have lost : s.offer (Frame.new none (.shelfDone [r]) .reports) = (.notTaken, s.bump .notTakenNotice) := by
    rcases Bool.eq_false_or_eq_true s.canSend with hsend | hsend
    · rcases hno with hno | hno
      · rw [hsend] at hno
        cases hno
      · exact State.offer_notice_full rfl rfl hsend hno
    · exact s.offer_of_not_canSend _ hsend
  simp only [State.formReports, hr, ho, List.isEmpty_cons, Bool.or_self, Bool.false_eq_true, if_false, Config.reportCapacity]
  simp only [List.take_succ_cons, List.take_nil, lost]
  have emptied : (s.withBook fun b => { b with reports := b.reports.drop 64, outstanding := false }) =
      s.withBook fun b => { b with reports := [], outstanding := false } := by simp [State.withBook, hr]
  exact congrArg (fun v : State => v.bump .notTakenNotice) emptied

theorem State.formReports_entry (s : State) (a : Nat) : s.formReports.entry a = s.entry a := by
  have offered : ∀ f, (s.offer f).2.book = s.book := fun f => s.offer_keeps f .book (by decide)
  unfold State.formReports
  split
  · rfl
  · simp only [State.entry, State.withBook, offered]

/-- A report joins the list: in the place of the article's report (R12). -/
theorem State.addReport_replaces {before after : List Report} {x r : Report} (hs : s.book.reports = before ++ x :: after)
    (hx : x.article = r.article) (hno : ∀ y ∈ before ++ after, y.article ≠ r.article) :
    s.addReport r = s.withBook fun b => { b with reports := before ++ r :: after } := by
  have keep (l : List Report) (hl : ∀ y ∈ l, y.article ≠ r.article) :
      l.map (fun y => if y.article = r.article then r else y) = l :=
    (List.map_congr_left fun y hy => if_neg (hl y hy)).trans (List.map_id l)
  have mapped : s.book.reports.map (fun y => if y.article = r.article then r else y) = before ++ r :: after := by
    rw [hs, List.map_append, List.map_cons, keep before fun y hy => hno y (List.mem_append_left _ hy),
      keep after fun y hy => hno y (List.mem_append_right _ hy), if_pos hx]
  have there : (s.book.reports.any fun y => y.article == r.article) = true := by
    rw [hs]
    simp [hx]
  simp only [State.addReport, there, if_true, State.withBook, mapped]

/-- A report of another article joins the list's end, the oldest giving way in a full list (R12). -/
theorem State.addReport_joins {r : Report} (hno : ∀ y ∈ s.book.reports, y.article ≠ r.article) : s.addReport r =
    if s.book.reports.length < 64 then s.withBook fun b => { b with reports := b.reports ++ [r] }
    else (s.withBook fun b => { b with reports := b.reports.drop 1 ++ [r] }).bump .reportsDropped := by
  have none_there : (s.book.reports.any fun y => y.article == r.article) = false := by simpa using hno
  simp only [State.addReport, none_there, Bool.false_eq_true, if_false] <;> rfl

end Sys2Proof.Machine

/-! ### The statements -/

open Sys2Proof Sys2Proof.Machine

/-- Settles O22, by the turn of a listed label, the end of a turn and the report of a floor. -/
theorem turnsClimbTheRetryLadder : Obligations.TurnsClimbTheRetryLadder := by
  unfold Obligations.TurnsClimbTheRetryLadder
  refine ⟨?turn, ?redirected, ?ended, ?report⟩
  case turn =>
    intro s n due o ho hs
    have taken (hx : ∀ a v, o.target = .price a v → s.displayTerms a v ≠ none) : s.takeTurn n = s.sendPacket n due o := by
      have stays := State.redirect_not ho hx
      have listed : (s.redirect n).owned n = some o := by rw [stays, ho]
      rw [State.takeTurn_of listed hs, stays]
    refine ⟨fun a v k x ht hx => ?_, fun a v ht => ?_, fun ht => ?_⟩
    · rw [taken, State.sendPacket_price ht hx]
      intro a' v' h
      rw [ht] at h
      obtain ⟨rfl, rfl⟩ : a = a' ∧ v = v' := by simpa using h
      simp [hx]
    · rw [taken (by simp [ht]), State.sendPacket_blank ht]
    · rw [taken (by simp [ht]), State.sendPacket_unbound ht]
  case redirected =>
    intro s n due a v o ho hs ht hx sends
    refine ⟨fun e he => ?entry, fun he hb => ?stray⟩
    case entry =>
      have put := State.redirect_entry ho hs ht hx he
      have listed : (s.redirect n).owned n = some { o with target := e.display a } := by
        rw [put, State.owned_putOwned_self]
      have turn := State.takeTurn_of listed hs
      refine ⟨fun hw => ?_, fun k t hw hk => ?_⟩
      · have target : e.display a = .blank a e.visible := by simp [Entry.display, hw]
        rw [State.sendPacket_blank (by exact target), put, target] at turn
        simp only [sends, turn]
        refine ⟨?_, rfl, rfl⟩
        simp [State.owned, State.putOwned, State.withLabels, State.emit, AMap.get_put_self]
      · have target : e.display a = .price a e.visible := by simp [Entry.display, hw]
        have terms : (s.redirect n).displayTerms a e.visible = some (k, t) := by
          rw [put]
          exact hk
        rw [State.sendPacket_price (by exact target) terms, put, target] at turn
        simp only [sends, turn]
        refine ⟨?_, rfl, rfl⟩
        simp [State.owned, State.putOwned, State.withLabels, State.emit, AMap.get_put_self]
    case stray =>
      have put := State.redirect_stray ho hs ht he hb
      have listed : (s.redirect n).owned n = some { o with bound := none, target := .unbound } := by
        rw [put, State.owned_putOwned_self]
      have turn := State.takeTurn_of listed hs
      rw [State.sendPacket_unbound rfl, put] at turn
      simp only [sends, turn]
      refine ⟨?_, rfl, rfl⟩
      simp [State.owned, State.putOwned, State.withLabels, State.emit, AMap.get_put_self]
  case ended =>
    intro s n o ho
    refine ⟨fun due hs => ?sent, fun m hs => ?moving, fun due hl hv hd hin hm hslot => ?slot⟩
    case sent =>
      intro missed
      have turn : s.endTurn n = s.unanswered n o := by simp only [State.endTurn, ho, hs]
      refine ⟨fun hlt => ?_, fun hle => ?_, ?_⟩
      · have again : o.missed.attempts < 6 := Nat.succ_lt_succ hlt
        simp only [turn, State.unanswered, again, if_true]
        rfl
      · have last : ¬ o.missed.attempts < 6 := by
          simp only [Owned.missed]
          omega
        simp only [turn, State.unanswered, last, if_false]
        rfl
      · simp only [State.cutTurn, ho, hs]
    case moving => simp only [State.cutTurn, ho, hs]
    case slot =>
      have keep := State.endTurn_keeps (s.reach due) n
      have cycle := State.endTurn_cycle (s.reach due) n
      have reached : (s.reach due).endTurns = (s.reach due).endTurn n := by
        have same : (s.reach due).inTurn = [n] := hin
        rw [State.endTurns, same]
        rfl
      have idle : ((s.reach due).endTurn n).mayFill = false := (State.mayFill_of keep cycle).trans hm
      obtain ⟨x, y, labels⟩ := cycle
      have slot : ((s.reach due).endTurn n).labels.slot = s.labels.slot := by rw [labels]; rfl
      have length : ((s.reach due).endTurn n).labels.length = s.labels.length := by rw [labels]; rfl
      rw [exec_slotEnd hl hv hd, reached, State.nextSlot_idle (by rw [slot]; exact hslot) idle, slot, length]
      rfl
  case report =>
    intro s a done
    refine ⟨fun h => State.floorReport_not h, fun e c he hp hd => ?_⟩
    obtain ⟨hs, hv, hh⟩ := hd
    intro r left freed
    have run := State.floorReport_done hs he hp hv hh
    have book : (s.addReport r).entry a = some e := by rw [State.addReport_entry, he]
    have self : (s.addReport r).self = s.self := congrArg Settings.station ((s.addReport_keeps r) .settings (by decide))
    have held (hl : left ≠ []) : (s.addReport r).release a c s.self = (s.addReport r).modifyEntry a
        fun x => { x with phase := .changing (c.without s.self) } := by
      obtain ⟨x, hx⟩ := List.exists_mem_of_ne_nil _ hl
      obtain ⟨hm, hne⟩ := List.mem_filter.1 hx
      exact State.release_held ⟨x, hm, by simpa using hne⟩ a
    refine ⟨fun hl ho => ?outstanding, fun hl ho hr => ?formed, fun hl => ?last⟩
    case outstanding =>
      rw [held hl] at run
      refine ⟨fun hno => ?_, fun before x after hb hx hno => ?_⟩
      · rw [State.addReport_joins hno] at run
        refine ⟨fun hlt => run.trans ?_, fun hle => run.trans ?_⟩
        · rw [if_pos hlt]
          exact State.formReports_outstanding ho
        · rw [if_neg (Nat.not_lt.2 hle)]
          refine (State.formReports_outstanding ?_).trans rfl
          simpa [State.modifyEntry, State.withBook] using ho
      · rw [State.addReport_replaces hb hx hno] at run
        exact run.trans (State.formReports_outstanding ho)
    case formed =>
      have joined : s.addReport r = s.withBook fun b => { b with reports := b.reports ++ [r] } := by
        rw [State.addReport_joins (by simp [hr]), if_pos (by simp [hr])]
      rw [held hl, joined] at run
      let v : State := (s.withBook fun b => { b with reports := b.reports ++ [r] }).modifyEntry a
        fun x => { x with phase := .changing (c.without s.self) }
      have one : v.book.reports = [r] := by simp [v, State.modifyEntry, State.withBook, hr]
      refine ⟨fun hsend hroom => run.trans ?_, fun hno => run.trans ?_⟩
      · rw [State.formReports_queued (s := v) one ho hsend hroom]
        simp [v, freed, left, State.modifyEntry, State.withBook, State.withTrunk, hr, Changeover.without, dropStation]
      · have emptied : (v.withBook fun b => { b with reports := [], outstanding := false }) = freed := by
          simp [v, freed, left, State.modifyEntry, State.withBook, hr, ho, Changeover.without, dropStation]
        rw [State.formReports_lost (s := v) one ho hno, emptied]
    case last =>
      have all : ∀ x ∈ c.holdout, x.station = (s.addReport r).self := by
        intro x hx
        simpa [self] using List.filter_eq_nil_iff.1 hl x hx
      have released := State.release_last (s := s.addReport r) all a
      rw [self] at released
      rw [released] at run
      have phase := State.entry_modifyEntry_self book fun e => { e with phase := .changing (c.without s.self) }
      refine ⟨fun k x hact => ?_, fun hact hq => ?_⟩
      · rw [run, State.formReports_entry, State.complete_set (c := c.without s.self) hact, State.entry_modifyEntry_self phase]
        rfl
      · have act : (c.without s.self).pending.action = .withdraw := hact
        have queued : (c.without s.self).queued = none := hq
        rw [run, State.formReports_entry]
        simp only [State.complete, act, queued]
        exact State.entry_removeEntry_self _ _
end

section
/-! PROOFS. Acknowledgements as they are taken. -/

namespace Sys2Proof.Machine

open Sys2Proof

variable {s t u : State}

/-! ### Battery states (R96) -/

theorem State.takeBattery_none {n : Nat} (h : s.owned n = none) (b : Battery) : s.takeBattery n b = s := by
  simp only [State.takeBattery, h]

/-- A battery state that is not worse replaces the entry's and records nothing (R96). -/
theorem State.takeBattery_same {n : Nat} {o : Owned} {b : Battery} (h : s.owned n = some o)
    (hb : batteryRank b ≤ batteryRank o.battery) : s.takeBattery n b = s.putOwned n { o with battery := b } := by
  simp only [State.takeBattery, h, Nat.not_lt.2 hb, if_false]

/-- A worse one records LABEL-BATTERY (R96). -/
theorem State.takeBattery_worse {n : Nat} {o : Owned} {b : Battery} (h : s.owned n = some o)
    (hb : batteryRank o.battery < batteryRank b) : s.takeBattery n b =
      (s.putOwned n { o with battery := b }).recordAlert .labelBattery (if b = .low then .info else .warn) (.label n)
        (.battery b) := by
  simp only [State.takeBattery, h, hb, if_true]

/-! ### The display after an acknowledgement (R91, R92) -/

/-- The display of a label that shows another version than the last sent (R92). -/
def Owned.other (o : Owned) (v : Nat) : Display :=
  if v = 0 then ⟨.blank, none, 0⟩ else { o.display with version := v }

theorem Owned.displayAfter_sent {o : Owned} {d : Display} (h : o.lastSent = some d) : o.displayAfter d.version = (true, d) := by
  simp only [Owned.displayAfter, h, if_true]

theorem Owned.displayAfter_other {o : Owned} {v : Nat} (h : ∀ d, o.lastSent = some d → d.version ≠ v) :
    o.displayAfter v = (false, o.other v) := by
  have shows : o.displayAfter v = match o.lastSent with
      | none => (false, o.other v)
      | some d => if d.version = v then (true, d) else (false, o.other v) := rfl
  rw [shows]
  split
  · rfl
  · next d hd => exact if_neg (h d hd)

/-! ### An acknowledgement is taken (R91, R92, R119) -/

theorem exec_ackReceived {a : AckPacket} (hl : s.live = true) (hv : s.serving = true)
    (hs : s.settings.labelService = true) : exec (.ackReceived a) s = .next (s.takeAck a) := by
  have run : exec (.ackReceived a) s = execAckReceived a s := rfl
  simp only [run, execAckReceived, hl, hv, hs, Bool.and_self, if_true]

/-- The adoptions of which an acknowledgement is recorded (R119). -/
theorem recordAdoptionAck_eq (n : Nat) (x : Station) (l : List Adoption) : recordAdoptionAck n x l =
    l.map fun y => if y.presence.label = n ∧ y.ack = none then { y with ack := some x } else y := by
  simp only [recordAdoptionAck, Option.isNone_iff_eq_none]

section Ack
variable {a : AckPacket} {o : Owned}

/-- An acknowledgement of a SENT label (R91). -/
theorem State.takeAck_sent {due : Nat} (h : s.owned a.label = some o) (hs : o.state = .sent due) :
    s.takeAck a = ((s.hearAdoptionAck a).bump .acksTaken).ackSent a o := by
  simp only [State.takeAck, State.hearAdoptionAck_owned, h, hs]

/-- An acknowledgement of a label that is SHOWING, UPDATE-DUE or LOST (R92). -/
theorem State.takeAck_report (h : s.owned a.label = some o) (hs : ∀ due, o.state ≠ .sent due)
    (hm : ∀ m, o.state ≠ .moving m) : s.takeAck a = ((s.hearAdoptionAck a).bump .acksTaken).ackReport a o := by
  simp only [State.takeAck, State.hearAdoptionAck_owned, h]
  split
  · next due e => exact absurd e (hs due)
  · next m e => exact absurd e (hm m)
  all_goals rfl

theorem State.hearAdoptionAck_now (s : State) (a : AckPacket) : (s.hearAdoptionAck a).now = s.now :=
  s.hearAdoptionAck_keeps a .now (by decide)

/-- What an ACK of a label that is neither SENT nor MOVING leaves of it (R92). -/
theorem State.ackReport_showing (hs : o.state = .showing) : s.ackReport a o =
    ((s.putOwned a.label (({ o with display := (o.displayAfter a.version).2, lastReceived := some a.level } : Owned).settled
      s.now)).takeBattery a.label a.battery).floorReportOpt o.bound := by
  simp only [State.ackReport, hs]

theorem State.ackReport_lost (hs : o.state = .lost) : s.ackReport a o =
    ((s.putOwned a.label { o with display := (o.displayAfter a.version).2, lastReceived := some a.level }).takeBattery
      a.label a.battery).floorReportOpt o.bound := by
  simp only [State.ackReport, hs]

theorem State.ackReport_due {due : Nat} (hs : o.state = .updateDue due) : s.ackReport a o =
    let o1 : Owned := { o with display := (o.displayAfter a.version).2, lastReceived := some a.level }
    ((s.putOwned a.label (if o1.current then { o1 with state := .showing, attempts := 0, power := o.power - 1 }
      else o1)).takeBattery a.label a.battery).floorReportOpt o.bound := by
  simp only [State.ackReport, hs]

end Ack

end Sys2Proof.Machine

/-! ### The statements -/

open Sys2Proof Sys2Proof.Machine

/-- Settles O23, by the state of the label that is acknowledged. -/
theorem ackIsTaken : Obligations.AckIsTaken := by
  unfold Obligations.AckIsTaken
  refine ⟨?ack, ?battery⟩
  case ack =>
    intro s a hl hv hs takes heard
    have run := exec_ackReceived (a := a) hl hv hs
    have hheard : s.hearAdoptionAck a = heard := by
      simp only [State.hearAdoptionAck, recordAdoptionAck_eq, heard]
    have now : (heard.bump .acksTaken).now = s.now := by
      rw [← hheard]
      exact s.hearAdoptionAck_now a
    refine ⟨fun ho => run.trans (congrArg _ ?_), ?_⟩
    · rw [State.takeAck_stray s a ho, hheard]
    intro o ho other shown
    refine ⟨fun due hst => ⟨?answered, ?missed⟩, ?report⟩
    case answered =>
      intro d hd hver
      refine run.trans (congrArg _ ?_)
      rw [State.takeAck_sent ho hst, hheard]
      have after : o.displayAfter a.version = (true, d) := hver ▸ Owned.displayAfter_sent hd
      simp only [State.ackSent, after, if_true, Owned.settled, now]
      rfl
    case missed =>
      intro hno missed counted
      have after : o.displayAfter a.version = (false, other) := Owned.displayAfter_other hno
      have taken : s.takeAck a = (((heard.bump .acksTaken).unanswered a.label { o with display := other }).takeBattery
          a.label a.battery).floorReportOpt o.bound := by
        rw [State.takeAck_sent ho hst, hheard]
        simp only [State.ackSent, after, Bool.false_eq_true, if_false]
      refine ⟨fun hlt => run.trans (congrArg _ ?_), fun hle => run.trans (congrArg _ ?_)⟩
      · have again : ({ o with display := other } : Owned).missed.attempts < 6 := Nat.succ_lt_succ hlt
        rw [taken]
        simp only [State.unanswered, again, if_true, now]
        rfl
      · have last : ¬ ({ o with display := other } : Owned).missed.attempts < 6 := by
          simp only [Owned.missed]
          omega
        rw [taken]
        simp only [State.unanswered, last, if_false]
        rfl
    case report =>
      intro d hd
      have after : (o.displayAfter a.version).2 = d := by
        rcases hd with ⟨hd, hver⟩ | ⟨hno, rfl⟩
        · rw [← hver, Owned.displayAfter_sent hd]
        · rw [Owned.displayAfter_other hno]
          rfl
      have reported (hsent : ∀ due, o.state ≠ .sent due) (hmoving : ∀ m, o.state ≠ .moving m) :
          exec (.ackReceived a) s = .next ((heard.bump .acksTaken).ackReport a o) := by
        rw [run, State.takeAck_report ho hsent hmoving, hheard]
      refine ⟨fun hst => (reported (by simp [hst]) (by simp [hst])).trans (congrArg _ ?_),
        fun due hst => (reported (by simp [hst]) (by simp [hst])).trans (congrArg _ ?_),
        fun hst => (reported (by simp [hst]) (by simp [hst])).trans (congrArg _ ?_)⟩
      · rw [State.ackReport_showing hst, after, now]
        rfl
      · rw [State.ackReport_due hst]
        simp only [after]
        rfl
      · rw [State.ackReport_lost hst, after]
  case battery =>
    intro s n b
    refine ⟨fun ho => State.takeBattery_none ho b, ?_⟩
    intro o ho put
    refine ⟨fun h => State.takeBattery_same ho ?_, fun hne hb => ?_, fun hg hb => ?_⟩
    · rcases h with rfl | rfl | he
      · exact Nat.zero_le _
      · exact Nat.le_refl _
      · rw [he]
        cases b <;> decide
    · subst hb
      rw [State.takeBattery_worse ho (by revert hne; cases o.battery <;> decide)]
      rfl
    · subst hb
      rw [State.takeBattery_worse ho (by rw [hg]; decide)]
      rfl
end

section
/-! PROOFS. The commands BIND and UNBIND. -/

namespace Sys2Proof.Machine

open Sys2Proof

variable {s t u : State}

/-! ### A label that becomes UPDATE-DUE (R82, R83) -/

theorem LabelState.due_eq (st : LabelState) (now : Nat) :
    st.due now = match st with | .updateDue d => .updateDue d | _ => .updateDue now := by
  cases st <;> rfl

theorem State.labelAnswer_of {n : Nat} {o : Owned} (h : s.owned n = some o) :
    s.labelAnswer n = .done (.label o.target o.state) := by
  simp only [State.labelAnswer, h]

/-! ### The tests of BIND (R81) -/

section Bind
variable {n a : Nat} {e : Entry}

theorem State.bindCheck_visible (he : s.entry a = some e) (hc : e.current ≠ none) : s.bindCheck a = .visible e := by
  simp [State.bindCheck, he, Option.isSome_iff_ne_none, hc]

theorem State.actBind_noService (hs : s.settings.labelService = false) (n a : Nat) :
    State.actBind n a s = (.refused .noLabelService, s) := by
  simp [State.actBind, hs]

variable (hs : s.settings.labelService = true)
include hs

theorem State.actBind_unknown (he : s.entry a = none) (n : Nat) : State.actBind n a s = (.refused .unknownItem, s) := by
  simp [State.actBind, hs, State.bindCheck, he]

theorem State.actBind_notForSale (he : s.entry a = some e) (hc : e.current = none) (n : Nat) :
    State.actBind n a s = (.refused .notForSale, s) := by
  simp [State.actBind, hs, State.bindCheck, he, hc]

variable (he : s.entry a = some e) (hc : e.current ≠ none)
include he hc

theorem State.actBind_elsewhere {x : Heard} (hh : s.heard n = some x) :
    State.actBind n a s = (.refused (.ownedElsewhere x.hearing.owner), s) := by
  simp [State.actBind, hs, State.bindCheck_visible he hc, hh]

variable (hh : s.heard n = none)
include hh

theorem State.actBind_moving {o : Owned} {m : Move} (ho : s.owned n = some o) (hm : o.state = .moving m) :
    State.actBind n a s = (.refused .labelMoving, s) := by
  simp [State.actBind, hs, State.bindCheck_visible he hc, hh, ho, hm]

/-- A BIND of a label of this station that passes its tests (R82). -/
theorem State.actBind_owned {o : Owned} (ho : s.owned n = some o) (hm : ∀ m, o.state ≠ .moving m) :
    State.actBind n a s = ((s.bindLabel n a e o).labelAnswer n, s.bindLabel n a e o) := by
  simp only [State.actBind, hs, Bool.not_true, Bool.false_eq_true, if_false, State.bindCheck_visible he hc, hh, ho]
  split
  · next m e => exact absurd e (hm m)
  all_goals rfl

/-- A BIND of a new label that passes its tests, where there is room (R82, R109). -/
theorem State.actBind_new {v : State} (ho : s.owned n = none) (hr : s.makeRoom = (true, v)) :
    let t := v.drawCycle.2.bindLabel n a e (Owned.created v.self v.drawCycle.1 v.now)
    State.actBind n a s = (t.labelAnswer n, t) := by
  simp only [State.actBind, hs, Bool.not_true, Bool.false_eq_true, if_false, State.bindCheck_visible he hc, hh, ho, hr]
  rfl

theorem State.actBind_full {v : State} (ho : s.owned n = none) (hr : s.makeRoom = (false, v)) :
    State.actBind n a s = (.refused .tableFull, s) := by
  simp [State.actBind, hs, State.bindCheck_visible he hc, hh, ho, hr]

end Bind

/-! ### What a BIND leaves (R82) -/

section Bound
variable {n a : Nat} {e : Entry} {o : Owned}

/-- The OWNED entry as a BIND leaves it (R82). -/
def Owned.bindTo (o : Owned) (a : Nat) (x : Target) (now : Nat) : Owned :=
  { o with bound := some a, target := x, attempts := 0, state := o.state.due now }

theorem State.bindLabel_fresh (ho : o.bound = none) :
    s.bindLabel n a e o = (s.putOwned n (o.bindTo a (e.display a) s.now)).countBound a := by
  simp only [State.bindLabel, ho, reduceCtorEq, if_false]
  rfl

theorem State.bindLabel_same (ho : o.bound = some a) :
    s.bindLabel n a e o = s.putOwned n (o.bindTo a (e.display a) s.now) := by
  simp only [State.bindLabel, ho, if_true]
  rfl

theorem State.bindLabel_other {b : Nat} (ho : o.bound = some b) (hne : b ≠ a) : s.bindLabel n a e o =
    (((s.putOwned n (o.bindTo a (e.display a) s.now)).uncountBound b).floorReport b).countBound a := by
  simp only [State.bindLabel, ho, Option.some.injEq, hne, if_false]
  rfl

/-- What a BIND of a label in the table's new place leaves (R82, R109). -/
theorem State.bindLabel_created (he : s.entry a = some e) (x : Station) (k : Nat) :
    let t := s.bindLabel n a e (Owned.created x k s.now)
    t.owned n = some ((Owned.created x k s.now).bindTo a (e.display a) s.now) ∧
      t.entry a = some { e with bound := min (e.bound + 1) 2048 } ∧ t.labels.heard = s.labels.heard ∧
      t.counts = s.counts := by
  intro t
  have put : t = (s.putOwned n ((Owned.created x k s.now).bindTo a (e.display a) s.now)).countBound a :=
    State.bindLabel_fresh rfl
  rw [put]
  refine ⟨State.owned_putOwned_self s n _, ?_, rfl, rfl⟩
  exact State.entry_modifyEntry_self (s := s.putOwned n _) he _

end Bound

/-! ### Room in the table (R109) -/

theorem State.makeRoom_free (h : s.labels.owned.length + s.labels.heard.length < 2048) : s.makeRoom = (true, s) :=
  if_pos h

/-- The entry least recently heard, where every other has been heard since (R109). -/
theorem leastHeard_oldest {m : List (Nat × Heard)} {e : Nat × Heard} (he : e ∈ m)
    (h : ∀ f ∈ m, f ≠ e → e.2.hearing.stamp < f.2.hearing.stamp) : leastHeard m = some e := by
  induction m with
  | nil => cases he
  | cons x m ih =>
    rw [leastHeard]
    rcases Classical.em (x = e) with rfl | hx
    · cases hm : leastHeard m with
      | none => rfl
      | some f =>
        refine if_pos ?_
        rcases Classical.em (f = x) with rfl | hf
        · exact Nat.le_refl _
        · exact (h f (List.mem_cons_of_mem _ (leastHeard_mem hm)) hf).le
    · have there : e ∈ m := (List.mem_cons.1 he).resolve_left fun e => hx e.symm
      rw [ih there fun f hf => h f (List.mem_cons_of_mem _ hf)]
      exact if_neg (Nat.not_le.2 (h x (List.mem_cons_self ..) hx))

theorem Heard.outstanding_iff (h : Heard) :
    h.outstanding = true ↔ h.claimed = true ∧ ∀ k, h.claimAge = some k → k < 16 := by
  simp [Heard.outstanding, Option.all_eq_true]

/-- The HEARD entry that gives way (R109). -/
theorem victim_oldest {m : AMap Heard} {w : Nat} {x : Heard} (hw : AMap.wf m = true) (hx : AMap.get m w = some x)
    (h : (x.outstanding = false ∧ ∀ k y, AMap.get m k = some y → k ≠ w → y.outstanding = false →
        x.hearing.stamp < y.hearing.stamp) ∨
      ((∀ k y, AMap.get m k = some y → y.outstanding = true) ∧ ∀ k y, AMap.get m k = some y → k ≠ w →
        x.hearing.stamp < y.hearing.stamp)) : victim m = some (w, x) := by
  have there : (w, x) ∈ m := AMap.mem_of_get hx
  have other {k : Nat} {y : Heard} (hk : (k, y) ∈ m) (hne : (k, y) ≠ (w, x)) : AMap.get m k = some y ∧ k ≠ w := by
    have get := (AMap.get_eq_some_iff hw).2 hk
    refine ⟨get, fun e => hne ?_⟩
    subst e
    rw [Option.some.inj (get.symm.trans hx)]
  rcases h with ⟨hno, hold⟩ | ⟨hall, hold⟩
  · have least : leastHeard (m.filter fun e => !e.2.outstanding) = some (w, x) := by
      refine leastHeard_oldest (List.mem_filter.2 ⟨there, by simp [hno]⟩) fun f hf hne => ?_
      obtain ⟨hm, hfo⟩ := List.mem_filter.1 hf
      obtain ⟨get, hk⟩ := other hm hne
      exact hold _ _ get hk (by simpa using hfo)
    simp only [victim, least]
  · have empty : m.filter (fun e => !e.2.outstanding) = [] := by
      refine List.filter_eq_nil_iff.2 fun e he => ?_
      simp [hall e.1 e.2 ((AMap.get_eq_some_iff hw).2 he)]
    simp only [victim, empty, leastHeard]
    refine leastHeard_oldest there fun f hf hne => ?_
    obtain ⟨get, hk⟩ := other hf hne
    exact hold _ _ get hk

theorem State.makeRoom_full {e : Nat × Heard} (h : 2048 ≤ s.labels.owned.length + s.labels.heard.length)
    (hv : victim s.labels.heard = some e) :
    s.makeRoom = (true, (s.withLabels fun l => { l with heard := AMap.del l.heard e.1 }).bump .heardRemoved) := by
  have full : ¬ s.labels.size < Config.labelCapacity := Nat.not_lt.2 h
  simp only [State.makeRoom, full, if_false, hv]

theorem State.makeRoom_none (h : 2048 ≤ s.labels.owned.length) (hh : s.labels.heard = []) : s.makeRoom = (false, s) := by
  have full : ¬ s.labels.size < Config.labelCapacity := Nat.not_lt.2 (Nat.le_add_right_of_le h)
  simp only [State.makeRoom, full, if_false, hh, victim, List.filter_nil, leastHeard]

/-! ### UNBIND (R83) -/

section Unbind
variable {n : Nat} {o : Owned}

theorem State.actUnbind_noService (hs : s.settings.labelService = false) (n : Nat) :
    State.actUnbind n s = (.refused .noLabelService, s) := by
  simp [State.actUnbind, hs]

theorem State.actUnbind_notOwned (hs : s.settings.labelService = true) (ho : s.owned n = none) :
    State.actUnbind n s = (.refused .notOwned, s) := by
  simp [State.actUnbind, hs, ho]

theorem State.actUnbind_moving {m : Move} (hs : s.settings.labelService = true) (ho : s.owned n = some o)
    (hm : o.state = .moving m) : State.actUnbind n s = (.refused .labelMoving, s) := by
  simp [State.actUnbind, hs, ho, hm]

theorem State.actUnbind_owned (hs : s.settings.labelService = true) (ho : s.owned n = some o)
    (hm : ∀ m, o.state ≠ .moving m) :
    State.actUnbind n s = ((s.unbindLabel n o).labelAnswer n, s.unbindLabel n o) := by
  simp only [State.actUnbind, hs, Bool.not_true, Bool.false_eq_true, if_false, ho]
  split
  · next m e => exact absurd e (hm m)
  all_goals rfl

end Unbind

/-- A label that is unbound and listed. -/
def Owned.Free (o : Owned) : Prop := o.bound = none ∧ o.target = .unbound ∧ ∃ d, o.state = .updateDue d

/-- The unbinds of a withdrawal leave a label that is unbound and listed (R86). -/
theorem State.unbindAll_free {n : Nat} {o : Owned} (ho : s.owned n = some o) (hf : o.Free) (a : Nat) :
    (s.unbindAll a).owned n = some o := by
  obtain ⟨hb, ht, d, hd⟩ := hf
  have one (v : State) (m : Nat) (hv : v.owned n = some o) : (v.unbindOne a m).owned n = some o := by
    unfold State.unbindOne
    split
    · exact hv
    · next p hp =>
      have counted (w : State) : (w.uncountBound a).owned n = w.owned n := rfl
      have put : (v.putOwned m { p with bound := none }).owned m = some { p with bound := none } :=
        State.owned_putOwned_self v m _
      rw [counted, State.owned, State.retarget_labels put]
      rcases Classical.em (n = m) with rfl | hne
      · obtain rfl : o = p := Option.some.inj (hv.symm.trans hp)
        have same : ({ o with bound := none } : Owned).retargeted (v.putOwned n { o with bound := none }).now .unbound = o := by
          obtain ⟨ob, od, os, ot, ol, oa, ow, oy, or, oh⟩ := o
          obtain rfl : ob = none := hb
          obtain rfl : ot = .unbound := ht
          obtain rfl : os = .updateDue d := hd
          rfl
        rw [same]
        exact AMap.get_put_self _ _ _
      · exact (AMap.get_put_ne _ _ hne).trans ((AMap.get_put_ne _ _ hne).trans hv)
  have all (l : List Nat) (v : State) (hv : v.owned n = some o) : (l.foldl (fun s m => s.unbindOne a m) v).owned n = some o := by
    induction l generalizing v with
    | nil => exact hv
    | cons m l ih => exact ih _ (one v m hv)
  exact all _ s ho

/-- A floor report leaves a label that is unbound and listed (R99). -/
theorem State.floorReport_free {n : Nat} {o : Owned} (ho : s.owned n = some o) (hf : o.Free) (a : Nat) :
    (s.floorReport a).owned n = some o := by
  have completed (v : State) (hv : v.owned n = some o) (c : Changeover) : (v.complete a c).owned n = some o := by
    have free := State.unbindAll_free hv hf a
    have kept {w x : State} (hk : keeps [.book, .counts] w x) (hw : w.owned n = some o) : x.owned n = some o :=
      (State.owned_of_keeps hk (by decide) n).trans hw
    unfold State.complete
    split
    · exact kept (by simp) hv
    · dsimp only
      split
      · exact kept (by simp) free
      · split
        · exact kept (by simp) free
        · exact kept (by simp) free
  have released (v : State) (hv : v.owned n = some o) (c : Changeover) (m : Station) : (v.release a c m).owned n = some o := by
    unfold State.release
    dsimp only
    split
    · exact completed (v.modifyEntry a _) hv _
    · exact hv
  unfold State.floorReport State.localDone
  repeat' split
  case h_3.isTrue =>
    exact (State.owned_of_keeps (State.formReports_keeps _) (by decide) n).trans
      (released _ ((State.owned_of_keeps (s.addReport_keeps _) (by decide) n).trans ho) _ _)
  all_goals exact ho

/-- The OWNED entry as an UNBIND leaves it (R83). -/
def Owned.unbindTo (o : Owned) (now : Nat) : Owned :=
  { o with bound := none, target := .unbound, attempts := 0, state := o.state.due now }

theorem Owned.unbindTo_free (o : Owned) (now : Nat) : (o.unbindTo now).Free := by
  refine ⟨rfl, rfl, ?_⟩
  simp only [Owned.unbindTo]
  cases o.state
  case updateDue d => exact ⟨d, rfl⟩
  all_goals exact ⟨now, rfl⟩

/-- What an UNBIND leaves of its label (R83). -/
theorem State.unbindLabel_owned (s : State) (n : Nat) (o : Owned) :
    (s.unbindLabel n o).owned n = some (o.unbindTo s.now) := by
  have put : (s.putOwned n (o.unbindTo s.now)).owned n = some (o.unbindTo s.now) := State.owned_putOwned_self s n _
  have uncounted : ((s.putOwned n (o.unbindTo s.now)).uncountOpt o.bound).owned n = some (o.unbindTo s.now) :=
    (State.owned_of_keeps (State.uncountOpt_keeps _ _) (by decide) n).trans put
  have run : s.unbindLabel n o = ((s.putOwned n (o.unbindTo s.now)).uncountOpt o.bound).floorReportOpt o.bound := rfl
  rw [run]
  cases hb : o.bound with
  | none => exact put
  | some a =>
    rw [hb] at uncounted
    exact State.floorReport_free uncounted (o.unbindTo_free _) a

/-! ### An OFFICE reply's counts (R209) -/

theorem State.replied_count {h : OfficeHead} {k : Nat} {o : OfficeOutcome} {c : Count} (hc : c ∉ offerCounts)
    (hl : c ≠ .repliesLost) : (s.replied h k o).count c = s.count c := by
  have remembered : (s.remember h.src ⟨h.tag, k, o⟩).count c = s.count c := rfl
  rw [← remembered, State.replied, State.giveReply]
  have offered := Raises.offer (s.remember h.src ⟨h.tag, k, o⟩) (Frame.new (some h.src) (.officeReply ⟨h.tag, k, o⟩)
    (.reply false)) c hc
  dsimp only
  split
  · exact (State.count_bump_ne _ hl).trans offered
  · exact offered

/-- What a BIND of a new label leaves, once room has been made for it (R82, R109). -/
theorem exec_bind_new {h : OfficeHead} {n a : Nat} {e : Entry} {v : State} (ob : s.Obeys h)
    (hs : s.settings.labelService = true) (he : s.entry a = some e) (hc : e.current ≠ none) (hh : s.heard n = none)
    (ho : s.owned n = none) (hr : (s.heardFrom h.src id).makeRoom = (true, v)) :
    ∃ t o, exec (.bind h n a) s = .next t ∧ t.owned n = some o ∧ o.bound = some a ∧ o.target = e.display a ∧
      o.state = .updateDue s.now ∧ o.attempts = 0 ∧ o.power = 0 ∧ o.display = ⟨.blank, none, 0⟩ ∧ o.battery = .good ∧
      t.entry a = some { e with bound := min (e.bound + 1) 2048 } ∧ t.labels.heard = v.labels.heard ∧
      t.count .heardRemoved = v.count .heardRemoved ∧
      t.commands.places.get h.src = some ⟨h.tag, 3, .done (.label (e.display a) (.updateDue s.now))⟩ := by
  have he' : (s.heardFrom h.src id).entry a = some e := by simpa using he
  have hs' : (s.heardFrom h.src id).settings.labelService = true := by simpa using hs
  have hh' : (s.heardFrom h.src id).heard n = none := by simpa using hh
  have ho' : (s.heardFrom h.src id).owned n = none := by simpa using ho
  have made : keeps [.labels, .counts] (s.heardFrom h.src id) v := by
    have kept := (s.heardFrom h.src id).makeRoom_keeps
    rwa [hr] at kept
  have now : v.now = s.now := (made .now (by decide)).trans (by simp)
  have book : v.entry a = some e := by
    have same : v.book = (s.heardFrom h.src id).book := made .book (by decide)
    rw [State.entry, same]
    exact he'
  have act := State.actBind_new hs' he' hc hh' ho' hr
  obtain ⟨own, entry, heard, counts⟩ := State.bindLabel_created (s := v.drawCycle.2) (n := n) (a := a) (e := e) book v.self
    v.drawCycle.1
  have now' : v.drawCycle.2.now = s.now := now
  rw [now'] at own entry heard counts
  rw [now] at act
  dsimp only at act
  rw [State.labelAnswer_of own] at act
  have run : exec (.bind h n a) s = .next ((v.drawCycle.2.bindLabel n a e
      (Owned.created v.self v.drawCycle.1 s.now)).replied h 3 (.done (.label (e.display a) (.updateDue s.now)))) :=
    congrArg Host.Outcome.next (ob.exec_office act)
  refine ⟨_, (Owned.created v.self v.drawCycle.1 s.now).bindTo a (e.display a) s.now, run, ?_, rfl, rfl, rfl, rfl, rfl, rfl,
    rfl, ?_, ?_, ?_, State.replied_place _ _ _ _⟩
  · exact (State.owned_of_keeps (State.replied_keeps _ _ _ _) (by decide) n).trans own
  · have same := State.replied_keeps (v.drawCycle.2.bindLabel n a e (Owned.created v.self v.drawCycle.1 s.now)) h 3
      (.done (.label (e.display a) (.updateDue s.now))) .book (by decide)
    exact (congrArg (fun b : Book => AMap.get b.entries a) same).trans entry
  · have same := State.replied_keeps (v.drawCycle.2.bindLabel n a e (Owned.created v.self v.drawCycle.1 s.now)) h 3
      (.done (.label (e.display a) (.updateDue s.now))) .labels (by decide)
    exact (congrArg (fun l : Labels => l.heard) same).trans heard
  · refine (State.replied_count (by decide) (by decide)).trans ?_
    simp only [State.count, counts]
    rfl

/-- The answer to a BIND and an UNBIND does not depend on what the price book counts. -/
theorem State.countBound_answer (s : State) (a n : Nat) : (s.countBound a).labelAnswer n = s.labelAnswer n := rfl

theorem State.uncountBound_answer (s : State) (a n : Nat) : (s.uncountBound a).labelAnswer n = s.labelAnswer n := rfl

end Sys2Proof.Machine

/-! ### The statements -/

open Sys2Proof Sys2Proof.Machine

/-- Settles O24, by the tests of BIND and UNBIND and by what each leaves of its label. -/
theorem labelsAreBoundAndUnbound : Obligations.LabelsAreBoundAndUnbound := by
  unfold Obligations.LabelsAreBoundAndUnbound
  refine ⟨?bind, ?rebind, ?unbind, ?refusals⟩
  case bind =>
    intro s h n a e ob hs he hc hh target
    have he' : (s.heardFrom h.src id).entry a = some e := by simpa using he
    have hs' : (s.heardFrom h.src id).settings.labelService = true := by simpa using hs
    have hh' : (s.heardFrom h.src id).heard n = none := by simpa using hh
    refine ⟨?_, fun ho hroom => ?_⟩
    · intro o ho hb hm st
      have ho' : (s.heardFrom h.src id).owned n = some o := by simpa using ho
      have due : st = o.state.due s.now := (LabelState.due_eq o.state s.now).symm
      have act := State.actBind_owned hs' he' hc hh' ho' hm
      rw [State.bindLabel_fresh hb, State.heardFrom_now, State.countBound_answer,
        State.labelAnswer_of (State.owned_putOwned_self _ n _)] at act
      refine (congrArg _ (ob.exec_office act)).trans ?_
      rw [due]
      rfl
    · obtain ⟨r, x, labels⟩ := s.heardFrom_labels h.src id
      have room : (s.heardFrom h.src id).makeRoom = (true, s.heardFrom h.src id) :=
        State.makeRoom_free (by rw [labels]; exact hroom)
      obtain ⟨t, o, run, own, hb, ht, hst, hat, hpw, hd, hby, entry, -, -, place⟩ := exec_bind_new ob hs he hc hh ho room
      exact ⟨t, run, ⟨o, own, hb, ht, hst, hat, hpw, hd, hby⟩, ⟨_, entry, rfl⟩, place⟩
  case rebind =>
    intro s h n a e ob hs he hc hh heard target
    refine ⟨?_, ?_⟩
    · intro o b ho hb hm st put
      have he' : heard.entry a = some e := by simpa [heard] using he
      have hs' : heard.settings.labelService = true := by simpa [heard] using hs
      have hh' : heard.heard n = none := by simpa [heard] using hh
      have ho' : heard.owned n = some o := by simpa [heard] using ho
      have due : st = o.state.due s.now := (LabelState.due_eq o.state s.now).symm
      have putEq : heard.putOwned n (o.bindTo a (e.display a) heard.now) = put := by
        simp only [put, due, heard, State.heardFrom_now]
        rfl
      have act := State.actBind_owned hs' he' hc hh' ho' hm
      have answer : put.labelAnswer n = .done (.label target st) := State.labelAnswer_of (State.owned_putOwned_self _ n _)
      refine ⟨fun hba => ?_, ?_⟩
      · subst hba
        rw [State.bindLabel_same hb, putEq, answer] at act
        exact congrArg _ (ob.exec_office act)
      · intro hne told
        rw [State.bindLabel_other hb hne, putEq] at act
        refine ⟨congrArg _ (ob.exec_office act), fun hsteady => ?_⟩
        have quiet : (put.uncountBound b).floorReport b = put.uncountBound b := by
          refine State.floorReport_not fun f c hf hp => ?_
          have old : put.entry b = s.entry b := by
            rw [← putEq]
            exact s.heardFrom_entry h.src id b
          rw [State.uncountBound, State.entry_modifyEntry, old] at hf
          cases hs : s.entry b with
          | none => simp [hs] at hf
          | some g =>
            simp only [hs, if_true, Option.map_some, Option.some.injEq] at hf
            exact absurd (by rw [← hp, ← hf]) (hsteady g c hs)
        rw [quiet, State.countBound_answer, State.uncountBound_answer, answer] at act
        exact congrArg _ (ob.exec_office act)
    · intro w x ho hok hfull hw claimed oldest hwho
      obtain ⟨r, y, labels⟩ := s.heardFrom_labels h.src id
      have out (z : Heard) : z.outstanding = false ↔ ¬ claimed z := by
        rw [← Bool.not_eq_true, Heard.outstanding_iff]
      have gives : victim s.labels.heard = some (w, x) := by
        refine victim_oldest hok.heard hw ?_
        rcases hwho with ⟨hno, hold⟩ | ⟨hall, hold⟩
        · exact .inl ⟨(out x).2 hno, fun k z hk hne hz => hold k z hk hne ((out z).1 hz)⟩
        · exact .inr ⟨fun k z hk => (Heard.outstanding_iff z).2 (hall k z hk), fun k z hk hne => hold k z hk hne trivial⟩
      have room := State.makeRoom_full (s := heard) (e := (w, x)) (by simp only [heard, labels]; exact hfull)
        (by simp only [heard, labels]; exact gives)
      obtain ⟨t, o, run, own, hb, ht, hst, -, -, -, -, entry, left, removed, place⟩ := exec_bind_new ob hs he hc hh ho room
      refine ⟨t, run, ?_, ?_, ⟨o, own, hb, ht, hst⟩, entry, place⟩
      · rw [left]
        simp only [State.bump_labels, State.withLabels_labels, heard, labels]
      · rw [removed, State.count_bump]
        rfl
  case unbind =>
    intro s h n o ob hs ho hm st told report
    have hs' : (s.heardFrom h.src id).settings.labelService = true := by simpa using hs
    have ho' : (s.heardFrom h.src id).owned n = some o := by simpa using ho
    have due : st = o.state.due s.now := (LabelState.due_eq o.state s.now).symm
    have act := State.actUnbind_owned hs' ho' hm
    have left : (s.heardFrom h.src id).unbindLabel n o = report := by
      have same : (s.heardFrom h.src id).unbindLabel n o = told.floorReportOpt o.bound := by
        simp only [State.unbindLabel, State.heardFrom_now, told, due]
      rw [same]
      simp only [report]
      cases o.bound <;> rfl
    have answer : report.labelAnswer n = .done (.label .unbound st) := by
      rw [← left, State.labelAnswer_of (State.unbindLabel_owned _ n o), due, State.heardFrom_now]
      rfl
    rw [left, answer] at act
    refine ⟨congrArg _ (ob.exec_office act), fun hsteady => ?_⟩
    simp only [report]
    split
    · rfl
    · next a hb =>
      refine State.floorReport_not fun f c hf hp => ?_
      have same : told.entry a = ((s.entry a).map fun g => { g with bound := g.bound - 1 }) := by
        simp only [told, hb, State.uncountOpt, State.uncountBound, State.entry_modifyEntry, if_true]
        exact congrArg _ (s.heardFrom_entry h.src id a)
      rw [same] at hf
      cases hs : s.entry a with
      | none => simp [hs] at hf
      | some g =>
        simp only [hs, Option.map_some, Option.some.injEq] at hf
        exact absurd (by rw [← hp, ← hf]) (hsteady a g c hb hs)
  case refusals =>
    intro s h n a ob refuses
    have bind {r : Reason} (act : State.actBind n a (s.heardFrom h.src id) = (.refused r, s.heardFrom h.src id)) :
        refuses (.bind h n a) 3 r := congrArg _ (ob.exec_office act)
    have unbind {r : Reason} (act : State.actUnbind n (s.heardFrom h.src id) = (.refused r, s.heardFrom h.src id)) :
        refuses (.unbind h n) 4 r := congrArg _ (ob.exec_office act)
    refine ⟨fun hs => ⟨bind (State.actBind_noService (by simpa using hs) n a),
      unbind (State.actUnbind_noService (by simpa using hs) n)⟩, fun hs => ?_⟩
    have hs' : (s.heardFrom h.src id).settings.labelService = true := by simpa using hs
    refine ⟨fun he => bind (State.actBind_unknown hs' (by simpa using he) n), fun e he => ?_,
      fun ho => unbind (State.actUnbind_notOwned hs' (by simpa using ho)),
      fun o m ho hm => unbind (State.actUnbind_moving hs' (by simpa using ho) hm)⟩
    have he' : (s.heardFrom h.src id).entry a = some e := by simpa using he
    refine ⟨fun hc => bind (State.actBind_notForSale hs' he' hc n), fun hc => ⟨fun x hx => ?_, fun hh o m ho hm => ?_,
      fun hh ho hfull => ?_⟩⟩
    · exact bind (State.actBind_elsewhere hs' he' hc (by simpa using hx))
    · exact bind (State.actBind_moving hs' he' hc (by simpa using hh) (by simpa using ho) hm)
    · obtain ⟨r, y, labels⟩ := s.heardFrom_labels h.src id
      have none_heard : (s.heardFrom h.src id).heard n = none := by
        rw [State.heardFrom_heard, State.heard, hh]
        rfl
      exact bind (State.actBind_full hs' he' hc none_heard (by simpa using ho)
        (State.makeRoom_none (by rw [labels]; exact hfull) (by rw [labels]; exact hh)))
end

section
/-! PROOFS. Guests: their frames, their buckets and the replies to them. -/

namespace Sys2Proof.Machine

open Sys2Proof

variable {s t u : State}

/-! ### The guest list (R157) -/

section Guests
variable {a : Nat} {g : Guest} {before after : List Guest}

theorem findGuest_at (hg : g.address = a) (hno : ∀ x ∈ before ++ after, x.address ≠ a) :
    findGuest a (before ++ g :: after) = some g := by
  have skipped : before.find? (fun x => x.address == a) = none :=
    List.find?_eq_none.2 fun x hx => by simpa using hno x (List.mem_append_left _ hx)
  simp [findGuest, List.find?_append, skipped, hg]

theorem findGuest_none {gs : List Guest} (h : ∀ x ∈ gs, x.address ≠ a) : findGuest a gs = none :=
  List.find?_eq_none.2 fun x hx => by simpa using h x hx

theorem changeGuest_at (hg : g.address = a) (hno : ∀ x ∈ before ++ after, x.address ≠ a) (f : Guest → Guest) :
    changeGuest a f (before ++ g :: after) = before ++ f g :: after := by
  have keep (l : List Guest) (hl : ∀ x ∈ l, x.address ≠ a) : l.map (fun x => if x.address = a then f x else x) = l :=
    (List.map_congr_left fun x hx => if_neg (hl x hx)).trans (List.map_id l)
  rw [changeGuest, List.map_append, List.map_cons, keep before fun x hx => hno x (List.mem_append_left _ hx),
    keep after fun x hx => hno x (List.mem_append_right _ hx), if_pos hg]

/-- No guest has been idle for more than 10 min (R159). -/
theorem idleGuest_none {now : Nat} {gs : List Guest} (h : ∀ x ∈ gs, now ≤ x.lastSeen + Config.minutes 10) :
    idleGuest now gs = none := by
  induction gs with
  | nil => rfl
  | cons x gs ih =>
    simp only [idleGuest, ih fun y hy => h y (List.mem_cons_of_mem _ hy),
      if_neg (Nat.not_lt.2 (h x (List.mem_cons_self ..)))]

theorem idleGuest_mem {now : Nat} {gs : List Guest} (h : idleGuest now gs = some g) : g ∈ gs := by
  induction gs with
  | nil => cases h
  | cons x gs ih =>
    simp only [idleGuest] at h
    split at h
    · split at h
      · cases h
        exact List.mem_cons_self ..
      · cases h
    · next y hy =>
      split at h
      · cases h
        exact List.mem_cons_self ..
      · cases h
        exact List.mem_cons_of_mem _ (ih hy)

/-- The guest idle for longest, and for more than 10 min (R159). -/
theorem idleGuest_at {now : Nat} (hg : g.lastSeen + Config.minutes 10 < now)
    (hold : ∀ x ∈ before ++ after, g.lastSeen < x.lastSeen) : idleGuest now (before ++ g :: after) = some g := by
  induction before with
  | nil =>
    simp only [List.nil_append, idleGuest]
    split
    · exact if_pos hg
    · next y hy => exact if_pos (hold y (idleGuest_mem hy)).le
  | cons x before ih =>
    have found := ih fun y hy => hold y (List.mem_cons_of_mem _ hy)
    simp only [List.cons_append, idleGuest, found]
    exact if_neg (Nat.not_le.2 (hold x (List.mem_cons_self ..)))

end Guests

/-! ### The tests of a guest's frame (R158 to R162) -/

/-- The bucket test and the routing of a frame whose guest is in the list (R160, R162). -/
def State.testGuest (s : State) (a : Nat) (payload : List Byte) : State :=
  let s2 := s.withFwd fun w => { w with guests := changeGuest a (fun g => { g with lastSeen := s.now }) w.guests }
  match findGuest a s2.fwd.guests with
  | none => s2
  | some g => if (s2.bucketTest g payload.length).1 then (s2.bucketTest g payload.length).2.routeGuest a payload
    else (s2.bucketTest g payload.length).2

theorem State.guestFrame_known {a : Nat} {g : Guest} (h : findGuest a s.fwd.guests = some g) (payload : List Byte) :
    s.guestFrame a payload = s.testGuest a payload := by
  simp only [State.guestFrame, h, Bool.not_true, Bool.false_eq_true, if_false]
  rfl

theorem State.guestFrame_admitted {a : Nat} {v : State} (h : findGuest a s.fwd.guests = none)
    (hv : s.admitGuest a = (true, v)) (payload : List Byte) : s.guestFrame a payload = v.testGuest a payload := by
  simp only [State.guestFrame, h, hv, Bool.not_true, Bool.false_eq_true, if_false]
  rfl

theorem State.guestFrame_turned {a : Nat} {v : State} (h : findGuest a s.fwd.guests = none)
    (hv : s.admitGuest a = (false, v)) (payload : List Byte) : s.guestFrame a payload = v := by
  simp only [State.guestFrame, h, hv, Bool.not_false, if_true]

section Listed
variable {a : Nat} {g : Guest} {before after : List Guest} {payload : List Byte}
  (hs : s.fwd.guests = before ++ g :: after) (hg : g.address = a) (hno : ∀ x ∈ before ++ after, x.address ≠ a)
include hs hg hno

theorem State.bucketTest_passed {n : Nat} (hn : n ≤ g.level) : s.bucketTest g n =
    (true, s.withFwd fun w => { w with guests := before ++ g.pass s.settings.allowance n :: after }) := by
  simp only [State.bucketTest, hn, if_true, hg, State.withFwd, hs, changeGuest_at hg hno]

/-- A frame that its bucket has the bytes for (R160, R162). -/
theorem State.testGuest_passed (hn : payload.length ≤ g.level) : s.testGuest a payload =
    (s.withFwd fun w => { w with guests :=
      before ++ ({ g with lastSeen := s.now } : Guest).pass s.settings.allowance payload.length :: after }).routeGuest a
        payload := by
  let seen : State := s.withFwd fun w => { w with guests := before ++ { g with lastSeen := s.now } :: after }
  have touched : (s.withFwd fun w => { w with guests := changeGuest a (fun g => { g with lastSeen := s.now }) w.guests }) =
      seen := by
    simp only [State.withFwd, hs, changeGuest_at hg hno, seen]
  have found : findGuest a seen.fwd.guests = some { g with lastSeen := s.now } := findGuest_at hg hno
  have passed := State.bucketTest_passed (s := seen) (g := { g with lastSeen := s.now }) rfl hg hno hn
  simp only [State.testGuest, touched, found, passed, if_true]
  rfl

/-- A frame that its bucket has not the bytes for (R160). -/
theorem State.testGuest_dropped (hn : g.level < payload.length) : s.testGuest a payload =
    (s.withFwd fun w => { w with guests := before ++ { g with lastSeen := s.now } :: after }).bump .budgetDrops := by
  let seen : State := s.withFwd fun w => { w with guests := before ++ { g with lastSeen := s.now } :: after }
  have touched : (s.withFwd fun w => { w with guests := changeGuest a (fun g => { g with lastSeen := s.now }) w.guests }) =
      seen := by
    simp only [State.withFwd, hs, changeGuest_at hg hno, seen]
  have found : findGuest a seen.fwd.guests = some { g with lastSeen := s.now } := findGuest_at hg hno
  have short : ¬ payload.length ≤ g.level := Nat.not_le.2 hn
  simp only [State.testGuest, touched, found, State.bucketTest, short, if_false, Bool.false_eq_true]
  rfl

end Listed

/-! ### Admission (R159) -/

section Admission
variable {a : Nat}

theorem guestEligible_iff (m : Mode) : guestEligible m = true ↔ m = .open ∨ m = .late := by
  cases m <;> simp [guestEligible]

theorem State.admitGuest_closed (h : guestEligible s.unit.mode = false) (a : Nat) :
    s.admitGuest a = (false, s.reject a .closed) := by
  simp [State.admitGuest, h]

variable (h : guestEligible s.unit.mode = true)
include h

theorem State.admitGuest_room (hr : s.fwd.guests.length < 128) : s.admitGuest a =
    (true, s.withFwd fun w => { w with guests := w.guests ++ [Guest.admitted a s.now] }) := by
  simp [State.admitGuest, h, Config.guestCapacity, hr]

theorem State.admitGuest_full (hr : 128 ≤ s.fwd.guests.length) (hn : idleGuest s.now s.fwd.guests = none) :
    s.admitGuest a = (false, s.reject a .full) := by
  simp [State.admitGuest, h, Config.guestCapacity, Nat.not_lt.2 hr, hn]

theorem State.admitGuest_evicts {g : Guest} {before after : List Guest} (hr : 128 ≤ s.fwd.guests.length)
    (hs : s.fwd.guests = before ++ g :: after) (hn : idleGuest s.now s.fwd.guests = some g)
    (hno : ∀ x ∈ before ++ after, x.address ≠ g.address) : s.admitGuest a =
      (true, (s.bump .evictions).withFwd fun w => { w with guests := before ++ after ++ [Guest.admitted a s.now] }) := by
  have keep (l : List Guest) (hl : ∀ x ∈ l, x.address ≠ g.address) : l.filter (fun x => x.address != g.address) = l :=
    List.filter_eq_self.2 fun x hx => by simpa using hl x hx
  have left : s.fwd.guests.filter (fun x => x.address != g.address) = before ++ after := by
    rw [hs, List.filter_append, List.filter_cons, keep before fun x hx => hno x (List.mem_append_left _ hx),
      keep after fun x hx => hno x (List.mem_append_right _ hx)]
    simp
  simp only [State.admitGuest, h, Bool.not_true, Bool.false_eq_true, if_false, Config.guestCapacity, Nat.not_lt.2 hr, hn,
    State.withFwd, left]
  rfl

end Admission

/-! ### Routing (R162) -/

/-- A frame that may not wait is not taken by a full queue (R123). -/
theorem State.offer_full {f : Frame} (hsend : s.canSend = true) (hw : f.body.waits = false)
    (hfull : Config.queueCapacity f.body.trunkClass ≤ (s.trunk.queue f.body.trunkClass).length) :
    s.offer f = (.notTaken, s.bump (notTakenCount f.body.trunkClass)) := by
  simp [State.offer, hsend, hw, Nat.not_lt.2 hfull]

section Routing
variable {a : Nat} {payload : List Byte}

/-- A guest's frame as a parcel (R162). -/
def guestParcel (s : State) (a : Nat) (payload : List Byte) : Parcel :=
  { cls := .guest, origin := s.settings.station, port := .guest, tag := 0, guest := some a, status := .data
    payload := payload }

theorem Forwarding.fits_guest {w : Forwarding} {q : Parcel} (h : q.cls = .guest) :
    w.fits q = true ↔ (w.guest.map (·.payload.length)).sum + q.payload.length ≤ 65536 := by
  simp [Forwarding.fits, h, Forwarding.queue, bytesOf, Config.uplinkCapacity]

/-- A transmitter that is sending chooses nothing (R147). -/
theorem State.transmit_busy (h : s.fwd.sending ≠ none) : s.transmit = s := by
  simp [State.transmit, Option.isNone_iff_eq_none, h]

theorem State.offerGuest_queued {p : Parcel} (hp : p.cls = .guest) (hm : guestEligible s.unit.mode = true)
    (hsend : s.fwd.sending ≠ none) (hr : (s.fwd.guest.map (·.payload.length)).sum + p.payload.length ≤ 65536) :
    s.offerGuest p = (true, s.withFwd fun w => { w with guest := w.guest ++ [p] }) := by
  have busy := State.transmit_busy (s := s.withFwd fun w => { w with guest := w.guest ++ [p] }) hsend
  simp only [State.offerGuest, hm, Bool.not_true, Bool.false_eq_true, if_false, (Forwarding.fits_guest hp).2 hr, if_true,
    State.joinUplink, hp, Forwarding.queue, Forwarding.setQueue, busy]

theorem State.offerGuest_full {p : Parcel} (hp : p.cls = .guest) (hm : guestEligible s.unit.mode = true)
    (hr : 65536 < (s.fwd.guest.map (·.payload.length)).sum + p.payload.length) :
    s.offerGuest p = (false, s.bump .guestQueueFull) := by
  have full : s.fwd.fits p = false := by
    rw [← Bool.not_eq_true, Forwarding.fits_guest hp]
    exact Nat.not_le.2 hr
  simp [State.offerGuest, hm, full]

theorem State.offerGuest_closed {p : Parcel} (hm : guestEligible s.unit.mode = false) :
    s.offerGuest p = (false, s.bump .droppedByMode) := by
  simp [State.offerGuest, hm]

theorem State.routeGuest_up (h : s.fwd.up = true) : s.routeGuest a payload = (s.offerGuest (guestParcel s a payload)).2 := by
  simp only [State.routeGuest, h, if_true]
  rfl

theorem State.routeGuest_noRoute (h : s.fwd.up = false) (hno : s.fwd.holder = none ∨ s.settings.guestRelay = false) :
    s.routeGuest a payload = s.bump .guestNoRoute := by
  simp only [State.routeGuest, h, Bool.false_eq_true, if_false]
  split
  · next n hr hn =>
    rcases hno with hno | hno
    · rw [hn] at hno
      cases hno
    · rw [hr] at hno
      cases hno
  · rfl

variable {n : Station} (h : s.fwd.up = false) (hn : s.fwd.holder = some n) (hr : s.settings.guestRelay = true)
include h hn hr

theorem State.routeGuest_holder : s.routeGuest a payload =
    let r := s.offer (relayFrame n (guestParcel s a payload) .relayOut)
    if r.1 = .notTaken then r.2.relayLost true (guestParcel s a payload) else r.2 := by
  simp only [State.routeGuest, h, Bool.false_eq_true, if_false, hn, hr]
  rfl

variable (hsend : s.canSend = true)
include hsend

theorem State.routeGuest_relayed (hroom : s.trunk.bulk.length < 32) : s.routeGuest a payload =
    s.withTrunk fun t => { t with bulk := t.bulk ++
      [{ dest := some n, body := .relay (guestParcel s a payload), purpose := .relayOut, attempts := 0 }] } := by
  have queued := State.offer_queued (f := relayFrame n (guestParcel s a payload) .relayOut) hsend hroom
  rw [State.routeGuest_holder h hn hr, queued]
  rfl

theorem State.routeGuest_lost (hfull : 32 ≤ s.trunk.bulk.length) :
    s.routeGuest a payload = (s.bump .notTakenBulk).bump .undeliverable := by
  have refused := State.offer_full (f := relayFrame n (guestParcel s a payload) .relayOut) hsend rfl hfull
  rw [State.routeGuest_holder h hn hr, refused]
  rfl

end Routing

/-! ### Replies to guests (R163) -/

theorem State.guestReply_unknown {p : Parcel} {a : Nat} (hp : p.guest = some a) (h : ∀ x ∈ s.fwd.guests, x.address ≠ a) :
    s.guestReply p = s.bump .unknownGuestReplies := by
  simp only [State.guestReply, hp, findGuest_none h]

section Reply
variable {p : Parcel} {a : Nat} {g : Guest} {before after : List Guest} (hp : p.guest = some a)
  (hs : s.fwd.guests = before ++ g :: after) (hg : g.address = a) (hno : ∀ x ∈ before ++ after, x.address ≠ a)
include hp hs hg hno

theorem State.guestReply_dropped (hn : g.level < p.payload.length) : s.guestReply p = s.bump .budgetDrops := by
  have found : findGuest a s.fwd.guests = some g := hs ▸ findGuest_at hg hno
  simp only [State.guestReply, hp, found, State.bucketTest, Nat.not_le.2 hn, if_false, Bool.false_eq_true]

theorem State.guestReply_given (hn : p.payload.length ≤ g.level) : s.guestReply p =
    (s.withFwd fun w => { w with guests := before ++ g.pass s.settings.allowance p.payload.length :: after }).emit
      (.guestReply a p.payload) := by
  have found : findGuest a s.fwd.guests = some g := hs ▸ findGuest_at hg hno
  simp only [State.guestReply, hp, found, State.bucketTest_passed hs hg hno hn, if_true]

end Reply

/-- A guest's frame where the part serves, in the order of its tests (R158). -/
theorem exec_guestFrameReceived (hl : s.live = true) (hv : s.serving = true) (a : Nat) (dest : GuestDest)
    (payload : List Byte) : exec (.guestFrameReceived a dest payload) s = .next (
      if s.settings.guestService = false then s.reject a .noService
      else if payload.length = 0 ∨ 1500 < payload.length then s.bump .malformedParcels
      else if dest ≠ .uplink then s.bump .isolationDrops else s.guestFrame a payload) := by
  have run : exec (.guestFrameReceived a dest payload) s = execGuestFrameReceived a dest payload s := rfl
  simp only [run, execGuestFrameReceived, hl, hv, Bool.and_self, if_true, Bool.not_eq_true']

end Sys2Proof.Machine

/-! ### The statements -/

open Sys2Proof Sys2Proof.Machine

/-- Settles O37, test by test, with the admission of an unknown guest and the replies to a listed one. -/
theorem guestFramesAreTested : Obligations.GuestFramesAreTested := by
  unfold Obligations.GuestFramesAreTested
  refine ⟨fun s a dest payload hl => ⟨fun hv => ?frame, ?refill⟩, ?reply⟩
  case frame =>
    intro gives rejected trades passes new parcel routes
    have run := exec_guestFrameReceived hl hv a dest payload
    have routed (paid : State) (hrun : gives (paid.routeGuest a payload)) (gs : List Guest)
        (hf : paid.fwd = { s.fwd with guests := gs }) (hunit : paid.unit = s.unit) (hset : paid.settings = s.settings)
        (hpart : paid.part = s.part) (htrunk : paid.trunk = s.trunk) : routes paid := by
      have same : guestParcel paid a payload = parcel := by
        simp only [guestParcel, hset, parcel]
      have open_mode (ht : trades) : guestEligible paid.unit.mode = true := by
        rw [hunit]
        exact (guestEligible_iff _).2 ht
      have up (hup : s.fwd.up = true) : gives (paid.offerGuest parcel).2 := by
        rw [← same, ← State.routeGuest_up (by rw [hf]; exact hup)]
        exact hrun
      refine ⟨fun hup ht hsend hroom => ?_, fun hup ht hfull => ?_, fun hup hno => ?_, fun hup n hn hr hsend => ⟨fun hroom => ?_,
        fun hfull => ?_⟩⟩
      · have queued := State.offerGuest_queued (s := paid) (p := parcel) rfl (open_mode ht) (by rw [hf]; exact hsend)
          (by rw [hf]; exact hroom)
        have done := up hup
        rwa [queued] at done
      · have full := State.offerGuest_full (s := paid) (p := parcel) rfl (open_mode ht) (by rw [hf]; exact hfull)
        have done := up hup
        rwa [full] at done
      · rw [← State.routeGuest_noRoute (s := paid) (a := a) (payload := payload) (by rw [hf]; exact hup)
          (by rw [hf, hset]; exact hno)]
        exact hrun
      · have sends : paid.canSend = true := by rw [State.canSend, hpart]; exact hsend
        have relayed := State.routeGuest_relayed (s := paid) (a := a) (payload := payload) (by rw [hf]; exact hup)
          (by rw [hf]; exact hn) (by rw [hset]; exact hr) sends (by rw [htrunk]; exact hroom)
        rw [same] at relayed
        rw [← relayed]
        exact hrun
      · have sends : paid.canSend = true := by rw [State.canSend, hpart]; exact hsend
        rw [← State.routeGuest_lost (s := paid) (a := a) (payload := payload) (by rw [hf]; exact hup) (by rw [hf]; exact hn)
          (by rw [hset]; exact hr) sends (by rw [htrunk]; exact hfull)]
        exact hrun
    refine ⟨fun hg => ?_, fun hg => ⟨fun hp => ?_, fun hlo hhi => ⟨fun hd => ?_, fun hd hno => ?unknown, ?known⟩⟩⟩
    · exact run.trans (congrArg _ (if_pos hg))
    · have bad : payload.length = 0 ∨ 1500 < payload.length := hp.imp_left fun h => by rw [h]; rfl
      refine run.trans (congrArg _ ?_)
      rw [if_neg (by simp [hg]), if_pos bad]
    · have ok : ¬ (payload.length = 0 ∨ 1500 < payload.length) := by omega
      refine run.trans (congrArg _ ?_)
      rw [if_neg (by simp [hg]), if_neg ok, if_pos hd]
    case unknown =>
      have tested : exec (.guestFrameReceived a dest payload) s = .next (s.guestFrame a payload) := by
        rw [run, if_neg (by simp [hg]), if_neg (by omega), if_neg (by simp [hd])]
      have stranger := findGuest_none hno
      have bytes : payload.length ≤ (Guest.admitted a s.now).level := 
        Nat.le_trans hhi (show 1500 ≤ Config.bucketFull by decide)
      have paid : (Guest.admitted a s.now).pass s.settings.allowance payload.length = passes new := rfl
      refine ⟨fun ht => ?closed, fun ht hroom => ?room, fun ht hfull before g after hs hidle hold => ?evicts,
        fun ht hfull hbusy => ?full⟩
      case closed =>
        have shut : guestEligible s.unit.mode = false := by
          rw [← Bool.not_eq_true, guestEligible_iff]
          exact ht
        exact tested.trans (congrArg _ (State.guestFrame_turned stranger (State.admitGuest_closed shut a) payload))
      case room =>
        let v : State := s.withFwd fun w => { w with guests := w.guests ++ [Guest.admitted a s.now] }
        have admitted : s.admitGuest a = (true, v) := State.admitGuest_room ((guestEligible_iff _).2 ht) hroom
        have passed := State.testGuest_passed (s := v) (a := a) (g := Guest.admitted a s.now) (before := s.fwd.guests)
          (after := []) rfl rfl (by simpa using hno) bytes
        refine routed _ ?_ (s.fwd.guests ++ [passes new]) rfl rfl rfl rfl rfl
        exact tested.trans (congrArg _ ((State.guestFrame_admitted stranger admitted payload).trans passed))
      case evicts =>
        let v : State := (s.bump .evictions).withFwd fun w =>
          { w with guests := before ++ after ++ [Guest.admitted a s.now] }
        have oldest : idleGuest s.now s.fwd.guests = some g := by
          rw [hs]
          exact idleGuest_at hidle fun x hx => (hold x hx).1
        have admitted : s.admitGuest a = (true, v) :=
          State.admitGuest_evicts ((guestEligible_iff _).2 ht) hfull hs oldest fun x hx => (hold x hx).2
        have others : ∀ x ∈ before ++ after, x.address ≠ a := by
          intro x hx
          refine hno x ?_
          rw [hs]
          simp only [List.mem_append, List.mem_cons] at hx ⊢
          tauto
        have passed := State.testGuest_passed (s := v) (a := a) (g := Guest.admitted a s.now) (before := before ++ after)
          (after := []) rfl rfl (by simpa using others) bytes
        refine routed _ ?_ (before ++ after ++ [passes new]) rfl rfl rfl rfl rfl
        exact tested.trans (congrArg _ ((State.guestFrame_admitted stranger admitted payload).trans passed))
      case full =>
        have turned := State.admitGuest_full (a := a) ((guestEligible_iff _).2 ht) hfull (idleGuest_none hbusy)
        exact tested.trans (congrArg _ (State.guestFrame_turned stranger turned payload))
    case known =>
      intro hd before g after hs ha hno seen
      have tested : exec (.guestFrameReceived a dest payload) s = .next (s.testGuest a payload) := by
        have found : findGuest a s.fwd.guests = some g := hs ▸ findGuest_at ha hno
        rw [run, if_neg (by simp [hg]), if_neg (by omega), if_neg (by simp [hd]), State.guestFrame_known found]
      refine ⟨fun hn => ?_, fun hn => ?_⟩
      · exact tested.trans (congrArg _ (State.testGuest_dropped hs ha hno hn))
      · refine routed _ ?_ (before ++ passes g :: after) rfl rfl rfl rfl rfl
        exact tested.trans (congrArg _ (State.testGuest_passed hs ha hno hn))
  case refill =>
    intro rate
    have run : exec .guestRefillTimer s = .next (if s.live then (s.reach s.fwd.timer).withFwd fun w =>
      { w with timer := w.timer + Config.millis 8, guests := w.guests.map (refill s.settings s.unit.mode) } else s) := rfl
    have same : refill s.settings s.unit.mode = fun g => { g with level := min (g.level + rate g) 65536 } := by
      funext g
      have rates : refillRate s.settings s.unit.mode g = rate g := by
        simp only [refillRate, rate]
        cases s.unit.mode <;> simp
      simp only [refill, rates]
      rfl
    rw [run, if_pos hl, same]
    rfl
  case reply =>
    intro s p a hl hv hc hp hg ho hlen reply
    have ok : parcelOk p = true := by simp [parcelOk, hc, hp, hg, hlen]
    have back (h : State) : h.deliverBack p = h.guestReply p := by simp only [State.deliverBack, hp]
    have replies (c : Instr) (h : State) (hset : h.settings = s.settings) (hrun : exec c s = .next (h.guestReply p)) :
        reply c h := by
      refine ⟨fun hno => ?_, ?_⟩
      · rw [hrun, State.guestReply_unknown hg hno]
      · intro before g after hs ha hno today
        refine ⟨fun hn => ?_, fun hn => ?_⟩
        · rw [hrun, State.guestReply_dropped hg hs ha hno hn]
        · rw [hrun, State.guestReply_given hg hs ha hno hn, hset]
          rfl
    refine ⟨fun hd => replies _ s rfl ?_, fun f hh hdest hpart hd => replies _ _ (s.heardFrom_settings _ _) ?_⟩
    · have run : exec (.uplinkParcelReceived p) s = execUplinkParcelReceived p s := rfl
      have own : p.origin = s.self := ho
      simp [run, execUplinkParcelReceived, hl, hv, ok, hd, own, back]
    · have run : exec (.relayReceived f p) s = execRelayReceived f p s := rfl
      have own : p.origin = s.self := ho
      rw [run, execRelayReceived, State.receivePlain, State.receive_station hh hdest]
      simp [hlen, State.takeRelay, ok, hpart, own, back]
end

section
/-! PROOFS. Other stations' parcels. -/

namespace Sys2Proof.Machine

open Sys2Proof

variable {s t u : State}

/-! ### A parcel carried back to its origin (R153, R154) -/

section Back
variable {p : Parcel}

/-- The RELAY frame that carries a parcel back to its origin (R140). -/
def backFrame (p : Parcel) : Frame := { dest := some p.origin, body := .relay p, purpose := .relayBack, attempts := 0 }

/-- A parcel that the relay-back list need not keep is offered at once (R154). -/
theorem State.sendBack_offered (ha : (s.peer p.origin).state = .alive) (hl : s.part ≠ .listenOnly)
    (hw : ¬ (p.cls = .office ∧ (s.relayWaits = true ∨ s.fwd.relayBack ≠ []))) : s.sendBack p =
    if (s.offer (backFrame p)).1 = .notTaken then (s.offer (backFrame p)).2.bump .undeliverable
    else (s.offer (backFrame p)).2 := by
  have reached : (decide ((s.peer p.origin).state ≠ .alive) || s.part == .listenOnly) = false := by simp [ha, hl]
  simp only [State.sendBack, reached, Bool.false_eq_true, if_false, hw]
  rfl

/-- A parcel for an origin that is not ALIVE, or of a part in LISTEN-ONLY (R153). -/
theorem State.sendBack_lost (h : (s.peer p.origin).state ≠ .alive ∨ s.part = .listenOnly) :
    s.sendBack p = s.bump .undeliverable := by
  refine if_pos ?_
  rcases h with h | h <;> simp [h]

theorem State.canSend_listens (h : s.canSend = true) : s.part ≠ .listenOnly := by
  intro e
  simp [State.canSend, e] at h

variable (ha : (s.peer p.origin).state = .alive) (hsend : s.canSend = true)
include ha hsend

/-- A parcel of which the frame finds room in its queue (R154). -/
theorem State.sendBack_queued (hw : ¬ (p.cls = .office ∧ (s.relayWaits = true ∨ s.fwd.relayBack ≠ [])))
    (hr : (s.trunk.queue (backFrame p).body.trunkClass).length < Config.queueCapacity (backFrame p).body.trunkClass) :
    s.sendBack p = s.withTrunk fun t => t.setQueue (backFrame p).body.trunkClass
      (t.queue (backFrame p).body.trunkClass ++ [backFrame p]) := by
  rw [State.sendBack_offered ha (State.canSend_listens hsend) hw, State.offer_queued hsend hr]
  rfl

/-- A parcel of which the frame may not wait finds no room in its queue (R154). -/
theorem State.sendBack_full (hc : p.cls ≠ .office)
    (hr : Config.queueCapacity (backFrame p).body.trunkClass ≤ (s.trunk.queue (backFrame p).body.trunkClass).length) :
    s.sendBack p = (s.bump (notTakenCount (backFrame p).body.trunkClass)).bump .undeliverable := by
  have waits : (backFrame p).body.waits = false := by simpa [backFrame, FrameBody.waits] using hc
  rw [State.sendBack_offered ha (State.canSend_listens hsend) (fun h => hc h.1), State.offer_full hsend waits hr]
  rfl

/-- An OFFICE reply whose frame waits (R124, R154). -/
theorem State.sendBack_waits (hc : p.cls = .office) (hno : s.relayWaits = false) (hb : s.fwd.relayBack = [])
    (hr : 32 ≤ s.trunk.bulk.length) :
    s.sendBack p = (s.withTrunk fun t => { t with holdBulk := t.holdBulk ++ [backFrame p] }).bump .framesWaited := by
  have cls : (backFrame p).body.trunkClass = .bulk := by simp [backFrame, FrameBody.trunkClass, hc]
  have waits : (backFrame p).body.waits = true := by simp [backFrame, FrameBody.waits, hc]
  have free : ∀ g ∈ s.trunk.hold (backFrame p).body.trunkClass, g.sender ≠ (backFrame p).sender := by
    rw [cls]
    simp only [State.relayWaits, Bool.or_eq_false_iff] at hno
    intro g hg
    have sender : (backFrame p).sender = .forwarding := rfl
    rw [sender]
    simpa using List.any_eq_false.1 hno.1 g hg
  have held := State.offer_held hsend waits (by rw [cls]; exact hr) free
  rw [State.sendBack_offered ha (State.canSend_listens hsend) (by simp [hno, hb]), held, cls]
  rfl

/-- An OFFICE reply that waits in the relay-back list (R154). -/
theorem State.sendBack_listed (hc : p.cls = .office) (hw : s.relayWaits = true ∨ s.fwd.relayBack ≠ []) : s.sendBack p =
    if (s.fwd.relayBack.map (·.payload.length)).sum + p.payload.length ≤ 65536 then
      s.withFwd fun w => { w with relayBack := w.relayBack ++ [p] }
    else s.bump .undeliverable := by
  have listens := State.canSend_listens hsend
  have reached : (decide ((s.peer p.origin).state ≠ .alive) || s.part == .listenOnly) = false := by simp [ha, listens]
  simp only [State.sendBack, reached, Bool.false_eq_true, if_false, hc, true_and, hw, if_true]
  rfl

end Back

/-- A frame of the forwarding unit waits for the BULK queue (R124). -/
theorem State.relayWaits_iff (s : State) : s.relayWaits = true ↔ (∃ f ∈ s.trunk.holdBulk, f.sender = .forwarding) ∨
    ∃ f ∈ s.trunk.kept, f.sender = .forwarding ∧ f.body.trunkClass = .bulk := by
  simp [State.relayWaits]

/-! ### A parcel relayed in (R152) -/

/-- A RELAY frame for this part is taken after its sender has been heard (R131, R152). -/
theorem exec_relayReceived {f : FrameHead} {p : Parcel} (h : s.Hears f.src) (hd : f.dest = .station s.settings.station)
    (hlen : p.payload.length ≤ 1500) : exec (.relayReceived f p) s = .next ((s.heardFrom f.src id).takeRelay p) := by
  have taken := s.receive_station h hd (decide (p.payload.length ≤ 1500)) id fun s => s.takeRelay p
  rw [if_pos (by simpa using hlen)] at taken
  exact congrArg _ taken

theorem State.takeRelay_carried {p : Parcel} (hok : parcelOk p = true) (hl : s.part ≠ .listenOnly) (ho : p.origin ≠ s.self) :
    s.takeRelay p = s.carryOut p := by
  simp only [State.takeRelay, hok, Bool.not_true, Bool.false_eq_true, if_false, hl, ho]

/-- A TILL parcel of another station is reported back in a RELAY frame (R152). -/
theorem State.reportTill_peer {p : Parcel} (ho : p.origin ≠ s.self) (x : ParcelStatus) :
    s.reportTill p x = s.sendBack { p with status := x, payload := [] } := by
  simp only [State.reportTill, ho, if_false]
  rfl

/-- A parcel that joins its uplink queue while the transmitter is SENDING (R146, R147). -/
theorem State.joinUplink_busy {p : Parcel} (h : s.fwd.sending ≠ none) :
    s.joinUplink p = s.withFwd fun w => w.setQueue p.cls (w.queue p.cls ++ [p]) := by
  refine State.transmit_busy ?_
  simp only [State.withFwd_fwd]
  cases p.cls <;> exact h

theorem Forwarding.fits_iff (w : Forwarding) (p : Parcel) : w.fits p = true ↔
    ((w.queue p.cls).map (·.payload.length)).sum + p.payload.length ≤ Config.uplinkCapacity p.cls := by
  simp only [Forwarding.fits, bytesOf]
  exact decide_eq_true_iff

end Sys2Proof.Machine

/-! ### The statements -/

open Sys2Proof Sys2Proof.Machine

/-- Settles O35, by the class of the parcel and the room its queue has. -/
theorem parcelsAreCarriedForPeers : Obligations.ParcelsAreCarriedForPeers := by
  unfold Obligations.ParcelsAreCarriedForPeers
  intro s p hlen sized relay back
  have backs (gives : State → Prop) (h : State) (r : Parcel) (hg : gives (h.sendBack r)) : back gives h r := by
    refine ⟨fun hno => ?_, fun ha hsend => ⟨fun hc => ?till, fun hc => ?guest, fun hc => ?office⟩⟩
    · rwa [State.sendBack_lost hno] at hg
    case till =>
      have cls : (backFrame r).body.trunkClass = .urgent := by simp [backFrame, FrameBody.trunkClass, hc]
      refine ⟨fun hr => ?_, fun hr => ?_⟩
      · rwa [State.sendBack_queued ha hsend (by simp [hc]) (by rw [cls]; exact hr), cls] at hg
      · rwa [State.sendBack_full ha hsend (by simp [hc]) (by rw [cls]; exact hr), cls] at hg
    case guest =>
      have cls : (backFrame r).body.trunkClass = .bulk := by simp [backFrame, FrameBody.trunkClass, hc]
      refine ⟨fun hr => ?_, fun hr => ?_⟩
      · rwa [State.sendBack_queued ha hsend (by simp [hc]) (by rw [cls]; exact hr), cls] at hg
      · rwa [State.sendBack_full ha hsend (by simp [hc]) (by rw [cls]; exact hr), cls] at hg
    case office =>
      intro waits
      have cls : (backFrame r).body.trunkClass = .bulk := by simp [backFrame, FrameBody.trunkClass, hc]
      refine ⟨fun hno hb => ⟨fun hr => ?_, fun hr => ?_⟩, fun hw => ?_⟩
      · have free : ¬ (r.cls = .office ∧ (h.relayWaits = true ∨ h.fwd.relayBack ≠ [])) := by
          rintro ⟨-, hw | hw⟩
          · exact hno (h.relayWaits_iff.1 hw)
          · exact hw hb
        rwa [State.sendBack_queued ha hsend free (by rw [cls]; exact hr), cls] at hg
      · have none_waits : h.relayWaits = false := by
          rw [← Bool.not_eq_true, State.relayWaits_iff]
          exact hno
        rwa [State.sendBack_waits ha hsend hc none_waits hb hr] at hg
      · rw [State.sendBack_listed ha hsend hc (hw.imp_left h.relayWaits_iff.2)] at hg
        exact ⟨fun hr => by rwa [if_pos hr] at hg, fun hr => by rwa [if_neg (Nat.not_le.2 hr)] at hg⟩
  refine ⟨fun hl hv => ⟨fun hbad => ?_, fun hok hd ho => ?_⟩, fun f hh hdest => ?_⟩
  · have run : exec (.uplinkParcelReceived p) s = execUplinkParcelReceived p s := rfl
    have bad : (!parcelOk p || p.status != .data) = true := by
      rcases hbad with h | h <;> simp [h]
    simp only [run, execUplinkParcelReceived, hl, hv, Bool.and_self, if_true, bad]
  · refine backs (fun t => exec (.uplinkParcelReceived p) s = .next t) s p ?_
    have run : exec (.uplinkParcelReceived p) s = execUplinkParcelReceived p s := rfl
    have good : (!parcelOk p || p.status != .data) = false := by simp [hok, hd]
    have peer : ¬ p.origin = s.self := ho
    simp only [run, execUplinkParcelReceived, hl, hv, Bool.and_self, if_true, good, Bool.false_eq_true, if_false, peer]
  · intro h gives
    have run : gives (h.takeRelay p) := exec_relayReceived hh hdest hlen
    have settings : h.settings = s.settings := s.heardFrom_settings f.src id
    have unit : h.unit = s.unit := s.heardFrom_unit f.src id
    have part : h.part = s.part := s.heardFrom_part f.src id
    refine ⟨fun hbad => ?_, fun hok hp => ?_, fun hok hp ho => ?_⟩
    · have same : h.takeRelay p = h.bump .malformedParcels := by simp [State.takeRelay, hbad]
      rwa [same] at run
    · have same : h.takeRelay p = h.bump .undeliverable := by simp [State.takeRelay, hok, part, hp]
      rwa [same] at run
    · have peer : p.origin ≠ h.self := by rw [State.self, settings]; exact ho
      rw [State.takeRelay_carried hok (by rw [part]; exact hp) peer] at run
      refine ⟨fun hup => ⟨fun hc => ?_, fun hc => ?_⟩, fun hup hsend => ⟨fun hc => ?till, fun hc => ?office, fun hc hr => ?guest⟩,
        fun hup hc hr => ?_⟩
      · have same : h.carryOut p = h.bump .undeliverable := by
          simp only [State.carryOut, hup, Bool.not_false, if_true]
          cases hcls : p.cls
          case till => exact absurd hcls hc
          all_goals rfl
        rwa [same] at run
      · have same : h.carryOut p = h.reportTill p .noRoute := by
          simp only [State.carryOut, hup, Bool.not_false, if_true, hc]
        rw [same, State.reportTill_peer peer] at run
        exact backs gives h _ run
      case till =>
        refine ⟨fun hr => ?_, fun hr => ?_⟩
        · have fits : h.fwd.fits p = true := by
            rw [Forwarding.fits_iff, hc]
            exact hr
          have same : h.carryOut p = (h.bump .relayedInTill).joinUplink p := by
            simp only [State.carryOut, hup, Bool.not_true, Bool.false_eq_true, if_false, hc, fits, if_true]
          rw [same, State.joinUplink_busy (s := h.bump .relayedInTill) hsend, hc] at run
          exact run
        · have full : ¬ h.fwd.fits p = true := by
            rw [Forwarding.fits_iff, hc]
            exact Nat.not_le.2 hr
          have same : h.carryOut p = h.reportTill p .busy := by
            simp only [State.carryOut, hup, Bool.not_true, Bool.false_eq_true, if_false, hc, full]
          rw [same, State.reportTill_peer peer] at run
          exact backs gives h _ run
      case office =>
        refine ⟨fun hr => ?_, fun hr => ?_⟩
        · have fits : h.fwd.fits p = true := by
            rw [Forwarding.fits_iff, hc]
            exact hr
          have same : h.carryOut p = ((h.bump .relayedInOffice).withFwd Forwarding.countRelayed).joinUplink p := by
            simp only [State.carryOut, hup, Bool.not_true, Bool.false_eq_true, if_false, hc, fits, if_true]
          rw [same, State.joinUplink_busy (s := (h.bump .relayedInOffice).withFwd Forwarding.countRelayed) hsend, hc] at run
          exact run
        · have full : ¬ h.fwd.fits p = true := by
            rw [Forwarding.fits_iff, hc]
            exact Nat.not_le.2 hr
          have same : h.carryOut p = h.bump .undeliverable := by
            simp only [State.carryOut, hup, Bool.not_true, Bool.false_eq_true, if_false, hc, full]
          rwa [same] at run
      case guest =>
        intro admits
        have same : h.carryOut p = if (h.offerGuest p).1 then (h.offerGuest p).2.bump .relayedInGuest
            else (h.offerGuest p).2 := by
          simp only [State.carryOut, hup, Bool.not_true, Bool.false_eq_true, if_false, hc, settings, hr]
        rw [same] at run
        have mode : guestEligible h.unit.mode = true ↔ admits := by
          rw [unit]
          exact guestEligible_iff _
        refine ⟨fun ht => ?_, fun ht hroom => ?_, fun ht hfull => ?_⟩
        · rw [State.offerGuest_closed (by rw [← Bool.not_eq_true, mode]; exact ht)] at run
          exact run
        · rw [State.offerGuest_queued hc (mode.2 ht) hsend hroom] at run
          exact run
        · rw [State.offerGuest_full hc (mode.2 ht) hfull] at run
          exact run
      · have same : h.carryOut p = h.bump .guestRelayRefused := by
          simp only [State.carryOut, hup, Bool.not_true, Bool.false_eq_true, if_false, hc, settings, hr, Bool.not_false, if_true]
        rwa [same] at run
end

section
/-! PROOFS. The uplink: its carrier, its loss, its transmitter and its choices. -/

namespace Sys2Proof.Machine

open Sys2Proof

variable {s t u v : State}

/-! ### Counts raised several at a time -/

theorem State.count_bumpBy (s : State) (c : Count) (n : Nat) :
    (s.bumpBy c n).count c = if n = 0 then s.count c else raise (s.count c) n := by
  unfold State.bumpBy
  split
  · rfl
  · simp [State.count, AMap.get_put]

/-- What is raised of a count depends on the count alone. -/
theorem State.count_bumpBy_congr {c : Count} (h : t.count c = s.count c) (n : Nat) :
    (t.bumpBy c n).count c = (s.bumpBy c n).count c := by
  rw [State.count_bumpBy, State.count_bumpBy, h]

theorem State.count_bumpBy_add (s : State) (c : Count) (m n : Nat) :
    ((s.bumpBy c m).bumpBy c n).count c = (s.bumpBy c (m + n)).count c := by rw [State.bumpBy_bumpBy]

/-! ### The events of a lost uplink at the session (R149, R182) -/

/-- The counts that the end of an attempt raises. -/
def endCounts : List Count :=
  [.clearings, .attemptsFailed, .attemptsCompleted, .alertsRecorded, .ackedAlertsRemoved, .alertOverflow]

theorem State.sessionEvent_raises (s : State) (r : FailReason) : Raises endCounts s (s.sessionEvent r) := by
  have cleared : Raises endCounts (s.withLink Link.attemptOver) (s.withLink Link.attemptOver).clearSent := by
    unfold State.clearSent
    dsimp only
    split
    · exact (Raises.of_keeps (State.withJournal_keeps _ _) (by decide) _).trans (.bump _ (by decide))
    · exact .of_keeps (State.withJournal_keeps _ _) (by decide) _
  have stopped : Raises endCounts s s.stopAttempt :=
    ((((Raises.of_keeps (s.withLink_keeps _) (by decide) _).trans cleared).trans
      (.of_keeps (State.removeSessionParcels_keeps _) (by decide) _)).trans
        (.of_keeps (State.discardCollecting_keeps _) (by decide) _)).trans (.bump _ (by decide))
  have rested : Raises endCounts s.stopAttempt (s.stopAttempt.restOrDone r) := by
    unfold State.restOrDone State.sessionFailed
    dsimp only
    split
    · exact .of_keeps (fs := [.link]) (by simp) (by decide) _
    · exact (Raises.of_keeps (fs := [.link]) (by simp) (by decide) _).trans (.recordAlert _ _ _ _ _ (by decide))
  have ended : Raises endCounts s s.removeSessionParcels.attemptDone :=
    ((Raises.of_keeps s.removeSessionParcels_keeps (by decide) _).trans
      (.of_keeps (State.withLink_keeps _ _) (by decide) _)).trans (.bump _ (by decide))
  unfold State.sessionEvent
  split
  · exact stopped.trans rested
  · exact stopped.trans rested
  · exact stopped.trans rested
  · exact ended
  all_goals exact .refl _ _

/-- After an event of R182 no attempt is in progress. -/
theorem State.sessionEvent_over (s : State) (r : FailReason) : (s.sessionEvent r).link.state.inProgress = false := by
  have failed : (s.failAttempt r).link.state.inProgress = false := by
    have rested (v : State) : (v.restOrDone r).link.state.inProgress = false := by
      unfold State.restOrDone State.sessionFailed
      dsimp only
      split
      · rfl
      · have kept (w : State) (k : AlertKind) (x : Severity) (y : Subject) (d : Detail) :
            (w.recordAlert k x y d).link = w.link := (w.recordAlert_keeps k x y d) .link (by decide)
        rw [kept]
        rfl
    exact rested s.stopAttempt
  unfold State.sessionEvent
  split
  · exact failed
  · exact failed
  · exact failed
  · rfl
  all_goals
    rename_i h
    rw [h]
    rfl

/-! ### What stands in the uplink (R146, R148) -/

/-- No queue of the uplink, and nothing the transmitter holds, has changed. -/
def State.SameUplink (s t : State) : Prop :=
  ∃ table back, t.fwd = { s.fwd with pendingTable := table, relayBack := back }

theorem State.SameUplink.refl (s : State) : s.SameUplink s := ⟨_, _, rfl⟩

theorem State.SameUplink.trans (h : s.SameUplink t) (k : t.SameUplink u) : s.SameUplink u := by
  obtain ⟨a, b, h⟩ := h
  obtain ⟨c, d, k⟩ := k
  exact ⟨c, d, by rw [k, h]⟩

theorem State.SameUplink.of_keeps {fs : List Field} (hk : keeps fs s t) (hf : Field.fwd ∉ fs) : s.SameUplink t :=
  ⟨s.fwd.pendingTable, s.fwd.relayBack, hk .fwd hf⟩

theorem State.pendingOutcome_uplink (s : State) (l : LaneNo) (n : Nat) (r : LaneReply) :
    s.SameUplink (s.pendingOutcome l n r) := by
  have told (w : State) : w.SameUplink (w.authOutcome l n r) := .of_keeps (w.authOutcome_keeps l n r) (by decide)
  have dropped : s.SameUplink (s.dropPending l) := ⟨_, s.fwd.relayBack, rfl⟩
  unfold State.pendingOutcome
  split
  · exact .of_keeps (s.outcomeWithoutEntry_keeps l) (by decide)
  · split
    · split
      · exact dropped.trans (told _)
      · exact told s
    · exact .of_keeps (s.outcomeWithoutEntry_keeps l) (by decide)

theorem State.sendBack_uplink (s : State) (p : Parcel) : s.SameUplink (s.sendBack p) := by
  have offered (f : Frame) : s.SameUplink (s.offer f).2 := .of_keeps (s.offer_keeps f) (by decide)
  unfold State.sendBack
  split
  · exact .of_keeps (s.bump_keeps _) (by decide)
  · split
    · split
      · exact ⟨s.fwd.pendingTable, _, rfl⟩
      · exact .of_keeps (s.bump_keeps _) (by decide)
    · dsimp only
      split
      · exact (offered _).trans (.of_keeps (State.bump_keeps _ _) (by decide))
      · exact offered _

theorem State.reportTill_uplink (s : State) (p : Parcel) (x : ParcelStatus) : s.SameUplink (s.reportTill p x) := by
  unfold State.reportTill
  split
  · split
    · exact s.pendingOutcome_uplink _ _ _
    · exact .refl s
    · exact .refl s
  · exact s.sendBack_uplink _

/-- The counts that a TILL parcel reported back may raise. -/
def reportCounts : List Count := [.undeliverable, .repliesNoEntry, .notTakenUrgent, .notTakenNotice, .notTakenBulk, .framesWaited]

theorem State.pendingOutcome_raises (s : State) (l : LaneNo) (n : Nat) (r : LaneReply) :
    Raises [.repliesNoEntry] s (s.pendingOutcome l n r) := by
  have late : Raises [.repliesNoEntry] s (s.outcomeWithoutEntry l) :=
    (Raises.bump s (by decide)).trans (.of_keeps (State.lateReply_keeps _ l) (by decide) _)
  unfold State.pendingOutcome
  split
  · exact late
  · split
    · refine Raises.trans ?_ (.of_keeps (State.authOutcome_keeps _ l n r) (by decide) _)
      split
      · exact .of_keeps (s.dropPending_keeps l) (by decide) _
      · exact .refl _ s
    · exact late

theorem State.sendBack_raises (s : State) (p : Parcel) : Raises reportCounts s (s.sendBack p) := by
  have offered (f : Frame) : Raises reportCounts s (s.offer f).2 := (Raises.offer s f).mono (by decide)
  unfold State.sendBack
  split
  · exact .bump s (by decide)
  · split
    · split
      · exact .of_keeps (s.withFwd_keeps _) (by decide) _
      · exact .bump s (by decide)
    · dsimp only
      split
      · exact (offered _).trans (.bump _ (by decide))
      · exact offered _

theorem State.reportTill_raises (s : State) (p : Parcel) (x : ParcelStatus) : Raises reportCounts s (s.reportTill p x) := by
  unfold State.reportTill
  split
  · split
    · exact (s.pendingOutcome_raises _ _ _).mono (by decide)
    · exact .refl _ s
    · exact .refl _ s
  · exact s.sendBack_raises _

/-- One TILL parcel is lost with the uplink (R148). -/
def State.lost (s : State) (p : Parcel) : State := (s.bump .lostAtUplinkLoss).reportTill p .noRoute

theorem State.loseTill_cons (s : State) (p : Parcel) (ps : List Parcel) :
    s.loseTill (p :: ps) = (s.lost p).loseTill ps := rfl

theorem State.lost_uplink (s : State) (p : Parcel) : s.SameUplink (s.lost p) :=
  (State.SameUplink.of_keeps (s.bump_keeps _) (by decide)).trans (State.reportTill_uplink _ p _)

theorem State.loseTill_uplink (s : State) (ps : List Parcel) : s.SameUplink (s.loseTill ps) := by
  induction ps generalizing s with
  | nil => exact .refl s
  | cons p ps ih => exact (s.lost_uplink p).trans (ih _)

/-- Every TILL parcel lost is counted (R148). -/
theorem State.loseTill_lost (s : State) (ps : List Parcel) :
    (s.loseTill ps).count .lostAtUplinkLoss = (s.bumpBy .lostAtUplinkLoss ps.length).count .lostAtUplinkLoss := by
  induction ps generalizing s with
  | nil => rfl
  | cons p ps ih =>
    have one : (s.lost p).count .lostAtUplinkLoss = (s.bumpBy .lostAtUplinkLoss 1).count .lostAtUplinkLoss :=
      State.reportTill_raises _ p _ .lostAtUplinkLoss (by decide)
    rw [State.loseTill_cons, ih, State.count_bumpBy_congr one, State.count_bumpBy_add, List.length_cons, Nat.add_comm]

/-! ### The lanes whose AUTH had not been sent (R148, R155) -/

/-- What is known of a lane's AUTH stands, and no output is taken back. -/
structure State.SameAuth (l : LaneNo) (s t : State) : Prop where
  table : AMap.get t.fwd.pendingTable l.val = AMap.get s.fwd.pendingTable l.val
  flight : (t.lane l).flight = (s.lane l).flight
  last : (t.lane l).last = (s.lane l).last
  out : ∀ o ∈ s.out, o ∈ t.out

theorem State.SameAuth.refl (l : LaneNo) (s : State) : State.SameAuth l s s := ⟨rfl, rfl, rfl, fun _ h => h⟩

theorem State.SameAuth.trans {l : LaneNo} (h : State.SameAuth l s t) (k : State.SameAuth l t u) : State.SameAuth l s u :=
  ⟨k.table.trans h.table, k.flight.trans h.flight, k.last.trans h.last, fun o ho => k.out o (h.out o ho)⟩

theorem State.SameAuth.of_keeps {l : LaneNo} {fs : List Field} (hk : keeps fs s t)
    (hf : ∀ f ∈ [Field.fwd, .lanes, .out], f ∉ fs) : State.SameAuth l s t := by
  have fwd : t.fwd = s.fwd := hk .fwd (hf _ (by decide))
  have lanes : t.lanes = s.lanes := hk .lanes (hf _ (by decide))
  have out : t.out = s.out := hk .out (hf _ (by decide))
  exact ⟨by rw [fwd], by simp only [State.lane, lanes], by simp only [State.lane, lanes], fun o ho => out ▸ ho⟩

theorem State.lateReply_auth (s : State) (l m : LaneNo) : State.SameAuth l s (s.lateReply m) := by
  rcases Classical.em (l = m) with rfl | h
  · refine ⟨rfl, ?_, ?_, fun _ h => h⟩ <;> simp [State.lateReply]
  · refine ⟨rfl, ?_, ?_, fun _ h => h⟩ <;> simp only [State.lateReply, State.lane_withLane_ne s h]

theorem State.outcomeWithoutEntry_auth (s : State) (l m : LaneNo) : State.SameAuth l s (s.outcomeWithoutEntry m) :=
  (State.SameAuth.of_keeps (s.bump_keeps _) (by decide)).trans (State.lateReply_auth _ l m)

/-- The outcome of another lane's AUTH (R155). -/
theorem State.pendingOutcome_other {l m : LaneNo} (h : l ≠ m) (s : State) (n : Nat) (r : LaneReply) :
    State.SameAuth l s (s.pendingOutcome m n r) := by
  have told (w : State) : State.SameAuth l w (w.authOutcome m n r) := by
    have ended (f : AuthFlight) : State.SameAuth l w (w.endAuth m f r) := by
      refine ⟨rfl, ?_, ?_, fun o ho => List.mem_append_left _ ho⟩ <;>
        simp only [State.endAuth, State.lane_emit, State.lane_withLane_ne w h]
    unfold State.authOutcome
    split
    · exact w.lateReply_auth l m
    · split
      · exact ended _
      · exact w.lateReply_auth l m
  have dropped : State.SameAuth l s (s.dropPending m) := by
    refine ⟨?_, rfl, rfl, fun _ h => h⟩
    exact (AMap.get_del _ _ _).trans (if_neg fun e => h (Fin.ext e))
  unfold State.pendingOutcome
  split
  · exact s.outcomeWithoutEntry_auth l m
  · split
    · split
      · exact dropped.trans (told _)
      · exact told s
    · exact s.outcomeWithoutEntry_auth l m

theorem State.sendBack_auth (l : LaneNo) (s : State) (p : Parcel) : State.SameAuth l s (s.sendBack p) := by
  have offered (f : Frame) : State.SameAuth l s (s.offer f).2 := .of_keeps (s.offer_keeps f) (by decide)
  have counted (w : State) (c : Count) : State.SameAuth l w (w.bump c) := .of_keeps (w.bump_keeps c) (by decide)
  unfold State.sendBack
  split
  · exact counted s _
  · split
    · split
      · exact ⟨rfl, rfl, rfl, fun _ h => h⟩
      · exact counted s _
    · dsimp only
      split
      · exact (offered _).trans (counted _ _)
      · exact offered _

/-- A parcel is that of the AUTH of count `n` of a lane (R143). -/
def authOf (self : Station) (l : LaneNo) (n : Nat) (p : Parcel) : Prop := p.origin = self ∧ p.port = .lane l ∧ p.tag = n

/-- A lost parcel that is not that of the lane's AUTH leaves the AUTH as it stands (R148). -/
theorem State.lost_other {l : LaneNo} {p : Parcel}
    (h : ∀ e, AMap.get s.fwd.pendingTable l.val = some e → ¬ authOf s.self l e.count p) : State.SameAuth l s (s.lost p) := by
  refine (State.SameAuth.of_keeps (s.bump_keeps .lostAtUplinkLoss) (by decide)).trans ?_
  have table : ∀ e, AMap.get (s.bump .lostAtUplinkLoss).fwd.pendingTable l.val = some e →
      ¬ authOf (s.bump .lostAtUplinkLoss).self l e.count p := h
  unfold State.lost
  generalize s.bump .lostAtUplinkLoss = v at table
  unfold State.reportTill
  split
  · next ho =>
    split
    · next m hm =>
      rcases Classical.em (l = m) with rfl | hne
      · rw [State.pendingOutcome_noEntry]
        · exact v.outcomeWithoutEntry_auth l l
        · exact fun e he hc => table e he ⟨ho, hm, hc.symm⟩
      · exact State.pendingOutcome_other hne v _ _
    · exact .refl l v
    · exact .refl l v
  · exact v.sendBack_auth l _

/-- The AUTH of a lane has been answered NO-ROUTE (R148). -/
def State.AnsweredNoRoute (l : LaneNo) (a : AuthFlight) (t : State) : Prop :=
  (t.lane l).flight = none ∧ (t.lane l).last = some (a.bit, .auth, .noRoute) ∧ .laneReply l a.bit .noRoute ∈ t.out

theorem State.AnsweredNoRoute.stays {l : LaneNo} {a : AuthFlight} (h : State.AnsweredNoRoute l a s)
    (k : State.SameAuth l s t) : State.AnsweredNoRoute l a t := by
  obtain ⟨flight, last, out⟩ := h
  exact ⟨k.flight.trans flight, k.last.trans last, k.out _ out⟩

/-- The lost parcel of a lane's AUTH ends it (R148, R155). -/
theorem State.lost_auth {l : LaneNo} {p : Parcel} {e : PendingAuth} (he : AMap.get s.fwd.pendingTable l.val = some e)
    (hp : authOf s.self l e.count p) : AMap.get (s.lost p).fwd.pendingTable l.val = none ∧
      ∀ a, (s.lane l).flight = some a → a.count = e.count → State.AnsweredNoRoute l a (s.lost p) := by
  obtain ⟨ho, hport, htag⟩ := hp
  let v : State := s.bump .lostAtUplinkLoss
  have own : p.origin = v.self := ho
  have ended : s.lost p = (v.dropPending l).authOutcome l p.tag .noRoute := by
    have entry : AMap.get v.fwd.pendingTable l.val = some e := he
    have outcome := State.pendingOutcome_entry entry htag.symm (.noRoute : LaneReply)
    have reported : s.lost p = v.reportTill p .noRoute := rfl
    rw [reported, State.reportTill, if_pos own, hport]
    exact outcome
  have table : AMap.get (s.lost p).fwd.pendingTable l.val = none := by
    rw [ended, (State.authOutcome_keeps _ l p.tag .noRoute) .fwd (by decide)]
    exact (AMap.get_del _ _ _).trans (if_pos rfl)
  refine ⟨table, fun a ha hc => ?_⟩
  have flight : ((v.dropPending l).lane l).flight = some a := ha
  rw [ended, State.authOutcome_flight flight (hc.trans htag.symm) rfl, State.AnsweredNoRoute, State.endAuth]
  refine ⟨?_, ?_, ?_⟩
  · rw [State.lane_emit, State.lane_withLane]
  · rw [State.lane_emit, State.lane_withLane]
  · exact List.mem_append_right _ (List.mem_singleton_self _)

theorem State.lost_self (s : State) (p : Parcel) : (s.lost p).self = s.self := by
  have kept : keeps [.lanes, .out, .fwd, .counts, .trunk] s (s.lost p) :=
    ((s.bump_keeps .lostAtUplinkLoss).mono (by decide)).trans (State.reportTill_keeps _ p .noRoute)
  exact congrArg Settings.station (kept .settings (by decide))

/-- Lost parcels leave a lane with no AUTH pending as it stands (R148). -/
theorem State.loseTill_none {l : LaneNo} (h : AMap.get s.fwd.pendingTable l.val = none) (ps : List Parcel) :
    State.SameAuth l s (s.loseTill ps) := by
  induction ps generalizing s with
  | nil => exact .refl l s
  | cons p ps ih =>
    have other : State.SameAuth l s (s.lost p) := State.lost_other fun e he => by rw [h] at he; cases he
    exact other.trans (ih (other.table.trans h))

/-- A lane of which the AUTH's parcel is lost is answered NO-ROUTE (R148, R155). -/
theorem State.loseTill_auth {l : LaneNo} {e : PendingAuth} (he : AMap.get s.fwd.pendingTable l.val = some e)
    {ps : List Parcel} (hp : ∃ p ∈ ps, authOf s.self l e.count p) :
    AMap.get (s.loseTill ps).fwd.pendingTable l.val = none ∧
      ∀ a, (s.lane l).flight = some a → a.count = e.count → State.AnsweredNoRoute l a (s.loseTill ps) := by
  induction ps generalizing s with
  | nil =>
    obtain ⟨p, hm, -⟩ := hp
    cases hm
  | cons q ps ih =>
    rcases Classical.em (authOf s.self l e.count q) with hq | hq
    · obtain ⟨table, answered⟩ := State.lost_auth he hq
      have rest := State.loseTill_none table ps
      exact ⟨rest.table.trans table, fun a ha hc => (answered a ha hc).stays rest⟩
    · have other : State.SameAuth l s (s.lost q) := State.lost_other fun e' he' => by
        rw [he] at he'
        cases he'
        exact hq
      obtain ⟨p, hm, hauth⟩ := hp
      have later : ∃ p ∈ ps, authOf (s.lost q).self l e.count p := by
        rw [State.lost_self]
        rcases List.mem_cons.1 hm with rfl | hm
        · exact absurd hauth hq
        · exact ⟨p, hm, hauth⟩
      obtain ⟨table, answered⟩ := ih (other.table.trans he) later
      exact ⟨table, fun a ha hc => answered a (other.flight.trans ha) hc⟩

/-! ### The stations whose TILL parcels are lost (R148) -/

/-- The NO-ROUTE report of a lost parcel, as the RELAY frame that carries it (R148). -/
def noRouteFrame (p : Parcel) : Frame :=
  { dest := some p.origin, body := .relay { p with status := .noRoute, payload := [] }, purpose := .relayBack, attempts := 0 }

/-- A lost parcel of another station's, and what it leaves of the URGENT queue and of the count of undeliverable ones
(R148). -/
theorem State.lost_peer {p : Parcel} (ho : p.origin ≠ s.self) (hc : p.cls = .till) (hsend : s.canSend = true)
    (hr : (s.peer p.origin).state = .alive → s.trunk.urgent.length < 8) :
    (s.lost p).trunk.peers = s.trunk.peers ∧
      (s.lost p).trunk.urgent = s.trunk.urgent ++ (if (s.peer p.origin).state = .alive then [noRouteFrame p] else []) ∧
      (s.lost p).count .undeliverable =
        (s.bumpBy .undeliverable (if (s.peer p.origin).state = .alive then 0 else 1)).count .undeliverable := by
  let v : State := s.bump .lostAtUplinkLoss
  have back : s.lost p = v.sendBack { p with status := .noRoute, payload := [] } := State.reportTill_peer (s := v) ho _
  have counted : v.count .undeliverable = s.count .undeliverable := s.count_bump_ne (by decide)
  rw [back]
  by_cases ha : (s.peer p.origin).state = .alive
  · have queued := State.sendBack_queued (s := v) (p := { p with status := .noRoute, payload := [] }) ha hsend
      (by simp [hc]) (by
        have cls : (backFrame { p with status := .noRoute, payload := [] }).body.trunkClass = .urgent := by
          simp [backFrame, FrameBody.trunkClass, hc]
        rw [cls]
        exact hr ha)
    have cls : (backFrame { p with status := .noRoute, payload := [] }).body.trunkClass = .urgent := by
      simp [backFrame, FrameBody.trunkClass, hc]
    rw [queued, cls, if_pos ha, if_pos ha]
    exact ⟨rfl, rfl, counted⟩
  · have lost := State.sendBack_lost (s := v) (p := { p with status := .noRoute, payload := [] }) (.inl ha)
    rw [lost, if_neg ha, if_neg ha, List.append_nil]
    exact ⟨rfl, rfl, State.count_bumpBy_congr counted 1⟩

/-- A lost parcel of this station's own leaves the trunk and the count of undeliverable ones (R148). -/
theorem State.lost_own {p : Parcel} (ho : p.origin = s.self) :
    (s.lost p).trunk = s.trunk ∧ (s.lost p).count .undeliverable = s.count .undeliverable := by
  let v : State := s.bump .lostAtUplinkLoss
  have own : p.origin = v.self := ho
  have reported : s.lost p = v.reportTill p .noRoute := rfl
  have counted : v.count .undeliverable = s.count .undeliverable := s.count_bump_ne (by decide)
  rw [reported, State.reportTill, if_pos own]
  split
  · exact ⟨(State.pendingOutcome_keeps v _ _ _) .trunk (by decide),
      (State.pendingOutcome_raises v _ _ _ _ (by decide)).trans counted⟩
  · exact ⟨rfl, counted⟩
  · exact ⟨rfl, counted⟩

theorem State.lost_canSend (s : State) (p : Parcel) : (s.lost p).canSend = s.canSend := by
  have kept : keeps [.lanes, .out, .fwd, .counts, .trunk] s (s.lost p) :=
    ((s.bump_keeps .lostAtUplinkLoss).mono (by decide)).trans (State.reportTill_keeps _ p .noRoute)
  exact State.canSend_of_keeps kept (by decide)

/-- The reports of the lost parcels of other stations (R148). -/
theorem State.loseTill_peers (hsend : s.canSend = true) {ps : List Parcel} :
    let peers := ps.filter fun p => p.origin ≠ s.self
    let reached := peers.filter fun p => (s.peer p.origin).state = .alive
    (∀ p ∈ peers, p.cls = .till) → s.trunk.urgent.length + reached.length ≤ 8 →
      (s.loseTill ps).trunk.urgent = s.trunk.urgent ++ reached.map noRouteFrame ∧
      (s.loseTill ps).count .undeliverable =
        (s.bumpBy .undeliverable (peers.length - reached.length)).count .undeliverable := by
  induction ps generalizing s with
  | nil =>
    intro peers reached _ _
    exact ⟨(List.append_nil _).symm, rfl⟩
  | cons p ps ih =>
    intro peers reached hc hroom
    have sends := (s.lost_canSend p).trans hsend
    have own := s.lost_self p
    rw [State.loseTill_cons]
    by_cases ho : p.origin = s.self
    · obtain ⟨trunk, count⟩ := State.lost_own (s := s) ho
      have peer (n : Station) : (s.lost p).peer n = s.peer n := by simp only [State.peer, trunk]
      have skip : peers = ps.filter fun p => p.origin ≠ s.self := List.filter_cons_of_neg (by simp [ho])
      have rest := ih sends
      simp only [own, peer, trunk] at rest
      simp only [reached, skip] at hc hroom ⊢
      obtain ⟨urgent, undelivered⟩ := rest hc hroom
      exact ⟨urgent, undelivered.trans (State.count_bumpBy_congr count _)⟩
    · have here : peers = p :: ps.filter fun p => p.origin ≠ s.self := List.filter_cons_of_pos (by simp [ho])
      have till : p.cls = .till := hc p (by rw [here]; exact List.mem_cons_self ..)
      have others : ∀ q ∈ ps.filter (fun p => p.origin ≠ s.self), q.cls = .till := fun q hq =>
        hc q (by rw [here]; exact List.mem_cons_of_mem _ hq)
      have fewer := List.length_filter_le (fun q => decide ((s.peer q.origin).state = .alive))
        (ps.filter fun p => p.origin ≠ s.self)
      have rest := ih sends
      by_cases ha : (s.peer p.origin).state = .alive
      · have there : reached = p :: (ps.filter fun p => p.origin ≠ s.self).filter fun p => (s.peer p.origin).state = .alive := by
          simp only [reached, here]
          exact List.filter_cons_of_pos (by simp [ha])
        rw [there] at hroom ⊢
        rw [here]
        simp only [List.length_cons] at hroom ⊢
        obtain ⟨table, urgent, count⟩ := State.lost_peer ho till hsend fun _ => by omega
        rw [if_pos ha] at urgent count
        have peer (n : Station) : (s.lost p).peer n = s.peer n := by simp only [State.peer, table]
        simp only [own, peer, urgent, List.length_append, List.length_singleton] at rest
        obtain ⟨urgent', undelivered⟩ := rest others (by omega)
        refine ⟨urgent'.trans (by simp), ?_⟩
        rw [undelivered, State.count_bumpBy_congr count, State.count_bumpBy_add, Nat.zero_add, Nat.add_sub_add_right]
      · have there : reached = (ps.filter fun p => p.origin ≠ s.self).filter fun p => (s.peer p.origin).state = .alive := by
          simp only [reached, here]
          exact List.filter_cons_of_neg (by simp [ha])
        rw [there] at hroom ⊢
        rw [here]
        obtain ⟨table, urgent, count⟩ := State.lost_peer ho till hsend fun e => absurd e ha
        rw [if_neg ha, List.append_nil] at urgent
        rw [if_neg ha] at count
        have peer (n : Station) : (s.lost p).peer n = s.peer n := by simp only [State.peer, table]
        simp only [own, peer, urgent] at rest
        obtain ⟨urgent', undelivered⟩ := rest others hroom
        refine ⟨urgent', ?_⟩
        rw [undelivered, State.count_bumpBy_congr count, State.count_bumpBy_add, List.length_cons]
        congr 2
        omega

/-! ### The uplink goes DOWN (R145, R148) -/

/-- The TILL parcels bound for the uplink, the one being sent first (R148; log 80). -/
def State.tills (s : State) : List Parcel := ((s.fwd.sending.map (·.1)).toList.filter fun p => p.cls = .till) ++ s.fwd.till

/-- Nothing is bound for the uplink any more (R148). -/
structure State.Unlinked (t : State) : Prop where
  up : t.fwd.up = false
  till : t.fwd.till = []
  office : t.fwd.office = []
  guest : t.fwd.guest = []
  sending : t.fwd.sending = none
  officeTally : t.fwd.officeTally = 0
  guestTally : t.fwd.guestTally = 0
  held : t.fwd.heldParcel = none

/-- The parcels bound for the uplink that are no TILL parcels (R148). -/
def State.notTills (s : State) : List Parcel :=
  ((s.fwd.sending.map (·.1)).toList.filter fun p => p.cls ≠ .till) ++ s.fwd.guest ++ s.fwd.office

/-- The forwarding unit with nothing bound for the uplink (R148). -/
def State.unlinked (s : State) : State := s.withFwd fun w =>
  { w with up := false, till := [], office := [], guest := [], sending := none, officeTally := 0, guestTally := 0,
           heldParcel := none }

theorem State.uplinkLost_eq (s : State) :
    s.uplinkLost = (s.unlinked.bumpBy .lostAtUplinkLoss s.notTills.length).loseTill s.tills := by
  have till (p : Parcel) : (p.cls == .till) = decide (p.cls = .till) := rfl
  have other (p : Parcel) : (p.cls != .till) = decide (p.cls ≠ .till) := by
    cases p.cls <;> rfl
  unfold State.uplinkLost State.notTills State.tills
  simp only [till, other]
  cases s.fwd.sending with
  | none => rfl
  | some x => rfl

theorem State.tills_length (s : State) : s.notTills.length + s.tills.length =
    (s.fwd.sending.map (·.1)).toList.length + s.fwd.till.length + s.fwd.office.length + s.fwd.guest.length := by
  have split := (s.fwd.sending.map (·.1)).toList.length_eq_length_filter_add fun p : Parcel => decide (p.cls = .till)
  have other : (fun p : Parcel => decide (p.cls ≠ .till)) = fun p => !decide (p.cls = .till) := by
    funext p
    cases p.cls <;> rfl
  simp only [State.notTills, State.tills, List.length_append, other]
  omega

theorem State.sessionEvent_fwd (s : State) (r : FailReason) :
    (s.sessionEvent r).fwd = s.fwd ∨ (s.sessionEvent r).fwd = s.removeSessionParcels.fwd := by
  have cleared : keeps [.journal, .counts] (s.withLink Link.attemptOver) (s.withLink Link.attemptOver).clearSent :=
    State.clearSent_keeps _
  have stopped : s.stopAttempt.fwd = s.removeSessionParcels.fwd := by
    have same : (s.withLink Link.attemptOver).clearSent.fwd = s.fwd := cleared .fwd (by decide)
    have self : (s.withLink Link.attemptOver).clearSent.self = s.self :=
      congrArg Settings.station (cleared .settings (by decide))
    have discarded : s.stopAttempt.fwd = (s.withLink Link.attemptOver).clearSent.removeSessionParcels.fwd := by
      have kept := (s.withLink Link.attemptOver).clearSent.removeSessionParcels.discardCollecting_keeps
      exact kept .fwd (by decide)
    rw [discarded, State.removeSessionParcels, State.removeSessionParcels, self]
    simp only [State.withFwd_fwd, same]
  have failed : (s.failAttempt r).fwd = s.removeSessionParcels.fwd :=
    ((s.stopAttempt.restOrDone_keeps r) .fwd (by decide)).trans stopped
  unfold State.sessionEvent
  split
  · exact .inr failed
  · exact .inr failed
  · exact .inr failed
  · exact .inr (State.attemptDone_keeps _ .fwd (by decide))
  all_goals exact .inl rfl

theorem State.Unlinked.sessionEvent (h : s.Unlinked) (r : FailReason) : (s.sessionEvent r).Unlinked := by
  obtain ⟨up, till, office, guest, sending, officeTally, guestTally, held⟩ := h
  rcases s.sessionEvent_fwd r with e | e
  · constructor <;> rw [e] <;> assumption
  · have removed : s.removeSessionParcels.fwd = { s.fwd with
        office := s.fwd.office.filter fun p => !(p.origin == s.self && p.port == .session), heldParcel := none } := rfl
    rw [removed, office] at e
    constructor <;> rw [e] <;> first | assumption | rfl

/-- With no attempt in progress, of the forwarding unit the holder alone is judged (R150). -/
theorem State.judgeHolder_fwd (h : s.link.state.inProgress = false) :
    ∃ x, s.judgeHolder.fwd = { s.fwd with holder := x } := by
  have idle (v : State) (hv : v.link = s.link) : v.sessionEvent .pathLost = v :=
    State.sessionEvent_idle (by rw [hv]; exact h) _
  unfold State.judgeHolder
  dsimp only
  split
  · exact ⟨s.fwd.holder, rfl⟩
  · split
    · exact ⟨_, rfl⟩
    · split
      · rw [idle ((s.withFwd _).bump .holderChanges) rfl]
        exact ⟨_, rfl⟩
      · exact ⟨_, rfl⟩

theorem State.Unlinked.judgeHolder (h : s.Unlinked) (hi : s.link.state.inProgress = false) : s.judgeHolder.Unlinked := by
  obtain ⟨up, till, office, guest, sending, officeTally, guestTally, held⟩ := h
  obtain ⟨x, e⟩ := State.judgeHolder_fwd hi
  constructor <;> rw [e] <;> assumption

/-- What follows the loss of the uplink at the session and the holder's judgement leaves of the rest (R149, R150). -/
theorem State.lossTold (v : State) : let t := (v.sessionEvent .pathLost).judgeHolder
    (v.Unlinked → t.Unlinked) ∧ t.link.state.inProgress = false ∧ t.fwd.pendingTable = v.fwd.pendingTable ∧
      t.lanes = v.lanes ∧ t.out = v.out ∧ t.trunk = v.trunk ∧ t.carrier = v.carrier ∧
      ∀ c, c ∉ .holderChanges :: endCounts → t.count c = v.count c := by
  intro t
  have ended := v.sessionEvent_over .pathLost
  have told := v.sessionEvent_keeps .pathLost
  obtain ⟨judged, raised⟩ := State.judgeHolder_idle ended
  obtain ⟨x, fwd⟩ := State.judgeHolder_fwd ended
  refine ⟨fun h => (h.sessionEvent _).judgeHolder ended, ?_, ?_, ?_, ?_, ?_, ?_, fun c hc => ?_⟩
  · rw [show t.link = (v.sessionEvent .pathLost).link from judged .link (by decide)]
    exact ended
  · rw [fwd]
    rcases v.sessionEvent_fwd .pathLost with e | e
    · simp only [e]
    · simp only [e, State.removeSessionParcels, State.withFwd_fwd]
  · exact (judged .lanes (by decide)).trans (told .lanes (by decide))
  · exact (judged .out (by decide)).trans (told .out (by decide))
  · exact (judged .trunk (by decide)).trans (told .trunk (by decide))
  · exact (judged .carrier (by decide)).trans (told .carrier (by decide))
  · obtain ⟨hne, hno⟩ : c ≠ .holderChanges ∧ c ∉ endCounts := by simpa using hc
    exact (raised c (by simpa using hne)).trans (v.sessionEvent_raises .pathLost c hno)

/-! ### The uplink comes UP (R145) -/

/-- The holder that is judged becomes the holder, and the uplink state stands (R150). -/
theorem State.judgeHolder_spec (s : State) :
    s.judgeHolder.fwd.holder = s.judgedHolder ∧ s.judgeHolder.fwd.up = s.fwd.up := by
  have told (v : State) : (v.sessionEvent .pathLost).fwd.holder = v.fwd.holder ∧
      (v.sessionEvent .pathLost).fwd.up = v.fwd.up := by
    rcases v.sessionEvent_fwd .pathLost with e | e <;> rw [e] <;> exact ⟨rfl, rfl⟩
  unfold State.judgeHolder
  dsimp only
  split
  · next h => exact ⟨h.symm, rfl⟩
  · split
    · exact ⟨rfl, rfl⟩
    · split
      · exact told ((s.withFwd _).bump .holderChanges)
      · exact ⟨rfl, rfl⟩

theorem State.transmit_holder (s : State) : s.transmit.fwd.holder = s.fwd.holder := by
  unfold State.transmit
  split
  · split
    · rfl
    · next p w hw =>
      have kept := Forwarding.choose_holder hw
      exact kept
  · rfl

/-- On the uplink's coming UP there is no holder (R145, R150). -/
theorem State.uplinkUp_spec (s : State) : s.uplinkUp.fwd.up = true ∧ s.uplinkUp.fwd.holder = none := by
  let v : State := s.withFwd fun w => { w with up := true }
  have judged : v.judgedHolder = none := by simp [v, State.judgedHolder]
  obtain ⟨holder, up⟩ := v.judgeHolder_spec
  exact ⟨(State.transmit_up _).trans up, (State.transmit_holder _).trans (holder.trans judged)⟩

/-- A change of the carrier where the profile has an uplink (R145). -/
theorem exec_uplinkCarrierChange (hl : s.live = true) (hv : s.serving = true) (hp : s.settings.uplinkPresent = true)
    {present : Bool} (hne : present ≠ s.fwd.up) : exec (.uplinkCarrierChange present) s = .next (
      if present then ({ s with carrier := present } : State).uplinkUp else ({ s with carrier := present } : State).uplinkDown) := by
  have run : exec (.uplinkCarrierChange present) s = execUplinkCarrierChange present s := rfl
  simp [run, execUplinkCarrierChange, hl, hv, hp, hne]

/-! ### The transmitter (R147) -/

/-- OFFICE and GUEST wait both (R147). -/
theorem Forwarding.choose_both {w : Forwarding} {m : Mode} {po pg : Parcel} {qo qg : List Parcel}
    (ho : officeEligible m = true) (hg : guestEligible m = true) (ht : w.till = []) (hpo : w.office = po :: qo)
    (hpg : w.guest = pg :: qg) : w.choose m =
      if w.officeTally * (shares m).2 ≤ w.guestTally * (shares m).1 then
        some (po, { w with office := qo, officeTally := w.officeTally + po.payload.length })
      else some (pg, { w with guest := qg, guestTally := w.guestTally + pg.payload.length }) := by
  cases w
  subst ht hpo hpg
  simp only [Forwarding.choose, ho, hg, if_true]

theorem State.transmit_idle (h : s.fwd.up = false ∨ s.fwd.choose s.unit.mode = none) : s.transmit = s := by
  unfold State.transmit
  split
  · next hup =>
    rcases h with h | h
    · rw [h] at hup
      cases hup
    · rw [h]
  · rfl

theorem State.transmit_chooses {p : Parcel} {w : Forwarding} (hup : s.fwd.up = true) (hs : s.fwd.sending = none)
    (hc : s.fwd.choose s.unit.mode = some (p, w)) : s.transmit =
      { s with fwd := { w with sending := some (p, s.now + p.payload.length * 8000 / s.settings.uplinkRate) } } := by
  simp only [State.transmit, hup, hs, Option.isNone_none, Bool.and_self, if_true, hc]
  rfl

/-- A sending has ended: the parcel is on the uplink and counted (R147). -/
def State.sentOut (s : State) (p : Parcel) (due : Nat) : State :=
  (((s.reach due).withFwd fun w => { w with sending := none }).emit (.uplink p)).bump (uplinkCount p.cls)

theorem exec_uplinkSendEnd {p : Parcel} {due : Nat} (hl : s.live = true) (hv : s.serving = true)
    (hs : s.fwd.sending = some (p, due)) :
    exec .uplinkSendEnd s = .next ((s.sentOut p due).recordSent p).transmit.serveHeld := by
  have run : exec .uplinkSendEnd s = execUplinkSendEnd s := rfl
  simp only [run, execUplinkSendEnd, hs, hl, hv, Bool.and_self, if_true]
  rfl

/-- A parcel that is not of this station's lanes needs no record (R147). -/
theorem State.recordSent_not {p : Parcel} (h : p.cls = .till → p.origin ≠ s.self) : s.recordSent p = s :=
  if_neg fun ⟨hc, ho⟩ => h hc ho

theorem State.recordSent_auth {p : Parcel} {l : LaneNo} {e : PendingAuth} (hc : p.cls = .till) (ho : p.origin = s.self)
    (hp : p.port = .lane l) (he : AMap.get s.fwd.pendingTable l.val = some e) (hn : e.count = p.tag) :
    s.recordSent p = s.addPending l p.tag (.local true) := by
  simp only [State.recordSent, hc, ho, and_self, if_true, hp, he, hn]

theorem State.serveHeld_none (h : s.fwd.heldParcel = none) : s.serveHeld = s := by
  simp only [State.serveHeld, h]

theorem State.transmit_held (s : State) : s.transmit.fwd.heldParcel = s.fwd.heldParcel ∧
    s.transmit.fwd.pendingTable = s.fwd.pendingTable := by
  unfold State.transmit
  split
  · split
    · exact ⟨rfl, rfl⟩
    · next p w hw =>
      unfold Forwarding.choose at hw
      repeat' split at hw
      all_goals cases hw
      all_goals exact ⟨rfl, rfl⟩
  · exact ⟨rfl, rfl⟩

/-! ### A held session parcel (R156) -/

/-- The OFFICE queue has grown at its end alone, and the transmitter goes on SENDING (R146). -/
def State.Grows (s t : State) : Prop :=
  t.fwd.up = s.fwd.up ∧ t.fwd.sending = s.fwd.sending ∧ ∃ more, t.fwd.office = s.fwd.office ++ more

theorem State.Grows.refl (s : State) : s.Grows s := ⟨rfl, rfl, [], (List.append_nil _).symm⟩

theorem State.Grows.trans (h : s.Grows t) (k : t.Grows u) : s.Grows u := by
  obtain ⟨up, sending, more, office⟩ := h
  obtain ⟨up', sending', more', office'⟩ := k
  exact ⟨up'.trans up, sending'.trans sending, more ++ more', by rw [office', office, List.append_assoc]⟩

theorem State.Grows.of_keeps {fs : List Field} (hk : keeps fs s t) (hf : Field.fwd ∉ fs) : s.Grows t := by
  have fwd : t.fwd = s.fwd := hk .fwd hf
  exact ⟨by rw [fwd], by rw [fwd], [], by rw [fwd, List.append_nil]⟩

/-- A session parcel handed over on a live uplink of which the transmitter is SENDING (R156). -/
theorem State.handSession_grows (hup : s.fwd.up = true) (hs : s.fwd.sending ≠ none) (p : List Byte) :
    s.Grows (s.handSession p).2 ∧ (s.handSession p).1 ≠ .noRoute := by
  let q := sessionParcel s.self s.link.attemptTag p
  let v : State := s.withFwd fun w => { w with sessionPath := some .local }
  have handed : s.handSession p = if s.fwd.fits q then (.queued, v.joinUplink q)
      else (.waiting, v.withFwd fun w => { w with heldParcel := some ⟨q, 0⟩ }) := by
    simp only [State.handSession, hup, if_true]
    rfl
  rw [handed]
  split
  · have joined : v.joinUplink q = v.withFwd fun w => w.setQueue q.cls (w.queue q.cls ++ [q]) := State.joinUplink_busy hs
    rw [joined]
    exact ⟨⟨rfl, rfl, [q], rfl⟩, by simp⟩
  · exact ⟨⟨rfl, rfl, [], (List.append_nil _).symm⟩, by simp⟩

/-- The session that goes on handing over its messages on a live uplink (R156, R172). -/
theorem pump_grows (n : Nat) (hup : s.fwd.up = true) (hs : s.fwd.sending ≠ none) : s.Grows (pump n s) := by
  induction n generalizing s with
  | zero => exact .refl s
  | succ n ih =>
    have next {v : State} (hv : s.Grows v) : s.Grows (pump n v) := by
      have ⟨up, sending, _⟩ := hv
      exact hv.trans (ih (up.trans hup) (by rw [sending]; exact hs))
    have asked : s.Grows (s.takeBatch (s.link.cut.getD 0)).2 := .of_keeps (s.takeBatch_keeps _) (by decide)
    rw [pump]
    split
    · exact .refl s
    · split
      · next m ms hm =>
        obtain ⟨grown, routed⟩ := State.handSession_grows hup hs (messageBytes m)
        dsimp only
        split
        · exact next (grown.trans (.of_keeps (State.onQueued_keeps _ m) (by decide)))
        · exact grown.trans (.of_keeps (State.withLink_keeps _ _) (by decide))
        · next h => exact absurd h routed
      · split
        · dsimp only
          split
          · exact asked
          · split
            · exact next (asked.trans (.of_keeps (State.downloadDecision_keeps _) (by decide)))
            · exact asked
          · exact next (asked.trans (.of_keeps (State.joinBatch_keeps _ _) (by decide)))
        · exact .refl s

theorem State.toldQueued_grows (hup : s.fwd.up = true) (hs : s.fwd.sending ≠ none) : s.Grows s.toldQueued := by
  unfold State.toldQueued
  split
  · split
    · next m ms hm =>
      have queued : s.Grows (s.onQueued m) := .of_keeps (s.onQueued_keeps m) (by decide)
      have ⟨up, sending, _⟩ := queued
      exact queued.trans (pump_grows _ (up.trans hup) (by rw [sending]; exact hs))
    · exact .refl s
  · exact .refl s

end Sys2Proof.Machine

/-! ### The statements -/

open Sys2Proof Sys2Proof.Machine

/-- Settles O36, by the loss of the parcels bound for the uplink, one after another, and by the transmitter's choice. -/
theorem uplinkCarriesByItsShares : Obligations.UplinkCarriesByItsShares := by
  unfold Obligations.UplinkCarriesByItsShares
  refine ⟨fun s hl hv => ⟨?same, ?comes, ?goes, ?sent, ?recorded, ?held⟩, ?choice⟩
  case same =>
    intro present h
    have run : exec (.uplinkCarrierChange present) s = execUplinkCarrierChange present s := rfl
    have still : (s.live && s.serving && s.settings.uplinkPresent && present != s.fwd.up) = false := by
      rcases h with h | h <;> simp [h]
    simp only [run, execUplinkCarrierChange, still, Bool.false_eq_true, if_false]
  case comes =>
    intro hp hup
    have run := exec_uplinkCarrierChange hl hv hp (present := true) (by simp [hup])
    obtain ⟨up, holder⟩ := ({ s with carrier := true } : State).uplinkUp_spec
    exact ⟨_, run, State.uplinkUp_keeps _ .carrier (by decide), up, holder⟩
  case goes =>
    intro hp hup
    have run := exec_uplinkCarrierChange hl hv hp (present := false) (by simp [hup])
    let v : State := { s with carrier := false }
    let w : State := v.unlinked.bumpBy .lostAtUplinkLoss v.notTills.length
    have lost : v.uplinkLost = w.loseTill v.tills := v.uplinkLost_eq
    obtain ⟨table, back, fwd⟩ := w.loseTill_uplink v.tills
    have cut : w.Unlinked := by
      have start : w.fwd = v.unlinked.fwd := State.bumpBy_keeps _ _ _ .fwd (by decide)
      constructor <;> rw [start] <;> rfl
    have unlinked : v.uplinkLost.Unlinked := by
      rw [lost]
      obtain ⟨up, till, office, guest, sending, officeTally, guestTally, held⟩ := cut
      constructor <;> rw [fwd] <;> assumption
    obtain ⟨gone, ended, table', lanes, out, trunk, carrier, counts⟩ := v.uplinkLost.lossTold
    obtain ⟨up, till, office, guest, sending, officeTally, guestTally, held⟩ := gone unlinked
    have kept : keeps [.counts] v.unlinked w := State.bumpBy_keeps _ _ _
    have wfwd : w.fwd = v.unlinked.fwd := kept .fwd (by decide)
    have wtrunk : w.trunk = s.trunk := kept .trunk (by decide)
    have wlanes : w.lanes = s.lanes := kept .lanes (by decide)
    have wpart : w.part = s.part := kept .part (by decide)
    have wself : w.self = s.settings.station := congrArg Settings.station (kept .settings (by decide))
    refine ⟨v.uplinkDown, run, carrier.trans (State.uplinkLost_keeps v .carrier (by decide)), up, till, office, guest, sending,
      officeTally, guestTally, held, ended, ?_⟩
    intro air tills peers reached
    have peersOf (hsend : s.canSend = true) := State.loseTill_peers (s := w) (ps := v.tills) (by
      rw [State.canSend, wpart]
      exact hsend)
    simp only [wself, State.peer, wtrunk] at peersOf
    refine ⟨?count, ?lanes, fun hsend hc hroom => ?urgent, fun hsend hc hroom => ?undeliverable⟩
    case count =>
      have total := v.tills_length
      have counted : w.count .lostAtUplinkLoss = (s.bumpBy .lostAtUplinkLoss v.notTills.length).count .lostAtUplinkLoss :=
        State.count_bumpBy_congr (s := s) (t := v.unlinked) rfl _
      rw [State.uplinkDown, counts _ (by decide), lost, State.loseTill_lost, State.count_bumpBy_congr counted,
        State.count_bumpBy_add, total]
    case lanes =>
      intro p hp l e ho hport _ he hn
      have pending : AMap.get w.fwd.pendingTable l.val = some e := by
        rw [wfwd]
        exact he
      obtain ⟨none_left, answered⟩ := State.loseTill_auth pending (ps := v.tills)
        ⟨p, hp, by rw [wself]; exact ho, hport, hn.symm⟩
      refine ⟨?_, fun a ha hna => ?_⟩
      · rw [State.uplinkDown, table', lost]
        exact none_left
      · have flight : (w.lane l).flight = some a := by
          rw [State.lane, wlanes]
          exact ha
        obtain ⟨hf, hlast, hout⟩ := answered a flight (hna.trans hn.symm)
        rw [← lost] at hf hlast hout
        refine ⟨?_, ?_, ?_⟩
        · rw [State.uplinkDown, State.lane, lanes]
          exact hf
        · rw [State.uplinkDown, State.lane, lanes]
          exact hlast
        · rw [State.uplinkDown, out]
          exact hout
    case urgent =>
      rw [State.uplinkDown, trunk, lost]
      exact ((peersOf hsend) hc hroom).1
    case undeliverable =>
      have counted : w.count .undeliverable = s.count .undeliverable := by
        exact Raises.bumpBy v.unlinked (List.mem_singleton_self Count.lostAtUplinkLoss) _ .undeliverable (by decide)
      rw [State.uplinkDown, counts _ (by decide), lost, ((peersOf hsend) hc hroom).2]
      exact State.count_bumpBy_congr counted _
  case sent =>
    intro p due hs hpeer hheld sent ended
    have run := exec_uplinkSendEnd hl hv hs
    have count : uplinkCount p.cls = sent := by
      simp only [sent]
      cases p.cls <;> rfl
    have out : s.sentOut p due = ended { s.fwd with sending := none } := by
      simp only [State.sentOut, count, ended]
      rfl
    rw [State.recordSent_not (s := s.sentOut p due) hpeer, out] at run
    refine ⟨fun ht ho hg => run.trans (congrArg _ ?_), fun q till hup ht => run.trans (congrArg _ ?_)⟩
    · have none_left : ({ s.fwd with sending := none } : Forwarding).choose s.unit.mode = none := by
        simp [Forwarding.choose, ht, ho, hg]
      rw [State.transmit_idle (s := ended { s.fwd with sending := none }) (.inr none_left)]
      exact State.serveHeld_none hheld
    · have chosen : ({ s.fwd with sending := none } : Forwarding).choose s.unit.mode =
          some (q, { s.fwd with sending := none, till := till }) := by
        simp [Forwarding.choose, ht]
      rw [State.transmit_chooses (s := ended { s.fwd with sending := none }) hup rfl chosen]
      exact State.serveHeld_none hheld
  case recorded =>
    intro p due l e hs hc ho hport he hn hheld
    have run := exec_uplinkSendEnd hl hv hs
    rw [State.recordSent_auth (s := s.sentOut p due) hc ho hport he hn] at run
    obtain ⟨stays, table⟩ := State.transmit_held ((s.sentOut p due).addPending l p.tag (.local true))
    rw [State.serveHeld_none (stays.trans hheld)] at run
    refine ⟨_, run, table, ?_⟩
    have counts : ((s.sentOut p due).addPending l p.tag (.local true)).transmit.counts = (s.sentOut p due).counts :=
      State.transmit_keeps _ .counts (by decide)
    have same : uplinkCount p.cls = .uplinkTill := by rw [hc]; rfl
    simp only [State.count, counts]
    rw [State.sentOut, same]
    exact State.count_bump _ _ _
  case held =>
    intro p due x older newer hs hc hheld hup hm ht hg ho hrel hcls q rest hold hroom
    have run := exec_uplinkSendEnd hl hv hs
    rw [State.recordSent_not (s := s.sentOut p due) fun e => absurd e hc] at run
    let v : State := s.sentOut p due
    have eligible : officeEligible s.unit.mode = true := by
      cases hmode : s.unit.mode
      case distress => exact absurd hmode hm
      all_goals rfl
    have queue : s.fwd.office = q :: (rest ++ newer) := by rw [ho, hold]; rfl
    have chosen : v.fwd.choose s.unit.mode = some (q, { v.fwd with
        office := rest ++ newer, officeTally := q.payload.length, guestTally := 0 }) := by
      have office : v.fwd.office = q :: (rest ++ newer) := queue
      have till : v.fwd.till = [] := ht
      have guest : v.fwd.guest = [] := hg
      simp only [Forwarding.choose, till, office, guest, eligible, if_true, ite_self]
    have sending := State.transmit_chooses (s := v) hup rfl chosen
    let w : State := { v with fwd := { v.fwd with
      office := rest ++ newer, officeTally := q.payload.length, guestTally := 0
      sending := some (q, v.now + q.payload.length * 8000 / v.settings.uplinkRate) } }
    have after : v.transmit = w := sending
    have fits : w.fwd.fits x.parcel = true := by
      rw [Forwarding.fits_iff, hcls]
      exact hroom
    have admitted : w.fwd.admitHeld x = { w.fwd with office := rest ++ x.parcel :: newer, heldParcel := none } := by
      have ahead : (rest ++ newer).length - x.relayedSince = rest.length := by
        rw [List.length_append, hrel]
        omega
      have office : w.fwd.office = rest ++ newer := rfl
      simp only [Forwarding.admitHeld, office, ahead, List.take_left, List.drop_left]
    let y : State := { w with fwd := { w.fwd with office := rest ++ x.parcel :: newer, heldParcel := none } }
    have served : w.serveHeld = y.toldQueued := by
      have held : w.fwd.heldParcel = some x := hheld
      have up : w.fwd.up = true := hup
      have calm : ¬ w.unit.mode = .distress := hm
      have open_mode : (w.unit.mode != .distress) = true := by simpa using calm
      have busy : y.transmit = y := State.transmit_busy (by simp [y, w])
      have put : (w.withFwd fun f => f.admitHeld x) = y := by
        simp only [State.withFwd, admitted]
        rfl
      simp only [State.serveHeld, held, up, fits, open_mode, Bool.and_self, if_true, put, busy]
    obtain ⟨-, sent, more, office⟩ := State.toldQueued_grows (s := y) hup (by simp [y, w])
    rw [after, served] at run
    exact ⟨_, more, run, office, sent⟩
  case choice =>
    intro w
    refine ⟨fun m p q hq => by simp only [Forwarding.choose, hq], fun ht => ⟨?_, fun p q hp => ?_, ?_⟩⟩
    · simp [Forwarding.choose, ht, officeEligible, guestEligible]
    · simp [Forwarding.choose, ht, officeEligible, guestEligible, hp]
    · intro po qo pg qg hpo hpg office guest
      have both (m : Mode) (ho : officeEligible m = true) (hg : guestEligible m = true) : w.choose m =
          if w.officeTally * (shares m).2 ≤ w.guestTally * (shares m).1 then some (po, office) else some (pg, guest) :=
        Forwarding.choose_both ho hg ht hpo hpg
      refine ⟨fun h => ?_, fun h => ?_, fun h => ?_, fun h => ?_⟩
      · exact (both .open rfl rfl).trans (if_pos h)
      · exact (both .open rfl rfl).trans (if_neg (Nat.not_le.2 h))
      · exact (both .late rfl rfl).trans (if_pos (Nat.mul_le_mul_right 50 h))
      · exact (both .late rfl rfl).trans (if_neg (Nat.not_le.2 (Nat.mul_lt_mul_of_pos_right h (by decide))))
end

section
/-! PROOFS. What follows the end of an attempt: the freed place, the block's outcome, and the frames that waited. -/

namespace Sys2Proof.Machine

open Sys2Proof

variable {s t u v : State}

/-! ### The relay-back list (R154) -/

/-- The relay-back list stands. -/
def State.SameBack (s t : State) : Prop := t.fwd.relayBack = s.fwd.relayBack

theorem State.SameBack.refl (s : State) : s.SameBack s := rfl

theorem State.SameBack.trans (h : s.SameBack t) (k : t.SameBack u) : s.SameBack u := Eq.trans k h

theorem State.SameBack.of_keeps {fs : List Field} (hk : keeps fs s t) (hf : Field.fwd ∉ fs) : s.SameBack t :=
  congrArg Forwarding.relayBack (hk .fwd hf)

theorem State.transmit_back (s : State) : s.SameBack s.transmit := by
  unfold State.transmit
  split
  · split
    · exact .refl s
    · next p w hw =>
      have same : w.relayBack = s.fwd.relayBack := by
        unfold Forwarding.choose at hw
        repeat' split at hw
        all_goals cases hw
        all_goals rfl
      exact same
  · exact .refl s

theorem State.pendingOutcome_back (s : State) (l : LaneNo) (n : Nat) (r : LaneReply) :
    s.SameBack (s.pendingOutcome l n r) := by
  have told (w : State) : w.SameBack (w.authOutcome l n r) := .of_keeps (w.authOutcome_keeps l n r) (by decide)
  have dropped : s.SameBack (s.dropPending l) := rfl
  unfold State.pendingOutcome
  split
  · exact .of_keeps (s.outcomeWithoutEntry_keeps l) (by decide)
  · split
    · split
      · exact dropped.trans (told _)
      · exact told s
    · exact .of_keeps (s.outcomeWithoutEntry_keeps l) (by decide)

theorem State.relayLost_back (s : State) (out : Bool) (p : Parcel) : s.SameBack (s.relayLost out p) := by
  unfold State.relayLost
  split
  · split
    · split
      · exact .refl s
      · split
        · exact s.pendingOutcome_back _ _ _
        · exact .refl s
    · exact .refl s
    · exact .refl s
  · exact .of_keeps (s.bump_keeps _) (by decide)

theorem State.handSession_back (s : State) (p : List Byte) : s.SameBack (s.handSession p).2 := by
  have joined (v : State) (q : Parcel) : v.SameBack (v.joinUplink q) := by
    have set : (v.fwd.setQueue q.cls (v.fwd.queue q.cls ++ [q])).relayBack = v.fwd.relayBack := by cases q.cls <;> rfl
    exact State.SameBack.trans (t := v.withFwd fun w => w.setQueue q.cls (w.queue q.cls ++ [q])) set (State.transmit_back _)
  have offered (v : State) (f : Frame) : v.SameBack (v.offer f).2 := .of_keeps (v.offer_keeps f) (by decide)
  unfold State.handSession
  dsimp only
  split
  · split
    · exact State.SameBack.trans (t := s.withFwd fun w => { w with sessionPath := some .local }) rfl (joined _ _)
    · rfl
  · split
    · exact .refl s
    · next h _ =>
      have sent (f : Frame) : s.SameBack ((s.withFwd fun w => { w with sessionPath := some (.holder h) }).offer f).2 :=
        State.SameBack.trans (t := s.withFwd fun w => { w with sessionPath := some (.holder h) }) rfl (offered _ f)
      split
      · exact sent _
      · exact sent _
      · exact (sent _).trans (State.relayLost_back _ _ _)

theorem State.sessionEvent_back (s : State) (r : FailReason) : s.SameBack (s.sessionEvent r) := by
  rcases s.sessionEvent_fwd r with e | e
  · exact congrArg Forwarding.relayBack e
  · exact (congrArg Forwarding.relayBack e).trans rfl

/-- The session leaves the relay-back list as it hands over its messages (R156). -/
theorem pump_back (n : Nat) (s : State) : s.SameBack (pump n s) := by
  induction n generalizing s with
  | zero => exact .refl s
  | succ n ih =>
    have asked : s.SameBack (s.takeBatch (s.link.cut.getD 0)).2 := .of_keeps (s.takeBatch_keeps _) (by decide)
    rw [pump]
    split
    · exact .refl s
    · split
      · next m ms hm =>
        have handed := s.handSession_back (messageBytes m)
        dsimp only
        split
        · exact (handed.trans (.of_keeps (State.onQueued_keeps _ m) (by decide))).trans (ih _)
        · exact handed.trans (.of_keeps (State.withLink_keeps _ _) (by decide))
        · exact handed.trans (State.sessionEvent_back _ _)
      · split
        · dsimp only
          split
          · exact asked
          · split
            · exact (asked.trans (.of_keeps (State.downloadDecision_keeps _) (by decide))).trans (ih _)
            · exact asked
          · exact (asked.trans (.of_keeps (State.joinBatch_keeps _ _) (by decide))).trans (ih _)
        · exact .refl s

theorem State.toldQueued_back (s : State) : s.SameBack s.toldQueued := by
  unfold State.toldQueued
  split
  · split
    · exact (State.SameBack.of_keeps (s.onQueued_keeps _) (by decide)).trans (pump_back _ _)
    · exact .refl s
  · exact .refl s

/-- An empty relay-back list leaves nothing to hand over (R154). -/
theorem drainRelayBack_nil (h : s.fwd.relayBack = []) : drainRelayBack s.fwd.relayBack s = s := by
  have same : (s.withFwd fun w => { w with relayBack := [] }) = s := by
    simp only [State.withFwd, ← h]
  rw [h, drainRelayBack, same]

/-- The relay-back list waits behind a frame of the forwarding unit that waits (R154). -/
theorem drainRelayBack_waits (h : s.relayWaits = true) : drainRelayBack s.fwd.relayBack s = s := by
  have same (q : List Parcel) (hq : s.fwd.relayBack = q) : (s.withFwd fun w => { w with relayBack := q }) = s := by
    simp only [State.withFwd, ← hq]
  cases hq : s.fwd.relayBack with
  | nil => rw [drainRelayBack, same [] hq]
  | cons p q => rw [drainRelayBack, if_pos h, same (p :: q) hq]

/-- The first OFFICE reply of the relay-back list goes to the hold line of a full BULK queue, and the rest waits
(R124, R154). -/
theorem drainRelayBack_held {p : Parcel} {q : List Parcel} (hno : s.relayWaits = false)
    (ha : (s.peer p.origin).state = .alive) (hsend : s.canSend = true) (hc : p.cls = .office)
    (hr : 32 ≤ s.trunk.bulk.length) : drainRelayBack (p :: q) s =
      ((s.withTrunk fun t => { t with holdBulk := t.holdBulk ++ [backFrame p] }).bump .framesWaited).withFwd fun w =>
        { w with relayBack := q } := by
  have cls : (backFrame p).body.trunkClass = .bulk := by simp [backFrame, FrameBody.trunkClass, hc]
  have waits : (backFrame p).body.waits = true := by simp [backFrame, FrameBody.waits, hc]
  have free : ∀ g ∈ s.trunk.hold (backFrame p).body.trunkClass, g.sender ≠ (backFrame p).sender := by
    rw [cls]
    simp only [State.relayWaits, Bool.or_eq_false_iff] at hno
    intro g hg
    have sender : (backFrame p).sender = .forwarding := rfl
    rw [sender]
    simpa using List.any_eq_false.1 hno.1 g hg
  have held := State.offer_held hsend waits (by rw [cls]; exact hr) free
  rw [cls] at held
  let w : State := (s.withTrunk fun t => t.setHold .bulk (t.hold .bulk ++ [backFrame p])).bump .framesWaited
  have behind : w.relayWaits = true := by
    rw [State.relayWaits_iff]
    exact .inl ⟨backFrame p, List.mem_append_right _ (List.mem_singleton_self _), rfl⟩
  have first : drainRelayBack (p :: q) s = drainRelayBack q w := by
    have frame : relayFrame p.origin p .relayBack = backFrame p := rfl
    rw [drainRelayBack]
    simp only [hno, Bool.false_eq_true, if_false, ha, ne_eq, not_true_eq_false, frame, held]
    rfl
  rw [first]
  cases q with
  | nil => rfl
  | cons r q => rw [drainRelayBack, if_pos behind]; rfl

/-! ### A place that is freed (R123, R124, R129) -/

/-- Queue `c` with the oldest held frame at its end, and the frames kept (R124). -/
def Trunk.admitted (t : Trunk) (c : TrunkClass) (rest : List Frame) (g : Frame) (held kept : List Frame) : Trunk :=
  { (t.setQueue c (rest ++ [g])).setHold c held with inAir := none, kept := kept }

theorem Trunk.popAdmit_none {t : Trunk} {c : TrunkClass} {f : Frame} {rest : List Frame} (hq : t.queue c = f :: rest)
    (hh : t.hold c = []) : t.popAdmit c = (none, { t.setQueue c rest with inAir := none }) := by
  cases c
  case urgent => simp_all [Trunk.popAdmit, Trunk.queue, Trunk.setQueue, Trunk.hold]
  case notice => simp_all [Trunk.popAdmit, Trunk.queue, Trunk.setQueue, Trunk.hold]
  case bulk => simp_all [Trunk.popAdmit, Trunk.queue, Trunk.setQueue, Trunk.hold]

theorem Trunk.popAdmit_held {t : Trunk} {c : TrunkClass} {f g : Frame} {rest held : List Frame} (hq : t.queue c = f :: rest)
    (hh : t.hold c = g :: held) : t.popAdmit c = (some g, t.admitted c rest g held t.kept) := by
  cases c
  case urgent => cases hh
  case notice => simp_all [Trunk.popAdmit, Trunk.queue, Trunk.setQueue, Trunk.hold, Trunk.setHold, Trunk.admitted]
  case bulk => simp_all [Trunk.popAdmit, Trunk.queue, Trunk.setQueue, Trunk.hold, Trunk.setHold, Trunk.admitted]

/-- What a held frame's block does on being told QUEUED, with no frame kept (R124). -/
theorem State.afterQueued_noKept (h : s.trunk.kept = []) (c : TrunkClass) (g : Frame) : s.afterQueued c g =
    if g.sender = .forwarding ∧ c = .bulk then drainRelayBack (s.notifyQueued g).fwd.relayBack (s.notifyQueued g)
    else s.notifyQueued g := by
  simp only [State.afterQueued, h, List.length_nil, serveKept, List.foldl_cons, List.foldl_nil]

/-- What a held frame's block does on being told QUEUED, where the first frame it kept waits (R124). -/
theorem State.afterQueued_kept {c : TrunkClass} {g k : Frame} {others : List Frame} (hk : s.trunk.kept = k :: others)
    (hs : k.sender = g.sender) (hc : k.body.trunkClass = c) (hw : k.body.waits = true) (hsend : s.canSend = true)
    (hno : ∀ x ∈ s.trunk.hold c, x.sender ≠ g.sender) (hfull : Config.queueCapacity c ≤ (s.trunk.queue c).length) :
    let w := ((s.withTrunk fun t => { t with kept := others }).withTrunk fun t =>
      t.setHold c (t.hold c ++ [k])).bump .framesWaited
    s.afterQueued c g = if g.sender = .forwarding ∧ c = .bulk then
      drainRelayBack (w.notifyQueued g).fwd.relayBack (w.notifyQueued g) else w.notifyQueued g := by
  intro w
  let v : State := s.withTrunk fun t => { t with kept := others }
  have free : ((s.trunk.hold c).any fun x => x.sender == g.sender) = false := by simpa using hno
  have mine : s.trunk.keptBy g.sender c = k :: others.filter fun f => f.sender == g.sender && f.body.trunkClass == c := by
    rw [Trunk.keptBy, hk]
    exact List.filter_cons_of_pos (by simp [hs, hc])
  have erased : (s.withTrunk fun t => { t with kept := t.kept.erase k }) = v := by
    simp only [State.withTrunk, hk, List.erase_cons_head, v]
  have hold : v.trunk.hold c = s.trunk.hold c := by cases c <;> rfl
  have queue : v.trunk.queue c = s.trunk.queue c := by cases c <;> rfl
  have offered : v.offer k = (.waiting, w) := by
    have held := State.offer_held (s := v) (f := k) hsend hw (by rw [hc, queue]; exact hfull)
      (by rw [hc, hold, hs]; exact hno)
    rw [hc] at held
    exact held
  have kept : serveKept g.sender c s.trunk.kept.length s = ([], w) := by
    rw [hk, List.length_cons, serveKept, if_neg (by simpa using hno), mine]
    dsimp only
    rw [erased, offered]
    rfl
  simp only [State.afterQueued, kept, List.foldl_cons, List.foldl_nil]

/-! ### What a freed place leads to (R124, R154, R188) -/

/-- What follows where the front frame of queue `c` leaves `rest` behind it, its block being told what `told` does: the
states after it are those that `gives` holds of (R123, R124, R129). -/
def State.Leaves (s : State) (c : TrunkClass) (rest : List Frame) (gives : State → Prop) (counted : State)
    (told : State → State) : Prop :=
  (s.trunk.hold c = [] → gives (told (counted.withTrunk fun t => { t.setQueue c rest with inAir := none }))) ∧
  ∀ g held, s.trunk.hold c = g :: held →
    let took (kept : List Frame) : State := told (counted.withTrunk fun t => t.admitted c rest g held kept)
    (s.trunk.kept = [] →
      ((g.purpose.plain = true ∨ g.purpose = .reply false) → gives (took [])) ∧
      (g.purpose = .share → gives (took []).shareNext) ∧
      (∀ p, g.body = .relay p → g.purpose = .relayOut → s.fwd.relayBack = [] →
        (p = sessionParcel s.settings.station s.link.attemptTag p.payload → gives (took []).toldQueued) ∧
        (p ≠ sessionParcel s.settings.station s.link.attemptTag p.payload → gives (took []))) ∧
      (g.purpose = .relayBack → s.fwd.relayBack = [] → gives (took [])) ∧
      (∀ r list, c = .bulk → g.purpose = .relayBack → s.fwd.relayBack = r :: list →
        (s.peer r.origin).state = .alive → r.cls = .office → 32 ≤ rest.length + 1 →
        (∀ x ∈ held, x.sender ≠ .forwarding) →
          gives ((((took []).withTrunk fun t => t.setHold c (held ++ [backFrame r])).bump
            .framesWaited).withFwd fun w => { w with relayBack := list }))) ∧
    (∀ k others, s.trunk.kept = k :: others → k.sender = g.sender → k.body.trunkClass = c → k.body.waits = true →
      (∀ x ∈ held, x.sender ≠ g.sender) → Config.queueCapacity c ≤ rest.length + 1 →
        let waits : State := ((took others).withTrunk fun t => t.setHold c (held ++ [k])).bump .framesWaited
        ((g.purpose.plain = true ∨ g.purpose = .reply false ∨ g.purpose = .relayBack) → gives waits) ∧
        (g.purpose = .share → gives waits.shareNext))

/-- What a block's being told an outcome does, of the blocks that form no frame then: it leaves the trunk out of account,
and the relay-back list as it stands (R154). -/
structure Telling (told : State → State) : Prop where
  trunk : ∀ (x : State) F, told (x.withTrunk F) = (told x).withTrunk F
  kept : ∀ x, keeps [.lanes, .out, .fwd, .counts] x (told x)
  back : ∀ x : State, x.SameBack (told x)

/-- A frame whose block does nothing more on being told QUEUED, and that does not set the relay-back list going. -/
theorem Frame.quiet_of {g : Frame} (h : g.purpose.plain = true ∨ g.purpose = .reply false) (hf : g.fits = true)
    (v : State) : v.notifyQueued g = v ∧ ¬ (g.sender = .forwarding ∧ g.body.trunkClass = .bulk) := by
  obtain ⟨dest, body, purpose, attempts⟩ := g
  cases purpose
  case reply b =>
    refine ⟨rfl, fun ⟨_, hb⟩ => ?_⟩
    cases body
    case officeReply r => cases hb
    all_goals cases hf
  case reports => simp [Purpose.plain] at h
  case share => simp [Purpose.plain] at h
  case relayOut => simp [Purpose.plain] at h
  case relayBack => simp [Purpose.plain] at h
  all_goals exact ⟨rfl, fun ⟨hs, _⟩ => by cases hs⟩

section Leaves
variable {c : TrunkClass} {f g : Frame} {rest held : List Frame} {counted : State} {told : State → State}
  (hT : Telling told) (hx : keeps [.counts] s counted)
include hT hx

/-- What stands in the trunk once a held frame has been given the freed place. -/
theorem Telling.took_trunk (kept : List Frame) :
    (told (counted.withTrunk fun t => t.admitted c rest g held kept)).trunk = s.trunk.admitted c rest g held kept := by
  have base : (told counted).trunk = s.trunk := (hT.kept counted .trunk (by decide)).trans (hx .trunk (by decide))
  rw [hT.trunk]
  exact congrArg (fun t : Trunk => t.admitted c rest g held kept) base

theorem Telling.took_fields (kept : List Frame) :
    let y := told (counted.withTrunk fun t => t.admitted c rest g held kept)
    y.settings = s.settings ∧ y.link = s.link ∧ y.part = s.part ∧ y.fwd.relayBack = s.fwd.relayBack := by
  intro y
  have all := hT.kept (counted.withTrunk fun t => t.admitted c rest g held kept)
  refine ⟨(all .settings (by decide)).trans (hx .settings (by decide)), (all .link (by decide)).trans (hx .link (by decide)),
    (all .part (by decide)).trans (hx .part (by decide)), ?_⟩
  have back : y.fwd.relayBack = counted.fwd.relayBack := hT.back _
  exact back.trans (congrArg Forwarding.relayBack (hx .fwd (by decide)))

end Leaves

theorem Trunk.admitted_hold {c : TrunkClass} (hc : c ≠ .urgent) (t : Trunk) (rest : List Frame) (g : Frame)
    (held kept : List Frame) : (t.admitted c rest g held kept).hold c = held := by
  cases c
  case urgent => exact absurd rfl hc
  all_goals rfl

theorem Trunk.admitted_queue (c : TrunkClass) (t : Trunk) (rest : List Frame) (g : Frame) (held kept : List Frame) :
    (t.admitted c rest g held kept).queue c = rest ++ [g] := by
  cases c <;> rfl

/-- A frame has left its queue, and its block has been told (R123, R124, R129). -/
theorem State.leaves_of {c : TrunkClass} {f : Frame} {rest : List Frame} {counted : State} {told : State → State}
    {gives : State → Prop} {sent : Bool} (hq : s.trunk.queue c = f :: rest) (hfiled : s.trunk.Filed) (hsend : s.canSend = true)
    (hr : f.restarts = false) (hT : Telling told) (hx : keeps [.counts] s counted)
    (htell : ∀ y, y.fwd = s.fwd → y.lanes = s.lanes → y.tell sent f = told y) (hg : gives (counted.outcome c f sent)) :
    s.Leaves c rest gives counted told := by
  have trunk : counted.trunk = s.trunk := hx .trunk (by decide)
  have fwd : counted.fwd = s.fwd := hx .fwd (by decide)
  have lanes : counted.lanes = s.lanes := hx .lanes (by decide)
  have tells (F : Trunk → Trunk) : (counted.withTrunk F).tell sent f = told (counted.withTrunk F) := htell _ fwd lanes
  refine ⟨fun hh => ?_, fun g held hh => ?_⟩
  · have left : counted.outcome c f sent = told (counted.withTrunk fun t => { t.setQueue c rest with inAir := none }) := by
      simp only [State.outcome, hr, Bool.false_eq_true, if_false, trunk, Trunk.popAdmit_none hq hh, tells]
      exact congrArg told (by simp only [State.withTrunk, trunk])
    rwa [left] at hg
  · intro took
    have hc : c ≠ .urgent := by
      rintro rfl
      cases hh
    obtain ⟨cls, fits⟩ := hfiled.held c g (by rw [hh]; exact List.mem_cons_self ..)
    have left : counted.outcome c f sent = (took s.trunk.kept).afterQueued c g := by
      simp only [State.outcome, hr, Bool.false_eq_true, if_false, trunk, Trunk.popAdmit_held hq hh, tells]
      exact congrArg (fun y => (told y).afterQueued c g) (by simp only [State.withTrunk, trunk])
    rw [left] at hg
    have tookTrunk (kept : List Frame) : (took kept).trunk = s.trunk.admitted c rest g held kept := hT.took_trunk hx kept
    have tookFields (kept : List Frame) : (took kept).settings = s.settings ∧ (took kept).link = s.link ∧
        (took kept).part = s.part ∧ (took kept).fwd.relayBack = s.fwd.relayBack := hT.took_fields hx kept
    refine ⟨fun hk => ?none, fun k others hk hks hkc hkw hno hfull => ?kept⟩
    case none =>
      rw [hk] at hg
      have none_kept : (took []).trunk.kept = [] := by rw [tookTrunk]; rfl
      obtain ⟨settings, link, part, back⟩ := tookFields []
      rw [State.afterQueued_noKept none_kept] at hg
      have quiet (hn : (took []).notifyQueued g = took []) (hd : ¬ (g.sender = .forwarding ∧ c = .bulk)) :
          gives (took []) := by
        rw [if_neg hd, hn] at hg
        exact hg
      refine ⟨fun hp => ?_, fun hp => ?_, fun p hb hp hback => ?_, fun hp hback => ?_, fun r list hcb hp hback ha hro hlen hno => ?_⟩
      · obtain ⟨hn, hd⟩ := Frame.quiet_of hp fits (took [])
        rw [cls] at hd
        exact quiet hn hd
      · have sender : g.sender = .link := by simp only [Frame.sender, hp]
        have shared : (took []).notifyQueued g = (took []).shareNext := by simp only [State.notifyQueued, hp]
        rw [if_neg (by simp [sender]), shared] at hg
        exact hg
      · have told_ : (took []).notifyQueued g =
            if p = sessionParcel s.settings.station s.link.attemptTag p.payload then (took []).toldQueued else took [] := by
          simp only [State.notifyQueued, hp, hb, State.self, settings, link]
        have empty : ((took []).notifyQueued g).fwd.relayBack = [] := by
          rw [told_]
          split
          · have same : (took []).toldQueued.fwd.relayBack = (took []).fwd.relayBack := State.toldQueued_back _
            exact same.trans (back.trans hback)
          · exact back.trans hback
        rw [drainRelayBack_nil empty, ite_self, told_] at hg
        exact ⟨fun e => by rwa [if_pos e] at hg, fun e => by rwa [if_neg e] at hg⟩
      · have told_ : (took []).notifyQueued g = took [] := by simp only [State.notifyQueued, hp]
        rw [told_, drainRelayBack_nil (back.trans hback), ite_self] at hg
        exact hg
      · subst hcb
        have told_ : (took []).notifyQueued g = took [] := by simp only [State.notifyQueued, hp]
        have sender : g.sender = .forwarding := by simp only [Frame.sender, hp]
        have hold : (took []).trunk.holdBulk = held := by rw [tookTrunk]; rfl
        have bulk : (took []).trunk.bulk = rest ++ [g] := by rw [tookTrunk]; rfl
        have idle : (took []).relayWaits = false := by
          rw [← Bool.not_eq_true, State.relayWaits_iff, hold, none_kept]
          simp only [List.not_mem_nil, false_and, exists_false, or_false]
          rintro ⟨x, hx, hs⟩
          exact hno x hx hs
        have alive : ((took []).peer r.origin).state = .alive := by
          rw [State.peer, tookTrunk]
          exact ha
        have sends : (took []).canSend = true := by rw [State.canSend, part]; exact hsend
        have drained := drainRelayBack_held (p := r) (q := list) idle alive sends hro (by rw [bulk]; simpa using hlen)
        rw [told_, if_pos ⟨sender, rfl⟩, back, hback, drained] at hg
        simp only [State.withTrunk, hold] at hg
        exact hg
    case kept =>
      obtain ⟨-, -, part, -⟩ := tookFields s.trunk.kept
      have kept : (took s.trunk.kept).trunk.kept = k :: others := by
        rw [tookTrunk]
        exact hk
      have sends : (took s.trunk.kept).canSend = true := by rw [State.canSend, part]; exact hsend
      have hold : (took s.trunk.kept).trunk.hold c = held := by rw [tookTrunk, Trunk.admitted_hold hc]
      have queue : ((took s.trunk.kept).trunk.queue c).length = rest.length + 1 := by
        rw [tookTrunk, Trunk.admitted_queue, List.length_append, List.length_singleton]
      have served := State.afterQueued_kept kept hks hkc hkw sends (by rw [hold]; exact hno) (by rw [queue]; exact hfull)
      have erased : ((took s.trunk.kept).withTrunk fun t => { t with kept := others }) = took others := by
        simp only [took]
        rw [← hT.trunk]
        rfl
      have holdOthers : (took others).trunk.hold c = held := by rw [tookTrunk, Trunk.admitted_hold hc]
      have waitsEq : ((took others).withTrunk fun t => t.setHold c (t.hold c ++ [k])) =
          (took others).withTrunk fun t => t.setHold c (held ++ [k]) := by
        simp only [State.withTrunk, holdOthers]
      dsimp only at served
      rw [erased, waitsEq] at served
      rw [served] at hg
      intro waits
      have behind (hs : g.sender = .forwarding) (hcb : c = .bulk) : waits.relayWaits = true := by
        subst hcb
        rw [State.relayWaits_iff]
        exact .inl ⟨k, List.mem_append_right _ (List.mem_singleton_self _), hks.trans hs⟩
      refine ⟨fun hp => ?_, fun hp => ?_⟩
      · have told_ : waits.notifyQueued g = waits := by
          rcases hp with hp | hp | hp
          · exact (Frame.quiet_of (.inl hp) fits waits).1
          · exact (Frame.quiet_of (.inr hp) fits waits).1
          · simp only [State.notifyQueued, hp]
        rw [told_] at hg
        split at hg
        · next h => rwa [drainRelayBack_waits (behind h.1 h.2)] at hg
        · exact hg
      · have sender : g.sender = .link := by simp only [Frame.sender, hp]
        have shared : waits.notifyQueued g = waits.shareNext := by simp only [State.notifyQueued, hp]
        rw [if_neg (by simp [sender]), shared] at hg
        exact hg

/-! ### What a block does on being told an outcome (R140, R154) -/

theorem Telling.nothing : Telling fun x => x := ⟨fun _ _ => rfl, fun x => keeps.refl _ x, fun x => .refl x⟩

theorem Telling.counts (c : Count) : Telling fun x => x.bump c :=
  ⟨fun _ _ => rfl, fun x => (x.bump_keeps c).mono (by decide), fun x => .of_keeps (x.bump_keeps c) (by decide)⟩

/-- A lane whose AUTH was relayed out and dropped is answered (R154). -/
theorem Telling.lane {told : State → State} (l : LaneNo) {f : Lane → Lane} {os : List Output}
    (h : ∀ x, told x = ((x.dropPending l).withLane l f).emitAll os) : Telling told := by
  have kept (x : State) : keeps [.lanes, .out, .fwd, .counts] x (((x.dropPending l).withLane l f).emitAll os) := by simp
  refine ⟨fun x F => by rw [h, h]; rfl, fun x => h x ▸ kept x, fun x => by rw [h]; rfl⟩

/-- The end of an attempt of the front frame of a queue (R128, R129). -/
theorem exec_trunkAttemptEnd {c : TrunkClass} {f : Frame} {rest : List Frame} (hl : s.live = true) (hsend : s.canSend = true)
    (ha : s.trunk.inAir = some c) (hq : s.trunk.queue c = f :: rest) (taken spoiled : Bool) :
    exec (.trunkAttemptEnd taken spoiled) s = .next (s.attemptEnd c f rest taken spoiled) := by
  have run : exec (.trunkAttemptEnd taken spoiled) s = execTrunkAttemptEnd taken spoiled s := rfl
  simp only [run, execTrunkAttemptEnd, hl, hsend, Bool.and_self, if_true, ha, hq]

theorem Frame.succeeds_iff (f : Frame) (taken spoiled : Bool) :
    f.succeeds taken spoiled = true ↔ spoiled = false ∧ (f.dest = none ∨ taken = true) := by
  simp [Frame.succeeds]

/-- A frame of the reports there are finds room in the NOTICE queue (R13). -/
theorem State.formReports_sent (hr : s.book.reports ≠ []) (ho : s.book.outstanding = false) (hsend : s.canSend = true)
    (hroom : s.trunk.notice.length < 64) : s.formReports =
      (s.withTrunk fun t => { t with notice := t.notice ++ [{ dest := none, purpose := .reports, attempts := 0
                                                              body := .shelfDone (s.book.reports.take 64) }] }).withBook
        fun b => { b with reports := b.reports.drop 64, outstanding := true } := by
  have queued := State.offer_notice_queued (s := s) (f := Frame.new none (.shelfDone (s.book.reports.take 64)) .reports) rfl
    hsend hroom
  have some_there : (s.book.reports.isEmpty || s.book.outstanding) = false := by simp [hr, ho]
  simp only [State.formReports, some_there, Bool.false_eq_true, if_false, Config.reportCapacity, queued]
  rfl

section Told
variable {f : Frame}

theorem State.tell_quiet (h : f.purpose.plain = true) (v : State) (sent : Bool) : v.tell sent f = v := by
  unfold State.tell
  cases hp : f.purpose <;> simp [hp, Purpose.plain] at h ⊢

theorem State.tell_relayed {p : Parcel} (hp : f.purpose = .relayOut) (hb : f.body = .relay p) (v : State) (sent : Bool) :
    v.tell sent f = if sent then v.bump .relayedOut else v.relayLost true p := by
  simp only [State.tell, hp, hb]
  rfl

theorem State.tell_back {p : Parcel} (hp : f.purpose = .relayBack) (hb : f.body = .relay p) (v : State) (sent : Bool) :
    v.tell sent f = if sent then v.bump .relayedBack else v.bump .undeliverable := by
  simp only [State.tell, hp, hb]
  rfl

/-- A RELAY frame carries a parcel (R122). -/
theorem Frame.relays (h : f.purpose = .relayOut ∨ f.purpose = .relayBack) (hf : f.fits = true) : ∃ p, f.body = .relay p := by
  unfold Frame.fits at hf
  split at hf
  case h_16 p _ hb => exact ⟨p, hb⟩
  case h_17 p _ hb => exact ⟨p, hb⟩
  case h_18 => cases hf
  all_goals
    rename_i hp _
    rw [hp] at h
    rcases h with h | h <;> cases h

end Told

end Sys2Proof.Machine

/-! ### The statements -/

open Sys2Proof Sys2Proof.Machine

/-- Settles O34, by what the frame's block is told and by the frame that the freed place is given to. -/
theorem attemptsEndInSentOrDropped : Obligations.AttemptsEndInSentOrDropped := by
  unfold Obligations.AttemptsEndInSentOrDropped
  intro s c f rest taken spoiled hl hsend hfiled ha hq succeeds sent dropped gives leaves
  have run := exec_trunkAttemptEnd hl hsend ha hq taken spoiled
  obtain ⟨cls, fits⟩ := hfiled.queued c f (by rw [hq]; exact List.mem_cons_self ..)
  have sentEq : s.bump (sentCount c) = sent := by
    simp only [sent]
    cases c <;> rfl
  have success (h : succeeds) : gives (sent.outcome c f true) := by
    refine run.trans (congrArg _ ?_)
    rw [State.attemptEnd, if_pos ((f.succeeds_iff taken spoiled).2 h), sentEq]
  have failure (h : ¬ succeeds) (hn : 3 ≤ f.attempts) : gives (dropped.outcome c f false) := by
    refine run.trans (congrArg _ ?_)
    rw [State.attemptEnd, if_neg fun e => h ((f.succeeds_iff taken spoiled).1 e), if_neg (by omega)]
  have ended (h : succeeds ∨ 3 ≤ f.attempts) : ∃ (x : State) (b : Bool), keeps [.counts] s x ∧ gives (x.outcome c f b) := by
    rcases Classical.em succeeds with hs | hs
    · exact ⟨sent, true, s.bump_keeps _, success hs⟩
    · exact ⟨dropped, false, (s.bump_keeps _).trans (State.bump_keeps _ _), failure hs (h.resolve_left hs)⟩
  have sentLeaves (h : succeeds) {told : State → State} (hr : f.restarts = false) (hT : Telling told)
      (htell : ∀ y, y.fwd = s.fwd → y.lanes = s.lanes → y.tell true f = told y) : leaves sent told :=
    State.leaves_of hq hfiled hsend hr hT (s.bump_keeps _) htell (success h)
  have droppedLeaves (h : ¬ succeeds) (hn : 3 ≤ f.attempts) {told : State → State} (hr : f.restarts = false)
      (hT : Telling told) (htell : ∀ y, y.fwd = s.fwd → y.lanes = s.lanes → y.tell false f = told y) : leaves dropped told :=
    State.leaves_of hq hfiled hsend hr hT ((s.bump_keeps _).trans (State.bump_keeps _ _)) htell (failure h hn)
  have noRestart (h : f.purpose ≠ .reply true) : f.restarts = false := by simpa [Frame.restarts] using h
  refine ⟨fun h hn => ?again, fun h hp => ?quiet, fun h hp => ?relayOut, fun h hp => ?relayBack, fun h hn => ?dropped,
    fun hp h => ?restart, fun hp h hh => ?reports⟩
  case again =>
    refine run.trans (congrArg _ ?_)
    rw [State.attemptEnd, if_neg fun e => h ((f.succeeds_iff taken spoiled).1 e), if_pos (by omega)]
  case quiet =>
    refine sentLeaves h (noRestart ?_) Telling.nothing fun y _ _ => ?_
    · rcases hp with hp | hp | hp <;> intro e <;> simp [e, Purpose.plain] at hp
    · rcases hp with hp | hp | hp
      · exact State.tell_quiet hp y true
      · simp only [State.tell, hp, if_true]
      · simp only [State.tell, hp, if_true]
  case relayOut =>
    obtain ⟨p, hb⟩ := Frame.relays (.inl hp) fits
    exact sentLeaves h (noRestart (by simp [hp])) (Telling.counts _) fun y _ _ => State.tell_relayed hp hb y true
  case relayBack =>
    obtain ⟨p, hb⟩ := Frame.relays (.inr hp) fits
    exact sentLeaves h (noRestart (by simp [hp])) (Telling.counts _) fun y _ _ => State.tell_back hp hb y true
  case dropped =>
    refine ⟨fun hp => ?_, fun hp => ?_, fun hp => ?_, fun hp => ?_, fun p hb hp => ⟨fun hc => ?_, fun hc l hport => ?auth⟩⟩
    · exact droppedLeaves h hn (noRestart (by intro e; simp [e, Purpose.plain] at hp)) Telling.nothing
        fun y _ _ => State.tell_quiet hp y false
    · exact droppedLeaves h hn (noRestart (by simp [hp])) (Telling.counts _) fun y _ _ => by
        simp only [State.tell, hp, Bool.false_eq_true, if_false]
    · exact droppedLeaves h hn (noRestart (by simp [hp])) (Telling.counts _) fun y _ _ => by
        simp only [State.tell, hp, Bool.false_eq_true, if_false]
    · obtain ⟨p, hb⟩ := Frame.relays (.inr hp) fits
      exact droppedLeaves h hn (noRestart (by simp [hp])) (Telling.counts _) fun y _ _ => State.tell_back hp hb y false
    · refine droppedLeaves h hn (noRestart (by simp [hp])) (Telling.counts _) fun y _ _ => ?_
      rw [State.tell_relayed hp hb, if_neg (by decide)]
      simp [State.relayLost, hc]
    case auth =>
      have lost (y : State) : y.tell false f = match AMap.get y.fwd.pendingTable l.val with
          | none => y
          | some e => if e.count = p.tag then y.pendingOutcome l p.tag .noRoute else y := by
        rw [State.tell_relayed hp hb, if_neg (by decide)]
        simp only [State.relayLost, hc, Bool.true_and, beq_self_eq_true, if_true, hport] <;> rfl
      refine ⟨fun hno => ?_, ?_⟩
      · refine droppedLeaves h hn (noRestart (by simp [hp])) Telling.nothing fun y hy _ => ?_
        rw [lost, hy]
        cases he : AMap.get s.fwd.pendingTable l.val with
        | none => rfl
        | some e => exact if_neg (hno e he)
      · intro e he hcount answered
        have outcome (y : State) (hy : y.fwd = s.fwd) :
            y.tell false f = (y.dropPending l).authOutcome l p.tag .noRoute := by
          have entry : AMap.get y.fwd.pendingTable l.val = some e := by rw [hy]; exact he
          rw [lost, entry]
          dsimp only
          rw [if_pos hcount, State.pendingOutcome_entry entry hcount]
          rfl
        refine ⟨fun a hfl hac => ?_, fun hfl => ?_⟩
        · refine droppedLeaves h hn (noRestart (by simp [hp]))
            (Telling.lane l (os := [.laneReply l a.bit .noRoute]) fun x => rfl) fun y hy hlanes => ?_
          have flight : ((y.dropPending l).lane l).flight = some a := by
            have same : (y.dropPending l).lane l = s.lane l := congrArg (fun v => v.get l) hlanes
            rw [same]
            exact hfl
          rw [outcome y hy, State.authOutcome_flight flight hac rfl]
          rfl
        · refine droppedLeaves h hn (noRestart (by simp [hp]))
            (told := fun x => (answered x).withLane l fun y => { y with lateReplies := min (y.lateReplies + 1) 4294967295 })
            (Telling.lane l (os := []) (f := fun y => { y with lateReplies := min (y.lateReplies + 1) 4294967295 }) fun x => ?_)
            fun y hy hlanes => ?_
          · simp only [State.emitAll, List.append_nil]
            rfl
          · have same : (y.dropPending l).lane l = s.lane l := congrArg (fun v => v.get l) hlanes
            rw [outcome y hy, State.authOutcome_late (.inl fun a ha => hfl a (by rw [← same]; exact ha))]
            rfl
  case restart =>
    obtain ⟨x, b, -, hg⟩ := ended h
    have restarts : f.restarts = true := by simp [Frame.restarts, hp]
    rw [State.outcome, if_pos restarts] at hg
    exact ⟨_, hg, rfl, rfl, rfl, rfl⟩
  case reports =>
    obtain ⟨x, b, kept, hg⟩ := ended h
    have notice : c = .notice := by
      rw [← cls]
      obtain ⟨dest, body, purpose, attempts⟩ := f
      obtain rfl : purpose = .reports := hp
      cases body
      case shelfDone r => rfl
      all_goals cases fits
    subst notice
    have trunk : x.trunk = s.trunk := kept .trunk (by decide)
    have book : x.book = s.book := kept .book (by decide)
    let w : State := (x.withTrunk fun _ => { s.trunk.setQueue .notice rest with inAir := none }).withBook fun b =>
      { b with outstanding := false }
    have formed : x.outcome .notice f b = w.formReports := by
      simp only [State.outcome, noRestart (by simp [hp]), Bool.false_eq_true, if_false, trunk, Trunk.popAdmit_none hq hh,
        State.tell, hp, w]
    rw [formed] at hg
    have reports : w.book.reports = s.book.reports := by
      have same : w.book.reports = x.book.reports := rfl
      rw [same, book]
    refine ⟨_, hg, fun hr => ?_, fun hr hroom => ?_⟩
    · have same : w.formReports = w := by simp [State.formReports, reports, hr]
      rw [same]
      exact ⟨congrArg (fun b : Book => { b with outstanding := false }) book, rfl⟩
    · have sends : w.canSend = true := by
        have part : x.part = s.part := kept .part (by decide)
        have same : w.canSend = s.canSend := by simp only [State.canSend, w, State.withBook, State.withTrunk, part]
        rw [same, hsend]
      rw [State.formReports_sent (by rw [reports]; exact hr) rfl sends hroom]
      refine ⟨?_, ?_⟩
      · simp only [w, State.withBook, State.withTrunk, book]
      · simp only [w, State.withBook, State.withTrunk, Trunk.setQueue, book]
end

section
/-! PROOFS. What a reset leaves of each block. -/

namespace Sys2Proof.Machine

open Sys2Proof

variable {s t u : State}

/-! ### The reset state, field by field (R25, R102, R120) -/

/-- `t` is the reset state of `s`, but for power, the reset line, the cause, the counts and the alerts. -/
def State.Rests (s t : State) : Prop := keeps [.powered, .resetHeld, .cause, .counts, .alerts] s.cleared t

theorem State.cleared_rests (s : State) : s.Rests s.cleared := keeps.refl _ _

theorem State.Rests.power (h : s.Rests t) (b : Bool) : s.Rests { t with powered := b } := fun f hf => by
  cases f
  case powered => exact absurd (by decide) hf
  all_goals exact h _ hf

theorem State.Rests.line (h : s.Rests t) (b : Bool) : s.Rests { t with resetHeld := b } := fun f hf => by
  cases f
  case resetHeld => exact absurd (by decide) hf
  all_goals exact h _ hf

theorem State.enterStarting_rests (s : State) (c : Cause) : s.Rests (s.enterStarting c) := by
  unfold State.enterStarting State.Rests
  rw [keeps_recordAlert _ _ _ _ (by decide)]
  exact (keeps_setCause (fs := [.powered, .resetHeld, .cause, .counts, .alerts]) c (by decide)).2 (keeps.refl _ _)

theorem State.Rests.starts (h : s.Rests u.cleared) (c : Cause) : s.Rests (u.enterStarting c) :=
  h.trans (u.enterStarting_rests c)

/-- Neither power nor the reset line is looked at by the reset. -/
theorem State.cleared_power (s : State) (b : Bool) : s.Rests { s with powered := b }.cleared := s.cleared_rests.power b

theorem State.cleared_line (s : State) (b : Bool) : s.Rests { s with resetHeld := b }.cleared := s.cleared_rests.line b

theorem State.Rests.keeps (h : s.Rests t) : Machine.keeps ([.powered, .resetHeld] ++ resetFields) s t :=
  ((State.cleared_keeps s).mono (by decide)).trans (h.mono (by decide))

theorem Entry.afterReset_eq (e : Entry) :
    e.afterReset = { e with phase := match e.phase with
      | .changing c => .changing { c with age := 0 }
      | p => p } := by
  obtain ⟨k, c, v, p, b⟩ := e
  cases p <;> rfl

theorem State.cleared_lane (s : State) (l : LaneNo) : s.cleared.lane l = Lane.initial (s.lane l).lastClosed := by
  simp [State.lane, State.cleared, Vector.get]
  rfl

theorem State.cleared_owned (s : State) (n : Nat) : s.cleared.owned n = (s.owned n).map (Owned.afterReset s.now) :=
  AMap.get_map s.labels.owned _ n

/-! ### A label's state after a reset (R102) -/

theorem Owned.afterReset_lost (o : Owned) (now : Nat) (h : o.state = .lost) : (o.afterReset now).state = .lost := by
  simp [Owned.afterReset, h]

theorem Owned.afterReset_due (o : Owned) (now due : Nat) (h : o.state = .updateDue due) :
    (o.afterReset now).state = .updateDue now := by
  simp [Owned.afterReset, h]

theorem Owned.afterReset_else (o : Owned) (now : Nat)
    (h : o.state = .showing ∨ (∃ due, o.state = .sent due) ∨ ∃ m, o.state = .moving m) :
    (o.afterReset now).state = if o.current then .showing else .updateDue now := by
  rcases h with h | ⟨due, h⟩ | ⟨m, h⟩ <;> simp [Owned.afterReset, h]

/-- A label that a reset leaves UPDATE-DUE falls due at the reset. -/
theorem Owned.afterReset_falls (o : Owned) (now due : Nat) (h : (o.afterReset now).state = .updateDue due) :
    due = now := by
  have side : (if o.current then LabelState.showing else .updateDue now) = .updateDue due → due = now := by
    split <;> intro h <;> cases h
    rfl
  cases hs : o.state with
  | lost => rw [o.afterReset_lost now hs] at h; cases h
  | updateDue d => rw [o.afterReset_due now d hs] at h; cases h; rfl
  | showing => rw [o.afterReset_else now (.inl hs)] at h; exact side h
  | sent d => rw [o.afterReset_else now (.inr (.inl ⟨d, hs⟩))] at h; exact side h
  | moving m => rw [o.afterReset_else now (.inr (.inr ⟨m, hs⟩))] at h; exact side h

/-! ### The update list after a reset (R80, R102) -/

/-- Whatever is listed falls due when an UPDATE-DUE label does. -/
theorem mem_updateList {m : AMap Owned} {x : Nat × Nat} (h : x ∈ updateList m) :
    ∃ e ∈ m, e.2.state = .updateDue x.1 := by
  induction m with
  | nil => simp [updateList] at h
  | cons e m ih =>
    obtain ⟨k, o⟩ := e
    have later (h : x ∈ updateList m) : ∃ e ∈ (k, o) :: m, e.2.state = .updateDue x.1 := by
      obtain ⟨e, he, hd⟩ := ih h
      exact ⟨e, List.mem_cons_of_mem _ he, hd⟩
    unfold updateList at h
    split at h
    next due hs =>
      rcases (mem_insertDue _ _ _).1 h with rfl | h
      · exact ⟨_, List.mem_cons_self .., hs⟩
      · exact later h
    all_goals exact later h

theorem State.cleared_updates (s : State) : ∀ x ∈ s.cleared.updates, x.1 = s.now := by
  intro x hx
  obtain ⟨e, he, hd⟩ := mem_updateList hx
  obtain ⟨o, -, rfl⟩ := List.mem_map.1 he
  exact o.2.afterReset_falls s.now x.1 hd

/-- Labels that all fall due at one time are listed in order of address. -/
theorem State.cleared_updates_ordered (s : State) (h : AMap.wf s.labels.owned = true) :
    (s.cleared.updates.map (·.2)).Pairwise (· < ·) := by
  have ordered := (updateList_spec _ (AMap.wf_map s.labels.owned (fun e => e.2.afterReset s.now) h)).1
  refine List.pairwise_map.2 (ordered.imp_of_mem fun {x y} hx hy hxy => ?_)
  have hx := s.cleared_updates x hx
  have hy := s.cleared_updates y hy
  rcases hxy with hlt | ⟨-, hlt⟩
  · omega
  · exact hlt

end Sys2Proof.Machine

/-! ### The statements -/

open Sys2Proof Sys2Proof.Machine

/-- Settles O47, each reset being the reset state but for power, the reset line, the cause, the counts and the alerts. -/
theorem resetsKeepWhatIsAttached : Obligations.ResetsKeepWhatIsAttached := by
  unfold Obligations.ResetsKeepWhatIsAttached
  intro s kept restarted unalerted
  have rests : ∀ t, s.Rests t → kept t := by
    intro t h
    have hlabels : t.labels = s.cleared.labels := h .labels (by decide)
    have hlanes : t.lanes = s.cleared.lanes := h .lanes (by decide)
    have howned (n : Nat) : t.owned n = (s.owned n).map (Owned.afterReset s.now) := by
      rw [← State.cleared_owned]
      exact congrArg (fun w : Labels => AMap.get w.owned n) hlabels
    have hupdates : t.updates = s.cleared.updates := congrArg (fun w : Labels => updateList w.owned) hlabels
    refine ⟨h.keeps, h .part (by decide), h .listenTimer (by decide), h .settings (by decide), h .clamped (by decide),
      h .trunk (by decide), h .commands (by decide), ?book, ?lanes, h .journal (by decide), ?labels, ?addresses, ?none,
      ?label, ?due, ?order, h .fwd (by decide), h .link (by decide), h .staging (by decide), h .unit (by decide)⟩
    case book =>
      refine (h .book (by decide)).trans (congrArg (Book.initial s.now) (List.map_congr_left fun e _ => ?_))
      rw [Entry.afterReset_eq] <;> rfl
    case lanes =>
      intro l
      rw [← State.cleared_lane]
      exact congrArg (Vector.get · l) hlanes
    case labels => rw [hlabels]; rfl
    case addresses =>
      rw [hlabels]
      exact List.map_map ..
    case none =>
      intro n hn
      rw [howned, hn]
      rfl
    case label =>
      intro n o ho
      refine ⟨o.afterReset s.now, by rw [howned, ho]; rfl, rfl, rfl, rfl, rfl, rfl, rfl, rfl, rfl, rfl, rfl, rfl, rfl, rfl,
        o.afterReset_lost s.now, fun due => o.afterReset_due s.now due, o.afterReset_else s.now⟩
    case due =>
      rw [hupdates]
      exact s.cleared_updates
    case order =>
      rw [hupdates]
      exact s.cleared_updates_ordered
  refine ⟨?on, ?onHeld, ?released, ?releasedOff, ?releasedIdle, ?asserted, ?assertedOff, ?restart, ?loss⟩
  case on =>
    intro hr
    have run : exec .powerOn s = .next ({ s with powered := true }.enterStarting .powerOn) := by
      show execPowerOn s = _
      simp [execPowerOn, hr]
    exact ⟨_, run, rests _ ((s.cleared_power true).starts _), rfl, hr, rfl, State.enterStarting_alerts _ _,
      State.enterStarting_count _ _⟩
  case onHeld =>
    intro hr
    have run : exec .powerOn s = .next { s.cleared with powered := true } := by
      show execPowerOn s = _
      simp [execPowerOn, hr]
    exact ⟨_, run, rests _ (s.cleared_rests.power true), rfl, hr, rfl, s.cleared_count⟩
  case released =>
    intro hp hr
    have run : exec .resetLineReleased s = .next ({ s with resetHeld := false }.enterStarting .resetLine) := by
      show execResetLineReleased s = _
      simp [execResetLineReleased, hr, hp]
    exact ⟨_, run, rests _ ((s.cleared_line false).starts _), hp, rfl, rfl, State.enterStarting_alerts _ _,
      State.enterStarting_count _ _⟩
  case releasedOff =>
    intro hp
    show execResetLineReleased s = _
    obtain ⟨powered, resetHeld⟩ := s
    cases hp
    cases resetHeld <;> rfl
  case releasedIdle =>
    intro hr
    show execResetLineReleased s = _
    simp [execResetLineReleased, hr]
  case asserted =>
    intro hp
    have run : exec .resetLineAsserted s = .next { s.cleared with resetHeld := true } := by
      show execResetLineAsserted s = _
      simp [execResetLineAsserted, hp]
    exact ⟨_, run, rests _ (s.cleared_rests.line true), hp, rfl, rfl, s.cleared_count⟩
  case assertedOff =>
    intro hp
    show execResetLineAsserted s = _
    simp [execResetLineAsserted, hp]
  case restart =>
    intro hlive
    have ⟨hp, hr⟩ : s.powered = true ∧ s.resetHeld = false := by simpa [State.live] using hlive
    exact ⟨_, rfl, rests _ (s.enterStarting_rests _), hp, hr, rfl, State.enterStarting_alerts _ _,
      State.enterStarting_count _ _⟩
  case loss =>
    exact ⟨_, rfl, rests _ (s.cleared_rests.power false), rfl, rfl, s.cleared_count⟩

end

section
/-! PROOFS. The event lines, and the mains-fail qualification that decides DISTRESS. -/

namespace Sys2Proof.Machine

open Sys2Proof

variable {s t u : State}

/-! ### The functions of the lines (R196, R198) -/

theorem EventLine.takeLevel_eq (l : EventLine) (high : Bool) :
    l.takeLevel high = { l with
      asserted := high == l.activeHigh
      edges := if (high == l.activeHigh) = true ∧ l.asserted = false then min (l.edges + 1) 4294967295 else l.edges } := by
  simp [EventLine.takeLevel, raise, Config.countMax]

/-- A line's new level leaves every function that is not its own. -/
theorem ModeUnit.asserted_set (u : ModeUnit) (n : LineNo) (l : EventLine) (x : LineUse) (hu : l.use = (u.lines.get n).use)
    (hx : (u.lines.get n).use ≠ x) :
    ({ u with lines := u.lines.set n.val l n.isLt } : ModeUnit).asserted x = u.asserted x := by
  rw [Bool.eq_iff_iff, ModeUnit.asserted_iff, ModeUnit.asserted_iff]
  refine exists_congr fun i => ?_
  rw [vector_get_set]
  split
  next hi =>
    subst hi
    simp [hu, hx]
  next => rfl

/-- What the qualification becomes where the mains-fail function has changed (R196). -/
theorem State.mainsChanged_unit (s : State) (b : Bool) :
    (s.mainsChanged b).unit = { s.unit with mains := match s.unit.mains, b with
      | .clear, true => .rising (s.now + Config.seconds 2)
      | .rising _, false => .clear
      | .qualified, false => .falling (s.now + Config.seconds 30)
      | .falling _, true => .qualified
      | m, _ => m } := by
  unfold State.mainsChanged
  generalize hu : s.unit = w
  obtain ⟨clock, clockTimer, day, mode, override, schedule, mains, lines⟩ := w
  cases mains <;> cases b <;> simp [hu, State.withUnit, State.bump, State.bumpBy]

theorem State.keyEdge_starts (h : s.keyRefusal = none) : s.keyEdge = s.startAttempt .key := by
  simp [State.keyEdge, h]

theorem State.keyRefusal_none (hw : s.working = true) (hd : s.unit.mode ≠ .distress)
    (hi : s.link.state.inProgress = false) : s.keyRefusal = none := by
  simp [State.keyRefusal, hw, hd, hi]

/-- The unit after a line's new level, its key edge apart (R198, R199). -/
theorem State.lineChanged_unit (s : State) (n : LineNo) (high : Bool) :
    let lines := s.unit.lines.set n.val ((s.unit.lines.get n).takeLevel high) n.isLt
    let after := ({ s.unit with lines := lines } : ModeUnit).asserted .mainsFail
    let mains := if s.unit.asserted .mainsFail = after then s.unit.mains else match s.unit.mains, after with
      | .clear, true => .rising (s.now + Config.seconds 2)
      | .rising _, false => .clear
      | .qualified, false => .falling (s.now + Config.seconds 30)
      | .falling _, true => .qualified
      | m, _ => m
    (s.lineChanged n high).unit =
      { s.unit with lines := lines, mains := mains, mode := decidedMode { s.unit with lines := lines, mains := mains } } := by
  intro lines after mains
  have edge (b : Prop) [Decidable b] (v : State) : (if b then v.keyEdge else v).unit = v.unit := by
    split
    · exact v.keyEdge_keeps .unit (by decide)
    · rfl
  have decided (v : State) (hv : v.unit = { s.unit with lines := lines, mains := mains }) :
      v.decideMode.unit = { s.unit with lines := lines, mains := mains,
                                        mode := decidedMode { s.unit with lines := lines, mains := mains } } := by
    rw [State.decideMode_unit, hv]
  unfold State.lineChanged
  dsimp only
  rw [edge]
  refine decided _ ?_
  by_cases same : s.unit.asserted .mainsFail = after
  · refine (congrArg State.unit (if_pos ?_)).trans ?_
    · exact same.symm
    · rw [show mains = s.unit.mains from if_pos same]
      rfl
  · refine (congrArg State.unit (if_neg ?_)).trans ?_
    · exact Ne.symm same
    · rw [State.mainsChanged_unit, show mains = _ from if_neg same]
      rfl

/-- A line of another use than MAINS-FAIL and CLOSE-KEY decides no mode (R193). -/
theorem State.lineChanged_key {n : LineNo} {high : Bool} (hw : s.working = true) (hm : s.unit.mode = decidedMode s.unit)
    (hd : s.unit.mode ≠ .distress) (hi : s.link.state.inProgress = false) (hu : (s.unit.lines.get n).use = .sessionKey)
    (ha : (high == (s.unit.lines.get n).activeHigh) = true) (hn : (s.unit.lines.get n).asserted = false) :
    s.lineChanged n high = ({ s with unit := { s.unit with
      lines := s.unit.lines.set n.val ((s.unit.lines.get n).takeLevel high) n.isLt } } : State).startAttempt .key := by
  have other (x : LineUse) (hx : LineUse.sessionKey ≠ x) :
      ({ s.unit with lines := s.unit.lines.set n.val ((s.unit.lines.get n).takeLevel high) n.isLt } : ModeUnit).asserted x =
        s.unit.asserted x :=
    ModeUnit.asserted_set s.unit n _ x rfl (hu ▸ hx)
  have decided : decidedMode { s.unit with lines := s.unit.lines.set n.val ((s.unit.lines.get n).takeLevel high) n.isLt } =
      s.unit.mode := by
    rw [hm]
    unfold decidedMode
    rw [other .closeKey (by decide)]
  have same : (s.withUnit fun u => { u with lines := u.lines.set n.val ((s.unit.lines.get n).takeLevel high) n.isLt }).unit.asserted
      .mainsFail = s.unit.asserted .mainsFail := other .mainsFail (by decide)
  have stands (h : decidedMode (s.withUnit fun u =>
      { u with lines := u.lines.set n.val ((s.unit.lines.get n).takeLevel high) n.isLt }).unit = s.unit.mode) :=
    State.decideMode_same (s := s.withUnit fun u =>
      { u with lines := u.lines.set n.val ((s.unit.lines.get n).takeLevel high) n.isLt }) h
  unfold State.lineChanged
  dsimp only
  rw [if_pos same, stands decided, if_pos ⟨hu, ha, by simp [hn]⟩]
  exact State.keyEdge_starts (State.keyRefusal_none hw hd hi)

/-! ### DISTRESS (R149, R164, R182, R197) -/

/-- The forwarding unit holds nothing for a guest. -/
def Forwarding.Unguested (w : Forwarding) : Prop := w.guests = [] ∧ w.guest = []

/-- The transmitter only takes parcels from the queues. -/
theorem State.transmit_unguested (h : s.fwd.Unguested) : s.transmit.fwd.Unguested := by
  unfold State.transmit
  split
  · split
    · exact h
    · next p w hw =>
      have same : w.guests = s.fwd.guests ∧ w.guest = s.fwd.guest := by
        unfold Forwarding.choose at hw
        rw [h.2, ite_self] at hw
        split at hw
        · cases hw; exact ⟨rfl, h.2.symm⟩
        · split at hw
          next => cases hw
          next => cases hw; exact ⟨rfl, h.2.symm⟩
          next hg => cases hg
          next hg => cases hg
      exact ⟨same.1.trans h.1, same.2.trans h.2⟩
  · exact h

theorem State.fwdModeChanged_distress (s : State) : (s.fwdModeChanged .distress).fwd.Unguested := by
  unfold State.fwdModeChanged
  exact State.transmit_unguested ⟨rfl, rfl⟩

theorem State.sessionEvent_unguested (h : s.fwd.Unguested) (r : FailReason) : (s.sessionEvent r).fwd.Unguested := by
  rcases s.sessionEvent_fwd r with e | e <;> rw [e] <;> exact h

/-- What the entry to DISTRESS leaves of the guests, the session and the alerts. -/
theorem State.changeMode_distress (hs : s.serving = true) :
    (s.changeMode .distress).fwd.Unguested ∧ (s.changeMode .distress).link.state.inProgress = false ∧
      ∃ a ∈ (s.changeMode .distress).alerts.list, a.kind = .distressEntered ∧ a.severity = .warn := by
  have part : ¬ (s.part = .starting ∨ s.part = .halted) := by
    rintro (h | h) <;> simp [State.serving, State.working, h] at hs
  have noticed (v : State) (hv : v.part = s.part) :
      v.noticeMode .distress = (v.fwdModeChanged .distress).sessionEvent .distress := by
    unfold State.noticeMode
    rw [hv, if_neg part]
    rfl
  unfold State.changeMode
  dsimp only
  rw [if_pos rfl, noticed _ (by rfl)]
  generalize ((s.withUnit fun u => { u with mode := .distress }).bump .modeChanges) = v
  have alerted := (v.fwdModeChanged .distress).sessionEvent .distress |>.recordAlert_keeps .distressEntered .warn .self .nothing
  refine ⟨?_, ?_, ?_⟩
  · rw [alerted .fwd (by decide)]
    exact State.sessionEvent_unguested v.fwdModeChanged_distress _
  · rw [alerted .link (by decide)]
    exact State.sessionEvent_over _ _
  · obtain ⟨a, ha, hk, hv, -⟩ := State.recordAlert_mem ((v.fwdModeChanged .distress).sessionEvent .distress)
      .distressEntered .warn .self .nothing
    exact ⟨a, ha, hk, hv⟩

/-- A qualified mains failure brings DISTRESS, whatever the mode was (R193, R196). -/
theorem State.decideMode_failing (hf : s.unit.mains.failing = true) :
    s.decideMode.unit = { s.unit with mode := .distress } ∧
      (s.unit.mode ≠ .distress → s.decideMode = s.changeMode .distress) := by
  have decided : decidedMode s.unit = .distress := if_pos hf
  refine ⟨by rw [State.decideMode_unit, decided], fun hd => ?_⟩
  unfold State.decideMode
  dsimp only
  rw [decided, if_neg (Ne.symm hd)]

/-! ### The commands -/

theorem exec_eventLineChange (n : LineNo) (high : Bool) (hl : s.live = true) :
    exec (.eventLineChange n high) s = .next
      (if s.serving then ({ s with levels := s.levels.set n.val high n.isLt } : State).lineChanged n high
        else { s with levels := s.levels.set n.val high n.isLt }) := by
  show execEventLineChange n high s = _
  simp only [execEventLineChange, hl, Bool.true_and]

theorem exec_mainsRise {due : Nat} (hl : s.live = true) (hm : s.unit.mains = .rising due) :
    exec .mainsRiseTimeout s = .next
      (({ s with now := max s.now due, unit := { s.unit with mains := .qualified } } : State).decideMode) := by
  show execMainsRiseTimeout s = _
  simp only [execMainsRiseTimeout, hm, hl, if_true]
  rfl

theorem exec_mainsFall {due : Nat} (hl : s.live = true) (hm : s.unit.mains = .falling due) :
    exec .mainsFallTimeout s = .next
      (({ s with now := max s.now due, unit := { s.unit with mains := .clear } } : State).decideMode) := by
  show execMainsFallTimeout s = _
  simp only [execMainsFallTimeout, hm, hl, if_true]
  rfl

theorem exec_mainsRise_idle (hm : ∀ due, s.unit.mains ≠ .rising due) : exec .mainsRiseTimeout s = .next s := by
  show execMainsRiseTimeout s = _
  unfold execMainsRiseTimeout
  cases h : s.unit.mains with
  | rising due => exact absurd h (hm due)
  | clear => rfl
  | qualified => rfl
  | falling due => rfl

theorem exec_mainsFall_idle (hm : ∀ due, s.unit.mains ≠ .falling due) : exec .mainsFallTimeout s = .next s := by
  show execMainsFallTimeout s = _
  unfold execMainsFallTimeout
  cases h : s.unit.mains with
  | falling due => exact absurd h (hm due)
  | clear => rfl
  | qualified => rfl
  | rising due => rfl

end Sys2Proof.Machine

/-! ### The statements -/

open Sys2Proof Sys2Proof.Machine

/-- Settles O46, by the unit that a line's new level leaves, and by what the entry to DISTRESS leaves. -/
theorem eventLinesAndDistress : Obligations.EventLinesAndDistress := by
  unfold Obligations.EventLinesAndDistress
  refine ⟨?lines, ?mains⟩
  case lines =>
    intro s n high hl old asserts line levels lines
    have taken : line = old.takeLevel high := (old.takeLevel_eq high).symm
    have run := exec_eventLineChange (s := s) n high hl
    have lines_eq : lines = s.unit.lines.set n.val ((s.unit.lines.get n).takeLevel high) n.isLt :=
      congrArg (fun l => s.unit.lines.set n.val l n.isLt) taken
    refine ⟨fun hs => ?_, fun hs => ?_, fun hw hm hd hi hu ha hn => ?_⟩
    · rw [run, hs]
      rfl
    · rw [hs, if_pos rfl] at run
      have changed := ({ s with levels := levels } : State).lineChanged_unit n high
      have kept := ({ s with levels := levels } : State).lineChanged_keeps n high
      refine ⟨_, run, kept .levels (by decide), ?_, ?_, ?_⟩
      · rw [changed, lines_eq]
      · rw [changed]
        rfl
      · dsimp only
        rw [changed]
        rfl
    · have hs : s.serving = true := by simp [State.serving, hw]
      rw [run, hs, if_pos rfl, lines_eq]
      exact congrArg _ (State.lineChanged_key (s := { s with levels := levels }) hw hm hd hi hu ha hn)
  case mains =>
    intro s hl
    refine ⟨fun due hm => ?_, fun due hm => ?_, exec_mainsRise_idle, exec_mainsFall_idle⟩
    · have kept := ({ s with now := max s.now due, unit := { s.unit with mains := .qualified } } : State).decideMode_keeps
      obtain ⟨hunit, hchange⟩ := State.decideMode_failing
        (s := { s with now := max s.now due, unit := { s.unit with mains := .qualified } }) rfl
      refine ⟨_, exec_mainsRise hl hm, kept .now (by decide), by rw [hunit], by rw [hunit], fun hd hs => ?_⟩
      rw [hchange hd]
      obtain ⟨⟨hg, hq⟩, hlink, halert⟩ := State.changeMode_distress
        (s := { s with now := max s.now due, unit := { s.unit with mains := .qualified } }) hs
      exact ⟨hg, hq, hlink, halert⟩
    · have kept := ({ s with now := max s.now due, unit := { s.unit with mains := .clear } } : State).decideMode_keeps
      have hunit := ({ s with now := max s.now due, unit := { s.unit with mains := .clear } } : State).decideMode_unit
      refine ⟨_, exec_mainsFall hl hm, kept .now (by decide), by rw [hunit], ?_⟩
      rw [hunit]
      rfl

end

section
/-! PROOFS. The profile image, the preparations of the blocks, and the end of the listening period. -/

namespace Sys2Proof.Machine

open Sys2Proof

variable {s t u : State}

/-! ### The fields of an image (R205, R213) -/

theorem clampField_fst {lo hi : Nat} (h : lo ≤ hi) (v : Nat) : (clampField lo hi v).1 = max lo (min v hi) := by
  unfold clampField
  split
  · simp only; omega
  · split <;> simp only <;> omega

/-- A value outside its range is counted as clamped. -/
theorem clampField_snd (lo hi v : Nat) : (clampField lo hi v).2 = (decide (v < lo ∨ hi < v)).toNat := by
  unfold clampField
  split
  next h => simp [h]
  next h =>
    split
    next h' => simp [h']
    next h' => simp [h, h']

theorem clampField_range {lo hi : Nat} (h : lo ≤ hi) (v : Nat) : lo ≤ (clampField lo hi v).1 ∧ (clampField lo hi v).1 ≤ hi := by
  rw [clampField_fst h]
  omega

theorem orDefault_fst {α : Type} (image : List Byte) (n : Nat) (d : α) (f : α × Nat) :
    (orDefault image n d f).1 = if given image n then f.1 else d := by
  unfold orDefault
  split <;> rfl

theorem orDefault_snd {α : Type} (image : List Byte) (n : Nat) (d : α) {f : α × Nat} {b : Bool} (h : f.2 = b.toNat) :
    (orDefault image n d f).2 = (given image n && b).toNat := by
  unfold orDefault
  cases given image n
  · rfl
  · simp [h]

theorem cashField_fst (v : Nat) : (cashField v).1 = if v ∈ [1, 2, 5, 10] then v else 1 := by
  unfold cashField
  simp only [List.mem_cons, List.not_mem_nil, or_false]
  split <;> rfl

theorem cashField_snd (v : Nat) : (cashField v).2 = (!decide (v ∈ [1, 2, 5, 10])).toNat := by
  unfold cashField
  simp only [List.mem_cons, List.not_mem_nil, or_false]
  split
  next h => simp [h]
  next h => simp [h]

theorem cashField_steps (v : Nat) : let c := (cashField v).1
    c = 1 ∨ c = 2 ∨ c = 5 ∨ c = 10 := by
  intro c
  by_cases h : v = 1 ∨ v = 2 ∨ v = 5 ∨ v = 10
  · simpa [c, cashField, h] using h
  · simp [c, cashField, h]

theorem useField_snd (v : Nat) : (useField v).2 = (decide (3 < v)).toNat := by
  match v with
  | 0 | 1 | 2 | 3 => rfl
  | n + 4 => simp [useField]

theorem useField_other (v : Nat) (h : v = 0 ∨ 3 < v) : (useField v).1 = .none := by
  match v with
  | 0 => rfl
  | n + 4 => rfl
  | 1 | 2 | 3 => omega

theorem length_filter_id_cons (b : Bool) (l : List Bool) :
    ((b :: l).filter id).length = b.toNat + (l.filter id).length := by
  cases b
  · simp
  · simp [Nat.add_comm]

theorem numAt_eq (image : List Byte) (k n : Nat) :
    numAt image k n = ((image.drop k).take n).foldl (fun v b => v * 256 + b.toNat) 0 := rfl

theorem imageOk_iff (image : List Byte) :
    imageOk image = true ↔ image.length = 52 ∧ numAt image 0 4 = 0x4F4E5046 ∧ crc32 (image.take 48) = numAt image 48 4 := by
  simp [imageOk, and_assoc]

theorem orDefault_clamped {image : List Byte} {n d lo hi : Nat} (h : lo ≤ hi) (v : Nat) :
    (orDefault image n d (clampField lo hi v)).1 = if given image n then max lo (min v hi) else d := by
  rw [orDefault_fst, clampField_fst h]

theorem orDefault_cash (image : List Byte) (v : Nat) :
    (orDefault image 1 1 (cashField v)).1 = if given image 1 = true ∧ v ∈ [1, 2, 5, 10] then v else 1 := by
  rw [orDefault_fst, cashField_fst]
  cases given image 1 <;> simp

theorem orDefault_cash_steps (image : List Byte) (v : Nat) : let c := (orDefault image 1 1 (cashField v)).1
    c = 1 ∨ c = 2 ∨ c = 5 ∨ c = 10 := by
  intro c
  show (orDefault image 1 1 (cashField v)).1 = 1 ∨ (orDefault image 1 1 (cashField v)).1 = 2 ∨
    (orDefault image 1 1 (cashField v)).1 = 5 ∨ (orDefault image 1 1 (cashField v)).1 = 10
  rw [orDefault_fst]
  split
  · exact cashField_steps v
  · exact .inl rfl

/-- A field with a default is in a range that holds the default too. -/
theorem orDefault_range {image : List Byte} {n d lo hi : Nat} (v : Nat) (h : lo ≤ hi) (hd : lo ≤ d ∧ d ≤ hi) :
    let x := (orDefault image n d (clampField lo hi v)).1
    lo ≤ x ∧ x ≤ hi := by
  intro x
  show lo ≤ (orDefault image n d (clampField lo hi v)).1 ∧ (orDefault image n d (clampField lo hi v)).1 ≤ hi
  rw [orDefault_fst]
  split
  · exact clampField_range h v
  · exact hd

/-- How many fields of an image were brought into their range (R205). -/
theorem readProfile_clamped (image : List Byte) :
    let read (k n : Nat) : Nat := numAt image k n
    let outside (lo hi v : Nat) : Bool := decide (v < lo ∨ hi < v)
    (readProfile image).2 = ([outside 0 15 (read 6 1), outside 0 16 (read 7 1), outside 0 15 (read 9 1),
       outside 256 100000 (read 11 4), given image 8 && outside 128 100000 (read 17 4),
       given image 5 && outside 0 1439 (read 26 2), given image 4 && outside 1 8 (read 28 1), outside 0 1439 (read 29 2),
       outside 0 1439 (read 31 2), outside 0 1439 (read 33 2), given image 3 && outside 1 24 (read 35 1),
       given image 2 && outside 3 12 (read 36 1), given image 1 && !decide (read 37 1 ∈ [1, 2, 5, 10]),
       given image 0 && outside 1 16384 (read 38 2), decide (3 < read 40 1), decide (3 < read 42 1),
       decide (3 < read 44 1), decide (3 < read 46 1)].filter id).length := by
  intro read outside
  have clamped (n d lo hi v : Nat) : (orDefault image n d (clampField lo hi v)).2 = (given image n && outside lo hi v).toNat :=
    orDefault_snd image n d (clampField_snd lo hi v)
  have cash (v : Nat) : (orDefault image 1 1 (cashField v)).2 = (given image 1 && !decide (v ∈ [1, 2, 5, 10])).toNat :=
    orDefault_snd image 1 1 (cashField_snd v)
  simp only [readProfile, length_filter_id_cons, List.filter_nil, List.length_nil, Nat.add_zero, clamped, cash,
    clampField_snd, useField_snd, outside, read, Nat.add_assoc]

/-! ### What judges the reference and the holder (R103, R150) -/

theorem State.judgedReference_congr (hs : t.settings = s.settings) (hp : t.part = s.part) (hq : t.trunk.peers = s.trunk.peers) :
    t.judgedReference = s.judgedReference := by
  simp only [State.judgedReference, State.self, State.canSend, State.peer, hs, hp, hq]

theorem bestHolder_congr (hs : t.settings = s.settings) (hq : t.trunk.peers = s.trunk.peers) (l : List Station)
    (b : Option Station) : bestHolder t l b = bestHolder s l b := by
  induction l generalizing b with
  | nil => rfl
  | cons n l ih => simp only [bestHolder, State.self, State.peer, hs, hq, ih]; congr

theorem State.judgedHolder_congr (hs : t.settings = s.settings) (hp : t.part = s.part) (hq : t.trunk.peers = s.trunk.peers)
    (hu : t.fwd.up = s.fwd.up) (hh : t.fwd.holder = s.fwd.holder) : t.judgedHolder = s.judgedHolder := by
  simp only [State.judgedHolder, State.canSend, State.peer, hp, hq, hu, hh, bestHolder_congr hs hq]
  congr

/-- The holder's judgement may end the attempt in progress; it starts none and leaves the early notice. -/
theorem State.judgeHolder_follows (s : State) :
    s.journal.Remarked s.judgeHolder.journal ∧ s.link.Follows s.judgeHolder.link := by
  have changed (h : Option Station) : s.journal.Remarked ((s.withFwd fun w => { w with holder := h }).bump .holderChanges).journal ∧
      s.link.Follows ((s.withFwd fun w => { w with holder := h }).bump .holderChanges).link := by
    rw [State.bump_journal, State.bump_link]
    exact ⟨.refl _, .refl _⟩
  unfold State.judgeHolder
  dsimp only
  split
  · exact ⟨.refl _, .refl _⟩
  · split
    · exact changed _
    · split
      · have ended := ((s.withFwd fun w => { w with holder := s.judgedHolder }).bump .holderChanges).sessionEvent_proceeds .pathLost
        exact ⟨(changed _).1.trans ended.journal, (changed _).2.trans ended.link⟩
      · exact changed _

/-! ### The preparations (R50, R76, R120, R166, R196, R198) -/

theorem State.settleLanes_lane (s : State) (l : LaneNo) :
    s.settleLanes.lane l = { s.lane l with state := if l.val < s.settings.laneCount then .down else .disabled } := by
  simp [State.lane, State.settleLanes, Vector.get_eq_getElem]

theorem State.ownLabels_owned (s : State) (n : Nat) :
    s.ownLabels.owned n = (s.owned n).map fun o => { o with hearing := { o.hearing with owner := s.self } } :=
  AMap.get_map s.labels.owned (fun o : Owned => { o with hearing := { o.hearing with owner := s.self } }) n

/-- The journal in STARTING: a flag set is an alert, and a notice for the end of the listening period (R76, R171). -/
theorem State.settleJournal_high (hp : s.part = .starting) (h : s.settings.highWatermark ≤ s.journal.records.length) :
    s.settleJournal = ((s.withJournal fun j => { j with high := true }).recordAlert .journalHigh .warn .self
      (.count s.journal.records.length)).withLink fun l => { l with earlyPending := true } := by
  have part : ((s.withJournal fun j => { j with high := true }).recordAlert .journalHigh .warn .self
      (.count s.journal.records.length)).part = .starting := ((State.recordAlert_keeps _ _ _ _ _) .part (by decide)).trans hp
  unfold State.settleJournal State.journalLoaded
  simp only [h, decide_true, if_true]
  unfold State.watermarkCrossed
  rw [part]

theorem State.settleJournal_low (h : s.journal.records.length < s.settings.highWatermark) :
    s.settleJournal = s.withJournal fun j => { j with high := false } := by
  unfold State.settleJournal State.journalLoaded
  simp [Nat.not_le.2 h]

/-- In STARTING a mode decided is told to no block (R197). -/
theorem State.decideMode_starting (hp : s.part = .starting) :
    keeps [.unit, .counts, .alerts] s s.decideMode ∧ State.Alerts 1 s s.decideMode := by
  have told (m : Mode) : ((s.withUnit fun u => { u with mode := m }).bump .modeChanges).noticeMode m =
      (s.withUnit fun u => { u with mode := m }).bump .modeChanges := by
    have part : ((s.withUnit fun u => { u with mode := m }).bump .modeChanges).part = .starting :=
      ((State.bump_keeps _ _) .part (by decide)).trans hp
    unfold State.noticeMode
    exact if_pos (.inl part)
  have changed (m : Mode) : keeps [.unit, .counts] s ((s.withUnit fun u => { u with mode := m }).bump .modeChanges) := by simp
  unfold State.decideMode State.changeMode
  dsimp only
  rw [told]
  split
  · exact ⟨keeps.refl _ _, .refl _ _⟩
  · split
    · exact ⟨((changed _).mono (by decide)).trans ((State.recordAlert_keeps _ _ _ _ _).mono (by decide)),
        (State.Alerts.of_keeps (changed _) (by decide) 0).trans (.recordAlert _ _ _ _ _)⟩
    · exact ⟨(changed _).mono (by decide), .of_keeps (changed _) (by decide) 1⟩

/-- The lines as the profile and their levels give them (R198). -/
def State.linesRead (s : State) : Vector EventLine 4 :=
  Vector.ofFn fun i : LineNo =>
    { use := (s.settings.lines.get i).1, activeHigh := (s.settings.lines.get i).2
      asserted := s.levels.get i == (s.settings.lines.get i).2, edges := (s.unit.lines.get i).edges }

theorem State.linesRead_get (s : State) (i : LineNo) :
    s.linesRead.get i = { use := (s.settings.lines.get i).1, activeHigh := (s.settings.lines.get i).2
                          asserted := s.levels.get i == (s.settings.lines.get i).2, edges := (s.unit.lines.get i).edges } := by
  simp [State.linesRead, Vector.get_eq_getElem]

theorem State.readLines_lines (s : State) : s.readLines.unit.lines = s.linesRead := by
  unfold State.readLines
  dsimp only
  split
  · rw [State.mainsChanged_unit]
    rfl
  · rfl

theorem State.readLines_mains (hm : s.unit.mains = .clear) :
    s.readLines.unit.mains =
      if s.readLines.unit.asserted .mainsFail then .rising (s.now + Config.seconds 2) else .clear := by
  have asserted : s.readLines.unit.asserted .mainsFail = ({ s.unit with lines := s.linesRead } : ModeUnit).asserted .mainsFail :=
    congrArg (fun l : Vector EventLine 4 => ({ s.unit with lines := l } : ModeUnit).asserted .mainsFail) s.readLines_lines
  rw [asserted]
  unfold State.readLines
  dsimp only
  split
  next h =>
    rw [State.mainsChanged_unit]
    simp only [State.withUnit, hm]
    exact (if_pos h).symm
  next h => exact hm.trans (if_neg h).symm

/-- The state with the profile's journal flag judged (R76). -/
def State.settled (s : State) : State := s.settleLanes.ownLabels.settleJournal

/-- What the preparations leave, in STARTING, of what the entry to LISTENING and the obligation ask. -/
structure State.Prepared (s t : State) : Prop where
  keeps : Machine.keeps [.lanes, .labels, .journal, .link, .fwd, .counts, .alerts, .unit] s t
  lanes : ∀ l, t.lane l = { s.lane l with state := if l.val < s.settings.laneCount then .down else .disabled }
  labels : t.labels = s.ownLabels.labels
  high : t.journal.high = decide (s.settings.highWatermark ≤ s.journal.records.length)
  early : t.link.earlyPending = (decide (s.settings.highWatermark ≤ s.journal.records.length) || s.link.earlyPending)
  alerts : s.settings.highWatermark ≤ s.journal.records.length → ∃ v : State,
    AlertList.Grows 1 (v.recordAlert .journalHigh .warn .self (.count s.journal.records.length)).alerts t.alerts
  fwd : t.fwd = { s.fwd with up := s.carrier && s.settings.uplinkPresent }
  mode : t.unit.mode = decidedMode t.unit
  lines : t.unit.lines = s.linesRead
  mains : s.unit.mains = .clear →
    t.unit.mains = if t.unit.asserted .mainsFail then .rising (s.now + Config.seconds 2) else .clear

theorem State.settleJournal_starting (hp : s.part = .starting) :
    Machine.keeps [.journal, .link, .counts, .alerts] s s.settleJournal := by
  by_cases h : s.settings.highWatermark ≤ s.journal.records.length
  · rw [State.settleJournal_high hp h]
    simp
  · rw [State.settleJournal_low (Nat.not_le.1 h)]
    simp

/-- What the judgement of the watermark leaves of the journal, the session and the alerts. -/
theorem State.settleJournal_spec (hp : s.part = .starting) :
    s.settleJournal.journal.high = decide (s.settings.highWatermark ≤ s.journal.records.length) ∧
    s.settleJournal.link.earlyPending = (decide (s.settings.highWatermark ≤ s.journal.records.length) || s.link.earlyPending) ∧
    (s.settings.highWatermark ≤ s.journal.records.length → ∃ v : State,
      s.settleJournal.alerts = (v.recordAlert .journalHigh .warn .self (.count s.journal.records.length)).alerts) := by
  by_cases h : s.settings.highWatermark ≤ s.journal.records.length
  · have alerted := (s.withJournal fun j => { j with high := true }).recordAlert_keeps
      .journalHigh .warn .self (.count s.journal.records.length)
    rw [State.settleJournal_high hp h, decide_eq_true h]
    refine ⟨?_, rfl, fun _ => ⟨_, rfl⟩⟩
    exact congrArg Journal.high (alerted .journal (by decide))
  · rw [State.settleJournal_low (Nat.not_le.1 h), decide_eq_false h]
    exact ⟨rfl, rfl, fun k => absurd k h⟩

theorem State.settled_keeps (hp : s.part = .starting) :
    Machine.keeps [.lanes, .labels, .journal, .link, .counts, .alerts] s s.settled := by
  have before : keeps [.lanes, .labels] s s.settleLanes.ownLabels := by simp
  have part : s.settleLanes.ownLabels.part = .starting := (before .part (by decide)).trans hp
  exact (before.mono (by decide)).trans ((State.settleJournal_starting part).mono (by decide))

theorem State.settled_spec (hp : s.part = .starting) :
    s.settled.journal.high = decide (s.settings.highWatermark ≤ s.journal.records.length) ∧
    s.settled.link.earlyPending = (decide (s.settings.highWatermark ≤ s.journal.records.length) || s.link.earlyPending) ∧
    (s.settings.highWatermark ≤ s.journal.records.length → ∃ v : State,
      s.settled.alerts = (v.recordAlert .journalHigh .warn .self (.count s.journal.records.length)).alerts) := by
  have before : keeps [.lanes, .labels] s s.settleLanes.ownLabels := by simp
  have part : s.settleLanes.ownLabels.part = .starting := (before .part (by decide)).trans hp
  have settings : s.settleLanes.ownLabels.settings = s.settings := before .settings (by decide)
  have journal : s.settleLanes.ownLabels.journal = s.journal := before .journal (by decide)
  have link : s.settleLanes.ownLabels.link = s.link := before .link (by decide)
  have spec := State.settleJournal_spec part
  rwa [settings, journal, link] at spec

theorem State.prepare_prepared (hp : s.part = .starting) : s.Prepared s.prepare := by
  have settled := State.settled_keeps hp
  obtain ⟨high, early, alerts⟩ := State.settled_spec hp
  have self : s.settled.part = .starting := (settled .part (by decide)).trans hp
  have carrier : s.settled.carrier = s.carrier := settled .carrier (by decide)
  have settings : s.settled.settings = s.settings := settled .settings (by decide)
  have levels : s.settled.levels = s.levels := settled .levels (by decide)
  have unit : s.settled.unit = s.unit := settled .unit (by decide)
  have now : s.settled.now = s.now := settled .now (by decide)
  have fwd : s.settled.fwd = s.fwd := settled .fwd (by decide)
  have linked : s.prepare = ((s.settled.withFwd fun w => { w with up := s.settled.carrier && s.settled.settings.uplinkPresent }).readLines).decideMode := rfl
  generalize hr : (s.settled.withFwd fun w => { w with up := s.settled.carrier && s.settled.settings.uplinkPresent }) = r at linked
  have raised : Machine.keeps [.fwd] s.settled r := hr ▸ State.withFwd_keeps _ _
  have read := r.readLines_keeps
  have part : r.readLines.part = .starting := (read .part (by decide)).trans ((raised .part (by decide)).trans self)
  have decided := State.decideMode_starting part
  have hunit := r.readLines.decideMode_unit
  have after := (raised.mono (fs := [.fwd, .unit, .counts, .alerts]) (by decide)).trans
    ((read.mono (by decide)).trans (decided.1.mono (by decide)))
  have runit : r.unit = s.unit := (raised .unit (by decide)).trans unit
  have rlines : r.linesRead = s.linesRead := by
    have hs : r.settings = s.settings := (raised .settings (by decide)).trans settings
    have hl : r.levels = s.levels := (raised .levels (by decide)).trans levels
    simp only [State.linesRead, hs, hl, runit]
  have relabel : s.settled.labels = s.ownLabels.labels := by
    have kept := (s.settleLanes.ownLabels).settleJournal_keeps
    exact kept .labels (by decide)
  have relane : s.settled.lanes = s.settleLanes.lanes := (s.settleLanes.ownLabels).settleJournal_keeps .lanes (by decide)
  rw [linked]
  refine ⟨?_, fun l => ?_, ?_, ?_, ?_, fun h => ?_, ?_, ?_, ?_, fun hm => ?_⟩
  · exact (settled.mono (by decide)).trans (after.mono (by decide))
  · rw [← State.settleLanes_lane]
    exact congrArg (Vector.get · l) ((after .lanes (by decide)).trans relane)
  · exact (after .labels (by decide)).trans relabel
  · exact (congrArg Journal.high (after .journal (by decide))).trans high
  · exact (congrArg Link.earlyPending (after .link (by decide))).trans early
  · obtain ⟨v, hv⟩ := alerts h
    refine ⟨v, ?_⟩
    rw [← hv]
    exact ((State.Alerts.of_keeps raised (by decide) 0).trans (.of_keeps read (by decide) 0)).trans decided.2
  · refine ((decided.1 .fwd (by decide)).trans (read .fwd (by decide))).trans ?_
    rw [← hr, carrier, settings]
    exact congrArg (fun w : Forwarding => { w with up := s.carrier && s.settings.uplinkPresent }) fwd
  · rw [hunit]
    rfl
  · rw [hunit]
    exact (State.readLines_lines r).trans rlines
  · have mains := State.readLines_mains (s := r) (by rw [runit]; exact hm)
    rw [hunit]
    have rnow : r.now = s.now := (raised .now (by decide)).trans now
    rw [rnow] at mains
    exact mains

/-! ### The entry to LISTENING (R87, R134, R207) -/

/-- What the entry to LISTENING leaves: its timers, cycle 0, and the judgements of the reference and the holder. -/
structure State.Listens (s t : State) : Prop where
  part : t.part = .listening
  listenTimer : t.listenTimer = some (s.now + Config.seconds 3)
  trunk : t.trunk = { s.trunk with beaconTimer := some s.now }
  labels : ∃ a n, t.labels = { s.labels with cycle := 0, slot := 0, length := n, slotEnd := some (s.now + slotLength n)
                                             reference := t.judgedReference, aligned := a } ∧
    (s.labels.markLength = none → n = cycleLength s.unit.mode)
  holder : t.fwd.holder = (t.withFwd fun w => { w with holder := s.fwd.holder }).judgedHolder
  up : t.fwd.up = s.fwd.up
  journal : s.journal.Remarked t.journal
  link : s.link.Follows t.link
  alerts : State.Alerts 1 s t
  keeps : Machine.keeps [.part, .listenTimer, .trunk, .labels, .link, .journal, .counts, .fwd, .staging, .alerts] s t

theorem State.enterListening_listens (s : State) : s.Listens s.enterListening := by
  generalize hj : (({ s with part := .listening, listenTimer := some (s.now + Config.seconds 3) } : State).withTrunk
    fun t => { t with beaconTimer := some s.now }).judgeReference = j
  have kj : Machine.keeps [.part, .listenTimer, .trunk, .labels] s j := by
    subst hj
    intro f hf
    cases f
    case part => exact absurd (by decide) hf
    case listenTimer => exact absurd (by decide) hf
    case trunk => exact absurd (by decide) hf
    case labels => exact absurd (by decide) hf
    all_goals rfl
  have kh := j.judgeHolder_keeps
  have into : s.enterListening = j.judgeHolder.withLabels fun l =>
      { l with cycle := 0, slot := 0, length := j.judgeHolder.nextLength
               slotEnd := some (s.now + slotLength j.judgeHolder.nextLength) } := by
    subst hj
    rfl
  have kl := j.judgeHolder.withLabels_keeps fun l =>
      { l with cycle := 0, slot := 0, length := j.judgeHolder.nextLength
               slotEnd := some (s.now + slotLength j.judgeHolder.nextLength) }
  obtain ⟨holder, up⟩ := j.judgeHolder_spec
  obtain ⟨journal, link⟩ := j.judgeHolder_follows
  have jpart : j.part = .listening := hj ▸ rfl
  have jtrunk : j.trunk = { s.trunk with beaconTimer := some s.now } := hj ▸ rfl
  have jref : ∃ a, j.labels = { s.labels with reference := j.judgedReference, aligned := a } := by
    subst hj
    exact ⟨_, rfl⟩
  have peers : s.enterListening.trunk.peers = j.trunk.peers := by rw [into]; exact congrArg Trunk.peers (kh .trunk (by decide))
  have settings : s.enterListening.settings = j.settings := by rw [into]; exact kh .settings (by decide)
  have part : s.enterListening.part = j.part := by rw [into]; exact kh .part (by decide)
  have fwd : s.enterListening.fwd = j.judgeHolder.fwd := by rw [into]; rfl
  refine ⟨part.trans jpart, ?_, ?_, ?_, ?_, ?_, ?_, ?_, ?_, ?_⟩
  · rw [into]
    exact (kh .listenTimer (by decide)).trans (hj ▸ rfl)
  · rw [into]
    exact (kh .trunk (by decide)).trans jtrunk
  · obtain ⟨a, ha⟩ := jref
    have relabel : j.judgeHolder.labels = j.labels := kh .labels (by decide)
    refine ⟨a, j.judgeHolder.nextLength, ?_, fun hm => ?_⟩
    · rw [State.judgedReference_congr settings part peers, into]
      simp only [State.withLabels, relabel, ha]
    · have unit : j.judgeHolder.unit = s.unit := (kh .unit (by decide)).trans (kj .unit (by decide))
      simp only [State.nextLength, relabel, ha, hm, unit]
  · rw [fwd, holder]
    refine (State.judgedHolder_congr (t := s.enterListening.withFwd fun w => { w with holder := s.fwd.holder })
      settings part peers ?_ ?_).symm
    · exact (congrArg Forwarding.up fwd).trans up
    · exact (congrArg Forwarding.holder (kj .fwd (by decide))).symm
  · rw [fwd, up]
    exact congrArg Forwarding.up (kj .fwd (by decide))
  · have same : j.journal = s.journal := kj .journal (by decide)
    rw [into]
    exact same ▸ journal
  · have same : j.link = s.link := kj .link (by decide)
    rw [into]
    exact same ▸ link
  · rw [into]
    exact ((State.Alerts.of_keeps kj (by decide) 0).trans j.judgeHolder_alerts).trans (.of_keeps kl (by decide) 0)
  · rw [into]
    exact (kj.mono (by decide)).trans ((kh.mono (by decide)).trans (kl.mono (by decide)))

end Sys2Proof.Machine
end

section
/-! PROOFS. The end of the listening period, and the profile's commands. -/

namespace Sys2Proof.Machine

open Sys2Proof

variable {s t u : State}

/-! ### The peer table under the shelves' work (R127) -/

/-- The peer table stands. -/
def State.SamePeers (s t : State) : Prop := t.trunk.peers = s.trunk.peers

theorem State.SamePeers.refl (s : State) : s.SamePeers s := rfl

theorem State.SamePeers.trans (h : s.SamePeers t) (k : t.SamePeers u) : s.SamePeers u := Eq.trans k h

theorem State.SamePeers.of_keeps {fs : List Field} (hk : keeps fs s t) (hf : Field.trunk ∉ fs) : s.SamePeers t :=
  congrArg Trunk.peers (hk .trunk hf)

theorem State.SamePeers.foldl {α : Type} {g : State → α → State} (hg : ∀ (s : State) x, s.SamePeers (g s x)) (l : List α)
    (s : State) : s.SamePeers (l.foldl g s) := by
  induction l generalizing s with
  | nil => exact .refl s
  | cons x l ih => exact (hg s x).trans (ih _)

theorem Trunk.setQueue_peers (w : Trunk) (c : TrunkClass) (q : List Frame) : (w.setQueue c q).peers = w.peers := by
  cases c <;> rfl

theorem Trunk.setHold_peers (w : Trunk) (c : TrunkClass) (q : List Frame) : (w.setHold c q).peers = w.peers := by
  cases c <;> rfl

theorem State.offer_peers (s : State) (f : Frame) : s.SamePeers (s.offer f).2 := by
  unfold State.offer
  dsimp only
  split
  · exact .of_keeps (s.bump_keeps _) (by decide)
  split
  · exact Trunk.setQueue_peers _ _ _
  split
  · exact .of_keeps (s.bump_keeps _) (by decide)
  split
  · split <;> exact .refl s
  · have held : s.SamePeers (s.withTrunk fun t => t.setHold f.body.trunkClass (t.hold f.body.trunkClass ++ [f])) :=
      Trunk.setHold_peers _ _ _
    exact held.trans (.of_keeps (State.bump_keeps _ _) (by decide))

theorem State.retarget_peers (s : State) (n : Nat) (x : Target) : s.SamePeers (s.retarget n x) := by
  unfold State.retarget
  split
  · exact .refl s
  · dsimp only
    split
    case h_5 m hm =>
      split
      · exact .refl s
      · exact State.offer_peers _ _
    all_goals exact .refl s

theorem State.mark_peers (s : State) (a : Nat) (x : Target) : s.SamePeers (s.mark a x) :=
  .foldl (fun s n => s.retarget_peers n x) _ s

theorem State.unbindAll_peers (s : State) (a : Nat) : s.SamePeers (s.unbindAll a) := by
  refine .foldl (fun s n => ?_) _ s
  unfold State.unbindOne
  split
  · exact .refl s
  next o ho =>
    have put : s.SamePeers (s.putOwned n { o with bound := none }) := .of_keeps (s.putOwned_keeps n _) (by decide)
    exact (put.trans (State.retarget_peers _ _ _)).trans (.of_keeps (State.uncountBound_keeps _ a) (by decide))

theorem State.complete_peers (s : State) (a : Nat) (c : Changeover) : s.SamePeers (s.complete a c) := by
  unfold State.complete
  split
  · exact .of_keeps (s.modifyEntry_keeps a _) (by decide)
  · refine (s.unbindAll_peers a).trans ?_
    dsimp only
    split
    · exact .of_keeps (State.removeEntry_keeps _ a) (by decide)
    · split
      · exact .of_keeps (State.modifyEntry_keeps _ a _) (by decide)
      · exact .of_keeps (fs := [.book, .counts]) (by simp) (by decide)

theorem State.release_peers (s : State) (a : Nat) (c : Changeover) (n : Station) : s.SamePeers (s.release a c n) := by
  unfold State.release
  dsimp only
  split
  · exact (State.SamePeers.of_keeps (s.modifyEntry_keeps a _) (by decide)).trans (State.complete_peers _ a _)
  · exact .of_keeps (s.modifyEntry_keeps a _) (by decide)

theorem State.formReports_peers (s : State) : s.SamePeers s.formReports := by
  unfold State.formReports
  split
  · exact .refl s
  · exact s.offer_peers _

theorem State.localDone_peers (s : State) (a v : Nat) : s.SamePeers (s.localDone a v) := by
  unfold State.localDone
  repeat' split
  case h_3.isTrue =>
    exact ((State.SamePeers.of_keeps (s.addReport_keeps _) (by decide)).trans (State.release_peers _ _ _ _)).trans
      (State.formReports_peers _)
  all_goals exact .refl s

theorem State.listeningShelfCheck_peers (s : State) : s.SamePeers s.listeningShelfCheck := by
  refine .foldl (fun s a => ?_) _ s
  unfold State.listeningCheck
  repeat' split
  case h_3.isTrue => exact s.localDone_peers a _
  all_goals exact .refl s

/-! ### The end of the listening period (R103, R207) -/

/-- The reference is judged from the peer table as it stood. -/
theorem State.endListening_reference (s : State) : s.endListening.labels.reference = s.judgedReference := by
  have checked := s.listeningShelfCheck_keeps
  have holder := s.listeningShelfCheck.judgeReference.judgeHolder_keeps
  have noticed := s.listeningShelfCheck.judgeReference.judgeHolder.takeEarlyNotice_keeps
  calc s.endListening.labels.reference
    _ = s.listeningShelfCheck.judgeReference.labels.reference :=
      congrArg Labels.reference ((noticed .labels (by decide)).trans (holder .labels (by decide)))
    _ = s.listeningShelfCheck.judgedReference := rfl
    _ = s.judgedReference := State.judgedReference_congr (checked .settings (by decide)) (checked .part (by decide))
      s.listeningShelfCheck_peers

/-- With no entry, no holder, an uplink and no notice remembered, there is nothing else to do at its end. -/
theorem State.endListening_quiet (he : s.link.earlyPending = false) (hh : s.fwd.holder = none) (hb : s.book.entries = [])
    (hu : s.fwd.up = true) : s.endListening = s.judgeReference := by
  have checked : s.listeningShelfCheck = s := by
    unfold State.listeningShelfCheck
    rw [hb]
    rfl
  have held : s.judgeReference.judgeHolder = s.judgeReference := by
    have up : s.judgeReference.fwd.up = true := hu
    have none' : s.judgeReference.judgedHolder = none := by simp [State.judgedHolder, up]
    unfold State.judgeHolder
    rw [none']
    exact if_pos hh.symm
  unfold State.endListening
  rw [checked, held]
  unfold State.takeEarlyNotice
  exact if_neg (by rw [show s.judgeReference.link = s.link from rfl, he]; decide)

theorem exec_listeningTimer_other {due : Nat} (hl : s.live = true) (ht : s.listenTimer = some due) (hp : s.part ≠ .listening) :
    exec .listeningTimerExpiry s = .next { s with now := max s.now due, listenTimer := none } := by
  show execListeningTimerExpiry s = _
  simp only [execListeningTimerExpiry, ht, hl, if_true]
  exact congrArg _ (if_neg hp)

/-! ### PROFILE_LOAD (R206, R207, R208) -/

/-- The state that has taken an image's settings. -/
def State.profiled (s : State) (image : List Byte) : State :=
  { s with image := some image, settings := (readProfile image).1, clamped := (readProfile image).2 }

theorem exec_profileLoad_none (hl : s.live = true) (hp : s.part = .starting) :
    exec (.profileLoad none) s = .next { s with part := .halted } := by
  show execProfileLoad none s = _
  simp [execProfileLoad, hl, hp]

theorem exec_profileLoad_bad {image : List Byte} (hl : s.live = true) (hp : s.part = .starting) (hi : imageOk image = false) :
    exec (.profileLoad (some image)) s = .next { s with part := .halted, image := some image } := by
  show execProfileLoad (some image) s = _
  simp [execProfileLoad, hl, hp, hi]

theorem exec_profileLoad_good {image : List Byte} (hl : s.live = true) (hp : s.part = .starting) (hi : imageOk image = true) :
    exec (.profileLoad (some image)) s = .next (s.profiled image).prepare.enterListening := by
  show execProfileLoad (some image) s = _
  simp [execProfileLoad, hl, hp, hi, State.profiled]

end Sys2Proof.Machine

/-! ### The statements -/

open Sys2Proof Sys2Proof.Machine

/-- Settles O49: the image field by field, the preparations and the entry to LISTENING, and the end of the listening
period. -/
theorem profileDecidesTheStart : Obligations.ProfileDecidesTheStart := by
  unfold Obligations.ProfileDecidesTheStart
  refine ⟨⟨fun s hl hp => ⟨exec_profileLoad_none hl hp, fun image => ⟨exec_profileLoad_bad hl hp, fun hi => ?load⟩⟩,
    ?image⟩, fun s due hl ht => ⟨fun hp => ?listened, exec_listeningTimer_other hl ht⟩⟩
  case load =>
    have prepared := State.prepare_prepared (s := s.profiled image) hp
    generalize hq : (s.profiled image).prepare = p at prepared
    have listens := p.enterListening_listens
    have run := exec_profileLoad_good hl hp hi
    rw [hq] at run
    have now : p.now = s.now := prepared.keeps .now (by decide)
    have settings : p.enterListening.settings = (readProfile image).1 :=
      (listens.keeps .settings (by decide)).trans (prepared.keeps .settings (by decide))
    have unit : p.enterListening.unit = p.unit := listens.keeps .unit (by decide)
    obtain ⟨a, n, labels, length⟩ := listens.labels
    refine ⟨_, run, listens.part, now ▸ listens.listenTimer,
      (listens.keeps .image (by decide)).trans (prepared.keeps .image (by decide)), settings,
      (listens.keeps .clamped (by decide)).trans (prepared.keeps .clamped (by decide)), ?beacon, by rw [labels], by rw [labels],
      ?lanes, ?high, ?early, ?noEarly, ?absent, ?owned, ?slot, ?length, by rw [labels], ?holder, ?up, ?mode, ?lines, ?mains⟩
    case beacon => rw [listens.trunk, now]
    case lanes =>
      intro l
      rw [settings]
      have lane : p.enterListening.lane l = p.lane l := State.lane_of_keeps listens.keeps (by decide) l
      rw [lane, prepared.lanes l]
      rfl
    case high =>
      rw [settings, listens.journal.high, prepared.high]
      exact decide_eq_true_iff
    case early =>
      rw [settings]
      intro h
      have high : decide ((s.profiled image).settings.highWatermark ≤ (s.profiled image).journal.records.length) = true :=
        decide_eq_true h
      refine ⟨by rw [listens.link.earlyPending, prepared.early, high]; rfl, ?_⟩
      obtain ⟨v, hv⟩ := prepared.alerts h
      obtain ⟨x, hx, hk, hs, hj, hd, -⟩ := State.recordAlert_stays (hv.trans listens.alerts) (by decide)
      exact ⟨x, hx, hk, hs, hj, hd⟩
    case noEarly =>
      rw [settings]
      intro h
      rw [listens.link.earlyPending, prepared.early]
      have low : decide ((s.profiled image).settings.highWatermark ≤ (s.profiled image).journal.records.length) = false :=
        decide_eq_false (Nat.not_le.2 h)
      rw [low]
      rfl
    case absent =>
      intro m hm
      have same : p.enterListening.owned m = (s.profiled image).ownLabels.owned m := by
        simp only [State.owned, labels, prepared.labels]
      rw [same, State.ownLabels_owned]
      exact congrArg _ hm
    case owned =>
      intro m o ho
      have same : p.enterListening.owned m = (s.profiled image).ownLabels.owned m := by
        simp only [State.owned, labels, prepared.labels]
      rw [same, State.ownLabels_owned, settings]
      exact congrArg _ ho
    case slot => rw [labels, now]; rfl
    case length =>
      intro hm
      rw [labels, unit]
      refine (length ?_).trans ?_
      · rw [prepared.labels]
        exact hm
      · cases p.unit.mode <;> rfl
    case holder =>
      have held : p.fwd.holder = s.fwd.holder := by rw [prepared.fwd]; rfl
      rw [← held]
      exact listens.holder
    case up =>
      rw [listens.up, prepared.fwd, settings]
      rfl
    case mode => rw [unit]; exact prepared.mode
    case lines =>
      intro i
      rw [unit, settings, prepared.lines]
      exact State.linesRead_get _ i
    case mains =>
      intro hm fails
      have fails_iff : fails ↔ p.unit.asserted .mainsFail = true := by
        rw [ModeUnit.asserted_iff, ← unit]
      rw [unit, prepared.mains hm, fails_iff]
      exact ⟨fun h => if_pos h, fun h => if_neg h⟩
  case image =>
    intro image c read within isGiven use outside
    refine ⟨imageOk_iff image, ?fields, readProfile_clamped image, ?ranges⟩
    case fields =>
      have line (i : Fin 4) : c.lines.get i = ((useField (read (40 + 2 * i.val) 1)).1, read (41 + 2 * i.val) 1 != 0) := by
        simp [c, readProfile, Vector.get_eq_getElem, flagField, read, numAt_eq]
      refine ⟨?_, clampField_fst (by decide) _, rfl, clampField_fst (by decide) _, rfl, clampField_fst (by decide) _, rfl, rfl,
        orDefault_clamped (by decide) _, orDefault_fst image 7 _ _, orDefault_fst image 6 _ _, orDefault_clamped (by decide) _,
        orDefault_clamped (by decide) _, clampField_fst (by decide) _, clampField_fst (by decide) _,
        clampField_fst (by decide) _, orDefault_clamped (by decide) _, orDefault_clamped (by decide) _, orDefault_cash image _,
        orDefault_clamped (by decide) _, fun i => ?_⟩
      · have range := (clampField_range (lo := 0) (hi := 15) (by decide) (read 6 1)).2
        exact (Nat.mod_eq_of_lt (Nat.lt_succ_of_le range)).trans (clampField_fst (by decide) _)
      · rw [line]
        refine ⟨rfl, fun h => ?_, fun h => ?_, fun h => ?_, useField_other _⟩ <;>
          exact congrArg (fun v => (useField v).1) h
    case ranges =>
      exact ⟨(clampField_range (by decide) _).2, (clampField_range (by decide) _).2, clampField_range (by decide) _,
        orDefault_range _ (by decide) (by decide), (orDefault_range (lo := 0) _ (by decide) (by decide)).2,
        orDefault_range _ (by decide) (by decide), (clampField_range (by decide) _).2, (clampField_range (by decide) _).2,
        (clampField_range (by decide) _).2, orDefault_range _ (by decide) (by decide),
        orDefault_range _ (by decide) (by decide), orDefault_cash_steps image _, orDefault_range _ (by decide) (by decide)⟩
  case listened =>
    have run := exec_listeningTimerExpiry hl ht hp
    generalize hv : ({ s with now := max s.now due, listenTimer := none, part := .running } : State) = v at run
    have kept := v.endListening_keeps
    refine ⟨_, run, (kept .part (by decide)).trans (hv ▸ rfl), (kept .listenTimer (by decide)).trans (hv ▸ rfl),
      (kept .now (by decide)).trans (hv ▸ rfl), ?_, fun he hh hb hu => ?_⟩
    · rw [State.endListening_reference]
      refine State.judgedReference_congr ?_ ?_ ?_ <;> exact hv ▸ rfl
    · have quiet := State.endListening_quiet (s := v) (hv ▸ he) (hv ▸ hh) (hv ▸ hb) (hv ▸ hu)
      rw [quiet, ← hv]
      exact ⟨rfl, rfl, rfl⟩

end

section
/-! PROOFS. What the reading commands report. -/

namespace Sys2Proof.Machine

open Sys2Proof

variable {s t u : State}

/-! ### The place of a label in the update list (R80, R101) -/

/-- The entry is UPDATE-DUE and stands before the label `n` that falls due at `due`. -/
def fallsBefore (due n : Nat) (x : Nat × Owned) : Bool :=
  match x.2.state with
  | .updateDue d => decide (d < due ∨ (d = due ∧ x.1 < n))
  | .showing => false
  | .sent _ => false
  | .moving _ => false
  | .lost => false

/-- `dueSooner`, decided. -/
def sooner (x y : Nat × Nat) : Bool := decide (x.1 < y.1 ∨ (x.1 = y.1 ∧ x.2 < y.2))

theorem sooner_iff (x y : Nat × Nat) : sooner x y = true ↔ dueSooner x y := decide_eq_true_iff

theorem sooner_self (x : Nat × Nat) : sooner x x = false := by simp [sooner]

theorem sooner_asymm {x y : Nat × Nat} (h : dueSooner x y) : sooner y x = false := by
  unfold dueSooner at h
  unfold sooner
  rw [decide_eq_false_iff_not]
  omega

theorem insertDue_perm (x : Nat × Nat) (l : List (Nat × Nat)) : (insertDue x l).Perm (x :: l) := by
  induction l with
  | nil => exact .refl _
  | cons y l ih =>
    unfold insertDue
    split
    · exact .refl _
    · exact (ih.cons y).trans (.swap x y l)

theorem updateList_countP (m : List (Nat × Owned)) (due n : Nat) :
    (updateList m).countP (sooner · (due, n)) = (m.filter (fallsBefore due n)).length := by
  induction m with
  | nil => rfl
  | cons e m ih =>
    obtain ⟨k, o⟩ := e
    rw [List.filter_cons]
    unfold updateList
    cases hs : o.state with
    | updateDue d =>
      have falls : fallsBefore due n (k, o) = sooner (d, k) (due, n) := by
        simp [fallsBefore, hs, sooner]
      rw [(insertDue_perm _ _).countP_eq, List.countP_cons, ih, falls]
      split <;> rfl
    | showing => rw [ih, if_neg (by simp [fallsBefore, hs])]
    | sent d => rw [ih, if_neg (by simp [fallsBefore, hs])]
    | moving m => rw [ih, if_neg (by simp [fallsBefore, hs])]
    | lost => rw [ih, if_neg (by simp [fallsBefore, hs])]

/-- In a list in order an item stands behind exactly those that go before it. -/
theorem findIdx_of_ordered {l : List (Nat × Nat)} (h : l.Pairwise dueSooner) {y : Nat × Nat} (hy : y ∈ l)
    (hu : ∀ z ∈ l, z.2 = y.2 → z = y) :
    (l.map (·.2)).findIdx? (· == y.2) = some (l.countP (sooner · y)) := by
  induction l with
  | nil => cases hy
  | cons z l ih =>
    obtain ⟨hz, hl⟩ := List.pairwise_cons.1 h
    rw [List.map_cons, List.findIdx?_cons, List.countP_cons]
    by_cases same : z = y
    · subst same
      have none : l.countP (sooner · z) = 0 := by
        rw [List.countP_eq_zero]
        exact fun x hx => by simp [sooner_asymm (hz x hx)]
      rw [none]
      simp [sooner_self]
    · have hy : y ∈ l := (List.mem_cons.1 hy).resolve_left (Ne.symm same)
      have other : (z.2 == y.2) = false := beq_eq_false_iff_ne.2 fun e => same (hu z (List.mem_cons_self ..) e)
      have before : sooner z y = true := (sooner_iff _ _).2 (hz y hy)
      rw [other, before, ih hl hy fun x hx => hu x (List.mem_cons_of_mem _ hx)]
      rfl

/-- The place of an UPDATE-DUE label is that behind the labels that fall before it. -/
theorem State.position_due {n due : Nat} {o : Owned} (ho : s.owned n = some o) (hw : AMap.wf s.labels.owned = true)
    (hs : o.state = .updateDue due) :
    (s.updates.map (·.2)).findIdx? (· == n) = some (s.labels.owned.filter (fallsBefore due n)).length := by
  obtain ⟨ordered, mem⟩ := updateList_spec s.labels.owned hw
  have here : (due, n) ∈ updateList s.labels.owned := (mem _).2 ⟨o, AMap.mem_of_get ho, hs⟩
  rw [← updateList_countP]
  refine findIdx_of_ordered ordered here fun z hz hn => ?_
  obtain ⟨p, hp, hd⟩ := (mem z).1 hz
  have same : p = o := by
    have := (AMap.get_eq_some_iff hw).2 hp
    rw [hn] at this
    exact Option.some.inj (this.symm.trans ho)
  rw [same, hs] at hd
  cases hd
  exact Prod.ext rfl hn

/-- A label that is not UPDATE-DUE has no place. -/
theorem State.position_none {n : Nat} {o : Owned} (ho : s.owned n = some o) (hw : AMap.wf s.labels.owned = true)
    (hs : ∀ due, o.state ≠ .updateDue due) : (s.updates.map (·.2)).findIdx? (· == n) = none := by
  rw [List.findIdx?_eq_none_iff]
  intro k hk
  obtain ⟨z, hz, rfl⟩ := List.mem_map.1 hk
  obtain ⟨p, hp, hd⟩ := ((updateList_spec s.labels.owned hw).2 z).1 hz
  refine beq_eq_false_iff_ne.2 fun hn => ?_
  have same : p = o := by
    have := (AMap.get_eq_some_iff hw).2 hp
    rw [hn] at this
    exact Option.some.inj (this.symm.trans ho)
  exact hs z.1 (same ▸ hd)

/-! ### The alerts one frame holds (R121, R202) -/

/-- The bytes that alerts take. -/
def alertsSize (self : Station) (l : List Alert) : Nat := (l.map fun a => (alertBytes self a).length).sum

theorem alertsFitting_all {self : Station} {room : Nat} {l : List Alert} (h : alertsSize self l ≤ room) :
    alertsFitting self room l = l := by
  induction l generalizing room with
  | nil => rfl
  | cons a l ih =>
    simp only [alertsSize, List.map_cons, List.sum_cons] at h
    unfold alertsFitting
    rw [if_pos (by omega), ih]
    simp only [alertsSize]
    omega

theorem alertsFitting_some {self : Station} {room : Nat} {l rest : List Alert} {a : Alert} (h : alertsSize self l ≤ room)
    (ha : room < alertsSize self (l ++ [a])) : alertsFitting self room (l ++ a :: rest) = l := by
  induction l generalizing room with
  | nil =>
    simp only [alertsSize, List.nil_append, List.map_cons, List.map_nil, List.sum_cons, List.sum_nil] at ha
    exact if_neg (by omega)
  | cons b l ih =>
    simp only [alertsSize, List.cons_append, List.map_cons, List.sum_cons] at h ha
    rw [List.cons_append]
    unfold alertsFitting
    rw [if_pos (by omega), ih]
    · simp only [alertsSize]; omega
    · simp only [alertsSize]; omega

/-! ### The figures (R210) -/

theorem vector_toList {α : Type} {n : Nat} (v : Vector α n) : v.toList = (List.finRange n).map v.get := by
  refine List.ext_getElem (by simp) fun i hi hj => ?_
  simp [Vector.get_eq_getElem]

theorem State.oldestAge_eq (s : State) :
    s.oldestAge = ((s.updates.map fun x => s.now - x.1).head?.getD 0) / 1000000 := by
  unfold State.oldestAge
  cases s.updates with
  | nil => exact (Nat.zero_div _).symm
  | cons x l => rfl

theorem State.figures_none {g : Nat} (h : g = 0 ∨ 9 < g) (s : State) : s.figures g = none := by
  match g with
  | 0 => rfl
  | 1 | 2 | 3 | 4 | 5 | 6 | 7 | 8 | 9 => omega
  | n + 10 => rfl

/-! ### The reply (R209) -/

theorem State.replied_places (s : State) (h : OfficeHead) (k : Nat) (o : OfficeOutcome) :
    (s.replied h k o).commands = (s.remember h.src ⟨h.tag, k, o⟩).commands :=
  State.giveReply_keeps_plain _ _ _ .commands (by decide)

theorem State.replied_queued (hs : s.canSend = true) (hn : s.trunk.notice.length < 64) (h : OfficeHead) (k : Nat)
    (o : OfficeOutcome) : (s.replied h k o).trunk = { s.trunk with notice := s.trunk.notice ++
      [{ dest := some h.src, body := .officeReply ⟨h.tag, k, o⟩, purpose := .reply false, attempts := 0 }] } := by
  have sends : (s.remember h.src ⟨h.tag, k, o⟩).canSend = true := hs
  unfold State.replied State.giveReply
  rw [State.offer_notice_queued (by rfl) sends hn]
  rfl

theorem State.replied_lost (hs : s.canSend = false) (h : OfficeHead) (k : Nat) (o : OfficeOutcome) :
    (s.replied h k o).trunk = s.trunk ∧
      (s.replied h k o).count .repliesLost = min (s.count .repliesLost + 1) 4294967295 := by
  have mute : (s.remember h.src ⟨h.tag, k, o⟩).canSend = false := hs
  unfold State.replied State.giveReply
  rw [State.offer_of_not_canSend _ _ mute]
  refine ⟨rfl, ?_⟩
  show (((s.remember h.src ⟨h.tag, k, o⟩).bump .notTakenNotice).bump .repliesLost).count .repliesLost = _
  rw [State.count_bump, State.count_bump_ne _ (by decide)]
  rfl

end Sys2Proof.Machine

/-! ### The statements -/

open Sys2Proof Sys2Proof.Machine

/-- Settles O50: each reading command's act on the state that the frame's reception leaves. -/
theorem readingCommandsReport : Obligations.ReadingCommandsReport := by
  unfold Obligations.ReadingCommandsReport
  refine ⟨fun s h ob => ?acts, fun s h ob => ?figures, fun s h k o => ⟨fun n => ?_, ?_, fun hs hn => ?_, fun hs => ?_⟩⟩
  case acts =>
    intro heard draws
    have same : heard.labels.owned = s.labels.owned := by
      obtain ⟨r, a, e⟩ := s.heardFrom_labels h.src id
      rw [e]
    have owned (n : Nat) : heard.owned n = s.owned n := State.heardFrom_owned _ _ _ n
    have heardOf (n : Nat) : heard.heard n = s.heard n := State.heardFrom_heard _ _ _ n
    have entry (a : Nat) : heard.entry a = s.entry a := State.heardFrom_entry _ _ _ a
    have run {c : Instr} {k : Nat} {act : State → OfficeOutcome × State} {o : OfficeOutcome}
        (hc : exec c s = .next (s.office h k act)) (ha : act heard = (o, heard)) : draws c k o :=
      hc.trans (congrArg _ (ob.exec_office ha))
    refine ⟨fun a ha => run rfl ?_, fun a e h1 h2 he => run rfl ?_, fun n o ho hw => ⟨fun due hs => ?_, fun hs => ?_⟩,
      fun n x ho hx => run rfl ?_, fun n ho hx => run rfl ?_, fun first => ?_, fun g f hf => run rfl ?_,
      fun g hg => run rfl ?_, fun k => run rfl rfl⟩
    · unfold State.actReadEntry
      have none : (if articleOk a then heard.entry a else none) = none := by
        rcases ha with ha | ha | ha
        · exact if_neg (by simp [articleOk, inRange_iff, ha])
        · exact if_neg (by simp [articleOk, inRange_iff, Config.articleMax]; omega)
        · rw [entry, ha, ite_self]
      rw [none]
    · unfold State.actReadEntry
      have found : (if articleOk a then heard.entry a else none) = some e := by
        rw [if_pos (by simp [articleOk, inRange_iff, Config.articleMax]; omega), entry, he]
      rw [found]
    · intro ahead
      have counted : ahead = s.labels.owned.filter (fallsBefore due n) :=
        List.filter_congr fun x _ => by
          unfold fallsBefore
          cases x.2.state <;> rfl
      refine run rfl ?_
      unfold State.actReadLabel
      rw [owned, ho]
      have position := State.position_due (s := heard) ((owned n).trans ho) (same ▸ hw) hs
      rw [same, ← counted] at position
      simp only [position, Option.map_some, slotOf]
    · refine run rfl ?_
      unfold State.actReadLabel
      rw [owned, ho]
      simp only [State.position_none (s := heard) ((owned n).trans ho) (same ▸ hw) hs, Option.map_none, slotOf]
    · unfold State.actReadLabel
      rw [owned, ho, heardOf, hx]
      rfl
    · unfold State.actReadLabel
      rw [owned, ho, heardOf, hx]
    · intro asked size answers
      have self : heard.self = s.settings.station := State.heardFrom_self _ _ _
      have fitting {l : List Alert} (hl : alertsFitting heard.self 1523 asked = l) : answers l := by
        refine run rfl ?_
        exact congrArg (fun l => (OfficeOutcome.done (.alerts l heard.alerts.list.length (heard.count .alertOverflow)), heard)) hl
      refine ⟨fun hs => fitting (alertsFitting_all (self ▸ hs)), fun l a rest hl hs ha => fitting ?_⟩
      rw [hl]
      exact alertsFitting_some (self ▸ hs) (self ▸ ha)
    · unfold State.actReadCounts
      rw [hf]
    · unfold State.actReadCounts
      rw [State.figures_none hg]
  case figures =>
    intro heard shows counts bytes t j l w k g u
    have run {n : Nat} {f : Figures} (hf : heard.figures n = some f) : shows n f := by
      refine congrArg _ (ob.exec_office ?_)
      unfold State.actReadCounts
      rw [hf]
    refine ⟨run rfl, run ?_, run rfl, run ?_, run rfl, run ?_, run rfl, run rfl, run ?_⟩
    · simp only [State.figures, vector_toList]
      rfl
    · simp only [State.figures, vector_toList, List.map_map]
      rfl
    · simp only [State.figures, State.oldestAge_eq]
      rfl
    · simp only [State.figures, vector_toList]
      rfl
  · rw [State.replied_places]
    exact vector_get_set _ _ _ _
  · rw [State.replied_places]
    rfl
  · exact State.replied_queued hs hn h k o
  · exact State.replied_lost hs h k o

end

section
/-! PROOFS. The second-timer examination of the price book, entry by entry. -/

namespace Sys2Proof.Machine

open Sys2Proof

variable {s t u : State}

/-! ### Work on one article (R10, R12, R18, R19) -/

/-- What work on the article `b` leaves of the book, the label table and the peers: the other articles' entries and
shelves, and the order of both maps. -/
structure State.WorksOn (b : Nat) (s t : State) : Prop where
  keeps : Machine.keeps shelfFields s t
  peers : s.SamePeers t
  timer : t.book.timer = s.book.timer
  book : AMap.wf s.book.entries = true → AMap.wf t.book.entries = true
  entry : ∀ a, a ≠ b → t.entry a = s.entry a
  owned : AMap.wf s.labels.owned = true → AMap.wf t.labels.owned = true
  floor : AMap.wf s.labels.owned = true → ∀ a, a ≠ b → t.floor a = s.floor a

theorem State.WorksOn.refl (b : Nat) (s : State) : s.WorksOn b s :=
  ⟨keeps.refl _ _, .refl s, rfl, id, fun _ _ => rfl, id, fun _ _ _ => rfl⟩

theorem State.WorksOn.trans {b : Nat} (h : s.WorksOn b t) (k : t.WorksOn b u) : s.WorksOn b u :=
  ⟨h.keeps.trans k.keeps, h.peers.trans k.peers, k.timer.trans h.timer, fun hw => k.book (h.book hw),
    fun a ha => (k.entry a ha).trans (h.entry a ha), fun hw => k.owned (h.owned hw),
    fun hw a ha => (k.floor (h.owned hw) a ha).trans (h.floor hw a ha)⟩

/-- A change of the book's entries or lists alone. -/
theorem State.WorksOn.of_book {b : Nat} {f : Book → Book} (ht : (f s.book).timer = s.book.timer)
    (hw : AMap.wf s.book.entries = true → AMap.wf (f s.book).entries = true)
    (he : ∀ a, a ≠ b → AMap.get (f s.book).entries a = AMap.get s.book.entries a) : s.WorksOn b (s.withBook f) :=
  ⟨(s.withBook_keeps f).mono (by decide), .of_keeps (s.withBook_keeps f) (by decide), ht, hw, he, id, fun _ _ _ => rfl⟩

theorem State.modifyEntry_works (s : State) (b : Nat) (f : Entry → Entry) : s.WorksOn b (s.modifyEntry b f) :=
  .of_book rfl (AMap.wf_modify _ _ _) fun a ha => by
    show AMap.get (AMap.modify _ _ _) a = _
    rw [AMap.get_modify, if_neg ha]

theorem State.putEntry_works (s : State) (b : Nat) (e : Entry) : s.WorksOn b (s.putEntry b e) :=
  .of_book rfl (AMap.wf_put _ _ _) fun _ ha => AMap.get_put_ne _ _ ha

theorem State.removeEntry_works (s : State) (b : Nat) : s.WorksOn b (s.removeEntry b) :=
  .of_book rfl (AMap.wf_del _ _) fun a ha => by
    show AMap.get (AMap.del _ _) a = _
    rw [AMap.get_del, if_neg ha]

/-- What leaves the book and the label table. -/
theorem State.WorksOn.of_keeps {fs : List Field} {b : Nat} (hk : Machine.keeps fs s t) (hf : fs ⊆ [.trunk, .counts])
    (hp : s.SamePeers t) : s.WorksOn b t := by
  have kept := hk.mono hf
  have book : t.book = s.book := kept .book (by decide)
  have labels : t.labels = s.labels := kept .labels (by decide)
  exact ⟨kept.mono (by decide), hp, congrArg Book.timer book, fun h => book ▸ h,
    fun a _ => congrArg (fun x : Book => AMap.get x.entries a) book, fun h => labels ▸ h,
    fun _ a _ => congrArg (fun x : Labels => floorOf a x.owned) labels⟩

theorem State.bump_works (s : State) (b : Nat) (c : Count) : s.WorksOn b (s.bump c) :=
  .of_keeps (s.bump_keeps c) (by decide) (.of_keeps (s.bump_keeps c) (by decide))

theorem State.offer_works (s : State) (b : Nat) (f : Frame) : s.WorksOn b (s.offer f).2 :=
  .of_keeps (s.offer_keeps f) (by decide) (s.offer_peers f)

theorem State.mark_works (s : State) (b : Nat) (x : Target) : s.WorksOn b (s.mark b x) := by
  have kept := s.mark_keeps b x
  have book : (s.mark b x).book = s.book := kept .book (by decide)
  refine ⟨kept.mono (by decide), s.mark_peers b x, congrArg Book.timer book, fun h => book ▸ h,
    fun a _ => congrArg (fun x : Book => AMap.get x.entries a) book, fun hw => ?_, fun hw a _ => State.mark_floor b a x hw⟩
  rw [State.mark_labels b x hw]
  exact AMap.wf_map s.labels.owned (fun e => if e.2.bound = some b then e.2.retargeted s.now x else e.2) hw

theorem Owned.unbound_bound (o : Owned) (now : Nat) : (o.unbound now).bound = none := by
  obtain ⟨st, hst, -⟩ := ({ o with bound := none } : Owned).retargeted_spec now .unbound
  rw [Owned.unbound, hst]

/-- A label of one article counts for the floor of no other (R98). -/
theorem floorOf_unbound (a b now : Nat) (h : a ≠ b) (m : List (Nat × Owned)) :
    floorOf a (m.map fun e => (e.1, if e.2.bound = some b then e.2.unbound now else e.2)) = floorOf a m := by
  induction m with
  | nil => rfl
  | cons e m ih =>
    obtain ⟨k, o⟩ := e
    simp only [List.map_cons, floorOf, ih]
    by_cases hb : o.bound = some b
    · rw [if_pos hb, if_neg (by simp [Owned.unbound_bound]), if_neg (by simp [hb, Ne.symm h])]
    · rw [if_neg hb]

theorem State.unbindAll_works (s : State) (b : Nat) : s.WorksOn b (s.unbindAll b) := by
  have other (a : Nat) (ha : a ≠ b) (v : State) (n : Nat) : (v.unbindOne b n).entry a = v.entry a := by
    unfold State.unbindOne
    split
    · rfl
    · next o ho =>
      have marked := State.retarget_keeps (v.putOwned n { o with bound := none }) n .unbound .book (by decide)
      exact (State.modifyEntry_works _ b _).entry a ha |>.trans (congrArg (fun x : Book => AMap.get x.entries a) marked)
  have wf (v : State) (n : Nat) (hw : AMap.wf v.book.entries = true) : AMap.wf (v.unbindOne b n).book.entries = true := by
    unfold State.unbindOne
    split
    · exact hw
    · next o ho =>
      have marked : ((v.putOwned n { o with bound := none }).retarget n .unbound).book = v.book :=
        State.retarget_keeps (v.putOwned n { o with bound := none }) n .unbound .book (by decide)
      exact (State.modifyEntry_works _ b _).book (marked ▸ hw)
  have timer (v : State) (n : Nat) : (v.unbindOne b n).book.timer = v.book.timer := by
    unfold State.unbindOne
    split
    · rfl
    · next o ho =>
      have marked : ((v.putOwned n { o with bound := none }).retarget n .unbound).book = v.book :=
        State.retarget_keeps (v.putOwned n { o with bound := none }) n .unbound .book (by decide)
      exact ((State.modifyEntry_works _ b _).timer).trans (congrArg Book.timer marked)
  have fold (P : State → Prop) (hP : ∀ v n, P v → P (v.unbindOne b n)) (h : P s) : P (s.unbindAll b) := by
    have all (ns : List Nat) (v : State) (h : P v) : P (ns.foldl (fun s n => s.unbindOne b n) v) := by
      induction ns generalizing v with
      | nil => exact h
      | cons n ns ih => exact ih _ (hP v n h)
    exact all _ s h
  refine ⟨(s.unbindAll_keeps b).mono (by decide), s.unbindAll_peers b, ?_, fun hw => ?_, fun a ha => ?_, fun hw => ?_, fun hw a ha => ?_⟩
  · exact fold (fun v => v.book.timer = s.book.timer) (fun v n h => (timer v n).trans h) rfl
  · exact fold (fun v => AMap.wf v.book.entries = true) wf hw
  · exact fold (fun v => v.entry a = s.entry a) (fun v n h => (other a ha v n).trans h) rfl
  · rw [State.unbindAll_labels b hw]
    exact AMap.wf_map s.labels.owned (fun e => if e.2.bound = some b then e.2.unbound s.now else e.2) hw
  · rw [State.floor, State.unbindAll_labels b hw]
    exact floorOf_unbound a b s.now ha s.labels.owned

theorem State.complete_works (s : State) (b : Nat) (c : Changeover) : s.WorksOn b (s.complete b c) := by
  unfold State.complete
  split
  · exact s.modifyEntry_works b _
  · refine (s.unbindAll_works b).trans ?_
    dsimp only
    split
    · exact State.removeEntry_works _ b
    · split
      · exact State.modifyEntry_works _ b _
      · exact (State.removeEntry_works _ b).trans (State.bump_works _ b _)

theorem State.release_works (s : State) (b : Nat) (c : Changeover) (n : Station) : s.WorksOn b (s.release b c n) := by
  unfold State.release
  dsimp only
  split
  · exact (s.modifyEntry_works b _).trans (State.complete_works _ b _)
  · exact s.modifyEntry_works b _

theorem State.addReport_works (s : State) (b : Nat) (r : Report) : s.WorksOn b (s.addReport r) := by
  unfold State.addReport
  split
  · exact .of_book rfl id fun _ _ => rfl
  · split
    · exact .of_book rfl id fun _ _ => rfl
    · refine State.WorksOn.trans ?_ (State.bump_works _ b _)
      exact .of_book rfl id fun _ _ => rfl

theorem State.formReports_works (s : State) (b : Nat) : s.WorksOn b s.formReports := by
  unfold State.formReports
  split
  · exact .refl b s
  · exact (s.offer_works b _).trans (.of_book rfl id fun _ _ => rfl)

theorem State.localDone_works (s : State) (b v : Nat) : s.WorksOn b (s.localDone b v) := by
  unfold State.localDone
  repeat' split
  case h_3.isTrue =>
    exact ((s.addReport_works b _).trans (State.release_works _ b _ _)).trans (State.formReports_works _ b)
  all_goals exact .refl b s

/-- The changeover that starts, its labels marked, completes at once, finds its shelves done, or stands (R10, R12). -/
theorem State.startChangeover_eq (s : State) (a : Nat) (e : Entry) (p : Change) :
    let v := (s.putEntry a { e with phase := .changing (s.begun p) }).mark a (p.target a)
    s.startChangeover a e p = if s.newHoldout.isEmpty then v.complete a (s.begun p)
      else if holdsOut s.self s.newHoldout && v.shelfDone a p.version then v.localDone a p.version else v := rfl

theorem State.startChangeover_works (s : State) (b : Nat) (e : Entry) (p : Change) : s.WorksOn b (s.startChangeover b e p) := by
  have marked : s.WorksOn b ((s.putEntry b { e with phase := .changing (s.begun p) }).mark b (p.target b)) :=
    (s.putEntry_works b _).trans (State.mark_works _ b _)
  rw [State.startChangeover_eq]
  split
  · exact marked.trans (State.complete_works _ b _)
  · split
    · exact marked.trans (State.localDone_works _ b _)
    · exact marked

theorem State.effectiveTimeReached_works (s : State) (b : Nat) (e : Entry) (p : Change) :
    s.WorksOn b (s.effectiveTimeReached b e p) := by
  unfold State.effectiveTimeReached
  split
  · exact s.startChangeover_works b e p
  · split
    · exact s.putEntry_works b _
    · exact s.removeEntry_works b

theorem State.examine_works (s : State) (b : Nat) : s.WorksOn b (s.examine b) := by
  unfold State.examine
  split
  · exact .refl b s
  · split
    · exact .refl b s
    · split
      · exact s.effectiveTimeReached_works b _ _
      · exact .refl b s
    · exact s.putEntry_works b _

/-- The examination of other articles (R9). -/
theorem State.foldl_examine_other {a : Nat} (bs : List Nat) (h : a ∉ bs) (s : State) :
    let t := bs.foldl (fun s b => s.examine b) s
    Machine.keeps shelfFields s t ∧ s.SamePeers t ∧ t.book.timer = s.book.timer ∧
      (AMap.wf s.book.entries = true → AMap.wf t.book.entries = true) ∧ t.entry a = s.entry a ∧
      (AMap.wf s.labels.owned = true → AMap.wf t.labels.owned = true ∧ t.floor a = s.floor a) := by
  induction bs generalizing s with
  | nil => exact ⟨keeps.refl _ _, .refl s, rfl, id, rfl, fun h => ⟨h, rfl⟩⟩
  | cons b bs ih =>
    obtain ⟨hb, hbs⟩ := not_or.1 (mt List.mem_cons.2 h)
    have works := s.examine_works b
    obtain ⟨hk, hp, ht, hw, he, hl⟩ := ih hbs (s.examine b)
    refine ⟨works.keeps.trans hk, works.peers.trans hp, ht.trans works.timer, fun h => hw (works.book h),
      he.trans (works.entry a hb), fun h => ?_⟩
    obtain ⟨howned, hfloor⟩ := hl (works.owned h)
    exact ⟨howned, hfloor.trans (works.floor h a hb)⟩

/-! ### The examination of an entry (R9, R10, R11) -/

theorem State.examine_steady {a : Nat} {e : Entry} (he : s.entry a = some e) (hp : e.phase = .steady) : s.examine a = s := by
  simp only [State.examine, he, hp]

theorem State.examine_waits {a : Nat} {e : Entry} {p : Change} (he : s.entry a = some e) (hp : e.phase = .waiting p)
    (hc : (isAtOnce p.effective || s.hasCome p.effective) = false) : s.examine a = s := by
  simp only [State.examine, he, hp, hc]
  rfl

theorem State.examine_due {a : Nat} {e : Entry} {p : Change} (he : s.entry a = some e) (hp : e.phase = .waiting p)
    (hc : (isAtOnce p.effective || s.hasCome p.effective) = true) : s.examine a = s.effectiveTimeReached a e p := by
  simp only [State.examine, he, hp, hc, if_true]

theorem State.examine_changing {a : Nat} {e : Entry} {c : Changeover} (he : s.entry a = some e) (hp : e.phase = .changing c) :
    s.examine a = s.putEntry a { e with phase := .changing (c.tick s.unit.clock) } := by
  simp only [State.examine, he, hp]

/-- An article not yet on sale goes on sale, or out of the book (R10). -/
theorem State.effectiveTimeReached_fresh {a : Nat} {e : Entry} {p : Change} (hc : e.current = none) :
    (∀ k x, p.action = .set k x → (s.effectiveTimeReached a e p).entry a =
      some { e with kind := k, current := some x, version := p.version, phase := .steady }) ∧
    (p.action = .withdraw → (s.effectiveTimeReached a e p).entry a = none) := by
  have reach : s.effectiveTimeReached a e p = match p.action with
      | .set k t => s.putEntry a { e with kind := k, current := some t, version := p.version, phase := .steady }
      | .withdraw => s.removeEntry a := by
    simp [State.effectiveTimeReached, hc] <;> rfl
  refine ⟨fun k x ha => ?_, fun ha => ?_⟩
  · rw [reach, ha]
    exact State.entry_putEntry_self _ _ _
  · rw [reach, ha]
    exact State.entry_removeEntry_self _ _

/-- What the completion of a change with nothing queued leaves of its entry (R18, R19). -/
theorem State.complete_entry {a : Nat} {e : Entry} {c : Changeover} (he : s.entry a = some e) (hq : c.queued = none) :
    (∀ k x, c.pending.action = .set k x → (s.complete a c).entry a =
      some { e with kind := k, current := some x, version := c.pending.version, phase := .steady }) ∧
    (c.pending.action = .withdraw → (s.complete a c).entry a = none) := by
  refine ⟨fun k x ha => ?_, fun ha => ?_⟩
  · rw [State.complete_set ha, State.entry_modifyEntry_self he]
    simp only [Entry.completeSet, hq]
  · have run : s.complete a c = (s.unbindAll a).removeEntry a := by
      simp only [State.complete, ha, hq]
    rw [run]
    exact State.entry_removeEntry_self _ _

/-- A station leaves the holdout set: the change completes where it was the last, and else stands without it (R18). -/
theorem State.release_entry {a : Nat} {e : Entry} {c : Changeover} {n : Station} (he : s.entry a = some e) (hq : c.queued = none) :
    (dropStation n c.holdout ≠ [] → (s.release a c n).entry a =
      some { e with phase := .changing { c with holdout := dropStation n c.holdout } }) ∧
    (dropStation n c.holdout = [] →
      (∀ k x, c.pending.action = .set k x → (s.release a c n).entry a =
        some { e with kind := k, current := some x, version := c.pending.version, phase := .steady }) ∧
      (c.pending.action = .withdraw → (s.release a c n).entry a = none)) := by
  have left := State.entry_modifyEntry_self he fun e => { e with phase := .changing { c with holdout := dropStation n c.holdout } }
  unfold State.release
  dsimp only
  refine ⟨fun h => ?_, fun h => ?_⟩
  · rw [if_neg (by simpa using h)]
    exact left
  · rw [if_pos (by simp [h])]
    exact State.complete_entry (e := { e with phase := .changing { c with holdout := dropStation n c.holdout } })
      (c := { c with holdout := dropStation n c.holdout }) left hq

/-- The stations held out once the changeover has begun: this one drops out where its shelves are done (R10, R12). -/
def State.heldOut (s : State) (a : Nat) (p : Change) : List Holdout :=
  if s.settings.labelService = true ∧ s.shelfDone a p.version = true then dropStation s.self s.newHoldout else s.newHoldout

/-- A change to terms on sale begins its changeover, or completes at once where no station is held out (R10, R12, R18). -/
theorem State.startChangeover_entry {a : Nat} {e : Entry} {p : Change} (he : s.entry a = some e)
    (hw : AMap.wf s.labels.owned = true) :
    (s.heldOut a p ≠ [] → (s.startChangeover a e p).entry a =
      some { e with phase := .changing { s.begun p with holdout := s.heldOut a p } }) ∧
    (s.heldOut a p = [] →
      (∀ k x, p.action = .set k x → (s.startChangeover a e p).entry a =
        some { e with kind := k, current := some x, version := p.version, phase := .steady }) ∧
      (p.action = .withdraw → (s.startChangeover a e p).entry a = none)) := by
  let v : State := (s.putEntry a { e with phase := .changing (s.begun p) }).mark a (p.target a)
  have kept := State.mark_keeps (s.putEntry a { e with phase := .changing (s.begun p) }) a (p.target a)
  have entry : v.entry a = some { e with phase := .changing (s.begun p) } :=
    (congrArg (fun b : Book => AMap.get b.entries a) (kept .book (by decide))).trans (State.entry_putEntry_self _ _ _)
  have settings : v.settings = s.settings := kept .settings (by decide)
  have floor : v.floor a = s.floor a := State.mark_floor (s := s.putEntry a _) a a (p.target a) hw
  have shelf : v.shelfDone a p.version = s.shelfDone a p.version := by
    simp only [State.shelfDone, settings, entry, he, floor]
  have holds : holdsOut s.self s.newHoldout = s.settings.labelService := by
    rw [Bool.eq_iff_iff, holdsOut_iff, State.mem_newHoldout]
    simp
  have begins := s.startChangeover_eq a e p
  change s.startChangeover a e p = if s.newHoldout.isEmpty then v.complete a (s.begun p)
    else if holdsOut s.self s.newHoldout && v.shelfDone a p.version then v.localDone a p.version else v at begins
  rw [shelf, holds] at begins
  by_cases done : s.settings.labelService = true ∧ s.shelfDone a p.version = true
  · have nonempty : ¬ s.newHoldout.isEmpty = true := by
      rw [done.1] at holds
      intro h
      rw [List.isEmpty_iff.1 h] at holds
      cases holds
    have held : s.heldOut a p = dropStation s.self s.newHoldout := if_pos done
    rw [if_neg nonempty, if_pos (by simp [done])] at begins
    have self : v.self = s.self := congrArg Settings.station settings
    have out : p.version ≤ p.version ∧ holdsOut v.self s.newHoldout = true := ⟨Nat.le_refl _, by rw [self, holds]; exact done.1⟩
    have reported : v.localDone a p.version = ((v.addReport ⟨a, p.version⟩).release a (s.begun p) v.self).formReports := by
      unfold State.localDone
      rw [entry]
      exact if_pos out
    rw [self] at reported
    have before : (v.addReport ⟨a, p.version⟩).entry a = some { e with phase := .changing (s.begun p) } := by
      have works := v.addReport_works (a + 1) ⟨a, p.version⟩
      exact (works.entry a (by omega)).trans entry
    have after (w : State) : w.formReports.entry a = w.entry a := (w.formReports_works (a + 1)).entry a (by omega)
    obtain ⟨stands, completes⟩ := State.release_entry (e := { e with phase := .changing (s.begun p) }) (n := s.self)
      (c := s.begun p) before rfl
    rw [held, begins, reported, after]
    exact ⟨stands, completes⟩
  · have held : s.heldOut a p = s.newHoldout := if_neg done
    have undone : ¬ (s.settings.labelService && s.shelfDone a p.version) = true := by simpa using done
    rw [held]
    rw [if_neg undone] at begins
    refine ⟨fun h => ?_, fun h => ?_⟩
    · rw [begins, if_neg (by simpa using h)]
      exact entry
    · rw [begins, if_pos (by simp [h])]
      exact State.complete_entry (e := { e with phase := .changing (s.begun p) }) (c := s.begun p) entry rfl

end Sys2Proof.Machine
end

section
/-! PROOFS. The shelf queries of a second-timer expiry, and the expiry as a whole. -/

namespace Sys2Proof.Machine

open Sys2Proof

variable {s t u : State}

/-! ### Which entries a query asks of (R15) -/

/-- The article's change is late at station `n`: 60 s old or more, with the station held out. -/
def State.Late (s : State) (n : Station) (a : Nat) (c : Changeover) : Prop :=
  (∃ e, s.entry a = some e ∧ e.phase = .changing c) ∧ 60 ≤ c.age ∧ ∃ h ∈ c.holdout, h.station = n

theorem State.Late.unique {n m : Station} {a : Nat} {c d : Changeover} (h : s.Late n a c) (k : s.Late m a d) : c = d := by
  obtain ⟨⟨e, he, hp⟩, -⟩ := h
  obtain ⟨⟨e', he', hp'⟩, -⟩ := k
  cases he.symm.trans he'
  exact Phase.changing.inj (hp.symm.trans hp')

/-- The station is due a query (R15). -/
def State.QueryDue (s : State) (n : Station) : Prop :=
  n ≠ s.self ∧ (s.peer n).state = .alive ∧ (s.peer n).kind = some .controller ∧
    ∀ t, AMap.get s.book.queryTimes n.val = some t → t + Config.seconds 60 ≤ s.now

theorem State.queryStation_not {n : Station} (h : ¬ s.QueryDue n) : s.queryStation n = s := by
  unfold State.queryStation
  dsimp only
  refine if_neg fun ⟨hn, ha, hk, hd, _⟩ => h ⟨hn, ha, hk, fun t ht => ?_⟩
  rw [ht, Option.all_some] at hd
  exact of_decide_eq_true hd

theorem State.mem_lateEntries (hw : AMap.wf s.book.entries = true) (n : Station) (x : Nat × Nat × Nat) :
    x ∈ lateEntries n s.book.entries ↔ ∃ c, s.Late n x.2.1 c ∧ c.age = x.1 ∧ c.pending.version = x.2.2 := by
  rw [(lateEntries_spec n _ hw).2, mem_queryable]
  constructor
  · rintro ⟨e, c, hm, hp, ha, hh, hx⟩
    have hx' : c.age = x.1 ∧ c.pending.version = x.2.2 := by simpa [eq_comm] using hx
    exact ⟨c, ⟨⟨e, (AMap.get_eq_some_iff hw).2 hm, hp⟩, ha, (holdsOut_iff _ _).1 hh⟩, hx'⟩
  · rintro ⟨c, ⟨⟨e, he, hp⟩, ha, hh⟩, hx, hv⟩
    refine ⟨e, c, AMap.mem_of_get he, hp, ha, (holdsOut_iff _ _).2 hh, ?_⟩
    simp [hx, hv]

theorem State.queryStation_none {n : Station} (hw : AMap.wf s.book.entries = true) (h : ∀ a c, ¬ s.Late n a c) :
    s.queryStation n = s := by
  have none : lateEntries n s.book.entries = [] := by
    rw [List.eq_nil_iff_forall_not_mem]
    intro x hx
    obtain ⟨c, hc, -⟩ := (State.mem_lateEntries hw n x).1 hx
    exact h _ _ hc
  have qs : (queryable n s.book.entries).foldl (fun l x => insertQuery x l) [] = [] := none
  unfold State.queryStation
  dsimp only
  rw [qs]
  exact if_neg fun ⟨_, _, _, _, h⟩ => h rfl

/-- The triples a query asks of. -/
def State.asks (s : State) (n : Station) : List (Nat × Nat × Nat) := (lateEntries n s.book.entries).take Config.reportCapacity

/-- The reports a query asks of. -/
def State.askedOf (s : State) (n : Station) : List Report := (s.asks n).map fun q => ⟨q.2.1, q.2.2⟩

theorem State.mem_asks (hw : AMap.wf s.book.entries = true) {n : Station} {x : Nat × Nat × Nat} (h : x ∈ s.asks n) :
    ∃ c, s.Late n x.2.1 c ∧ c.age = x.1 ∧ c.pending.version = x.2.2 :=
  (State.mem_lateEntries hw n x).1 (List.mem_of_mem_take h)

/-- A report asked of is that of a late change, and is found in the order of R15. -/
theorem State.asks_ordered (hw : AMap.wf s.book.entries = true) (n : Station) : (s.asks n).Pairwise queryBefore :=
  (lateEntries_spec n _ hw).1.sublist (List.take_sublist _ _)

/-- A late change that is not asked of goes behind all that are. -/
theorem State.asks_first (hw : AMap.wf s.book.entries = true) {n : Station} {x y : Nat × Nat × Nat} (hx : x ∈ s.asks n)
    (hy : y ∈ lateEntries n s.book.entries) (hn : y ∉ s.asks n) : queryBefore x y := by
  have ordered := (lateEntries_spec n _ hw).1
  rw [← List.take_append_drop Config.reportCapacity (lateEntries n s.book.entries)] at ordered hy
  exact (List.pairwise_append.1 ordered).2.2 x hx y ((List.mem_append.1 hy).resolve_left hn)

/-- The book once a query of station `n` has been formed for the reports given. -/
def State.asked (s : State) (n : Station) (rs : List Report) : State :=
  s.withBook fun b => { b with
    queryTimes := AMap.put b.queryTimes n.val s.now
    entries := b.entries.map fun x => (x.1, if rs.any (fun r => r.article == x.1) then x.2.queryStatus n .queried else x.2) }

theorem State.queryStation_asked {n : Station} (hw : AMap.wf s.book.entries = true) (hd : s.QueryDue n)
    (hl : ∃ a c, s.Late n a c) :
    s.queryStation n = (s.send (Frame.new (some n) (.shelfQuery (s.askedOf n)) .shelfQuestion)).withBook fun b => { b with
      queryTimes := AMap.put b.queryTimes n.val s.now
      entries := b.entries.map fun x => (x.1, if (s.askedOf n).any (fun r => r.article == x.1) then x.2.queryStatus n .queried
        else x.2) } := by
  obtain ⟨hn, ha, hk, ht⟩ := hd
  obtain ⟨a, c, hc⟩ := hl
  have nonempty : lateEntries n s.book.entries ≠ [] := fun h => by
    have := (State.mem_lateEntries hw n (c.age, a, c.pending.version)).2 ⟨c, hc, rfl, rfl⟩
    rw [h] at this
    cases this
  have named (k : Nat) : ((s.askedOf n).any fun r => r.article == k) = true ↔ k ∈ (s.asks n).map (·.2.1) := by
    simp only [State.askedOf, List.any_map, List.any_eq_true, Function.comp_apply, beq_iff_eq, List.mem_map]
  have run := State.queryStation_due s n hw hn ha hk ht nonempty
  dsimp only at run
  rw [run]
  change (s.send _).withBook _ = _
  simp only [State.withBook]
  congr 2
  refine List.map_congr_left fun x _ => ?_
  simp only [named]
  rfl

/-! ### What a query leaves (R15) -/

theorem AMap.get_mapKey {α : Type} (m : AMap α) (f : Nat → α → α) (j : Nat) :
    AMap.get (m.map fun e => (e.1, f e.1 e.2)) j = (AMap.get m j).map (f j) := by
  induction m with
  | nil => rfl
  | cons e m ih =>
    simp only [List.map_cons, AMap.get]
    split
    next h => rw [← h]; rfl
    next => exact ih

/-- Two changeovers that differ in the query status of their stations alone. -/
structure Changeover.Asked (c g : Changeover) : Prop where
  pending : g.pending = c.pending
  queued : g.queued = c.queued
  age : g.age = c.age
  deadline : g.deadline = c.deadline
  holdout : g.holdout.map (·.station) = c.holdout.map (·.station)

theorem Changeover.Asked.refl (c : Changeover) : c.Asked c := ⟨rfl, rfl, rfl, rfl, rfl⟩

theorem Changeover.Asked.trans {c d g : Changeover} (h : c.Asked d) (k : d.Asked g) : c.Asked g :=
  ⟨k.pending.trans h.pending, k.queued.trans h.queued, k.age.trans h.age, k.deadline.trans h.deadline,
    k.holdout.trans h.holdout⟩

theorem setStatus_stations (n : Station) (q : QueryStatus) (l : List Holdout) :
    (setStatus n q l).map (·.station) = l.map (·.station) := by
  unfold setStatus
  rw [List.map_map]
  refine List.map_congr_left fun h _ => ?_
  simp only [Function.comp_apply]
  split <;> rfl

/-- A query leaves the book in order, and every entry but the late ones as it was; of a late one it sets query status. -/
theorem State.queryStation_entry (hw : AMap.wf s.book.entries = true) (n : Station) :
    AMap.wf (s.queryStation n).book.entries = true ∧ (s.queryStation n).book.timer = s.book.timer ∧
    (∀ a, (∀ c, ¬ s.Late n a c) → (s.queryStation n).entry a = s.entry a) ∧
    ∀ a e c, s.entry a = some e → e.phase = .changing c → ∃ g, (s.queryStation n).entry a = some { e with phase := .changing g } ∧
      c.Asked g := by
  by_cases hd : s.QueryDue n ∧ ∃ a c, s.Late n a c
  · have run := State.queryStation_asked hw hd.1 hd.2
    have book : (s.send (Frame.new (some n) (.shelfQuery (s.askedOf n)) .shelfQuestion)).book = s.book :=
      State.send_keeps _ _ .book (by decide)
    have entry (a : Nat) : (s.queryStation n).entry a = (s.entry a).map fun e =>
        if (s.askedOf n).any (fun r => r.article == a) then e.queryStatus n .queried else e := by
      rw [run]
      simp only [State.entry, State.withBook, book]
      exact AMap.get_mapKey s.book.entries (fun k e => if (s.askedOf n).any (fun r => r.article == k) then
        e.queryStatus n .queried else e) a
    refine ⟨?_, ?_, fun a ha => ?_, fun a e c he hp => ?_⟩
    · rw [run]
      simp only [State.withBook, book]
      exact AMap.wf_map s.book.entries (fun x => if (s.askedOf n).any (fun r => r.article == x.1) then
        x.2.queryStatus n .queried else x.2) hw
    · rw [run]
      exact Eq.trans (b := (s.send (Frame.new (some n) (.shelfQuery (s.askedOf n)) .shelfQuestion)).book.timer) rfl
        (congrArg Book.timer book)
    · have out : ¬ ((s.askedOf n).any fun r => r.article == a) = true := by
        simp only [State.askedOf, List.any_map, List.any_eq_true, Function.comp_apply, beq_iff_eq]
        rintro ⟨x, hx, rfl⟩
        obtain ⟨c, hc, -⟩ := State.mem_asks hw hx
        exact ha c hc
      simp only [entry, if_neg out, Option.map_id']
    · rw [entry, he]
      simp only [Option.map_some]
      split
      · refine ⟨{ c with holdout := setStatus n .queried c.holdout }, ?_, rfl, rfl, rfl, rfl, setStatus_stations _ _ _⟩
        simp only [Entry.queryStatus, hp]
      · refine ⟨c, ?_, .refl c⟩
        rw [← hp]
  · have same : s.queryStation n = s := by
      by_cases hq : s.QueryDue n
      · exact State.queryStation_none hw fun a c h => hd ⟨hq, a, c, h⟩
      · exact State.queryStation_not hq
    rw [same]
    exact ⟨hw, rfl, fun _ _ => rfl, fun a e c he hp => ⟨c, by rw [he, ← hp], .refl c⟩⟩

/-- Queries of several stations leave an entry that is not 60 s old in CHANGING, and set query status in any other. -/
theorem State.foldl_queryStation (ns : List Station) (hw : AMap.wf s.book.entries = true) :
    let t := ns.foldl (fun s n => s.queryStation n) s
    t.book.timer = s.book.timer ∧
    (∀ a, (∀ e c, s.entry a = some e → e.phase = .changing c → c.age < 60) → t.entry a = s.entry a) ∧
    ∀ a e c, s.entry a = some e → e.phase = .changing c →
      ∃ g, t.entry a = some { e with phase := .changing g } ∧ c.Asked g := by
  induction ns generalizing s with
  | nil => exact ⟨rfl, fun _ _ => rfl, fun a e c he hp => ⟨c, by rw [← hp]; exact he, .refl c⟩⟩
  | cons n ns ih =>
    obtain ⟨wf, timer, stays, asked⟩ := State.queryStation_entry hw n
    obtain ⟨htimer, hstays, hasked⟩ := ih wf
    refine ⟨htimer.trans timer, fun a ha => ?_, fun a e c he hp => ?_⟩
    · have notLate : ∀ c, ¬ s.Late n a c := by
        rintro c ⟨⟨e, he, hp⟩, hage, -⟩
        have := ha e c he hp
        omega
      have same := stays a notLate
      exact (hstays a fun e c he => ha e c (same ▸ he)).trans same
    · obtain ⟨g, hg, hcg⟩ := asked a e c he hp
      obtain ⟨g', hg', hgg⟩ := hasked a _ g hg rfl
      exact ⟨g', hg', hcg.trans hgg⟩

theorem State.foldl_queryStation_keeps (ns : List Station) (s : State) :
    keeps shelfFields s (ns.foldl (fun s n => s.queryStation n) s) :=
  foldl_keeps _ _ _ fun t n => (t.queryStation_keeps n).mono (by decide)

/-- A frame that may wait, with no place in the NOTICE queue, goes to the hold line (R123, R124). -/
theorem State.offer_notice_held {f : Frame} (hc : f.body.trunkClass = .notice) (hw : f.body.waits = true)
    (hs : s.canSend = true) (hfull : 64 ≤ s.trunk.notice.length)
    (hfree : (s.trunk.holdNotice.any fun g => g.sender == f.sender) = false) :
    s.offer f = (.waiting, (s.withTrunk fun t => { t with holdNotice := t.holdNotice ++ [f] }).bump .framesWaited) := by
  simp only [State.offer, hc, hw, hs, Trunk.queue, Trunk.hold, Config.queueCapacity, Nat.not_lt.2 hfull, hfree]
  rfl

/-- Its block keeps it behind the frame it holds there (R124). -/
theorem State.offer_notice_kept {f : Frame} (hc : f.body.trunkClass = .notice) (hw : f.body.waits = true)
    (hs : s.canSend = true) (hfull : 64 ≤ s.trunk.notice.length)
    (htaken : (s.trunk.holdNotice.any fun g => g.sender == f.sender) = true)
    (hroom : (s.trunk.keptBy f.sender .notice).length < 64) :
    s.offer f = (.waiting, s.withTrunk fun t => { t with kept := t.kept ++ [f] }) := by
  simp only [State.offer, hc, hw, hs, Trunk.queue, Trunk.hold, Config.queueCapacity, Nat.not_lt.2 hfull, htaken,
    Config.keptCapacity, hroom]
  rfl

theorem Entry.queryStatus_eq (e : Entry) (n : Station) (q : QueryStatus) :
    e.queryStatus n q = { e with phase := match e.phase with
      | .changing c => .changing { c with holdout := setStatus n q c.holdout }
      | p => p } := by
  obtain ⟨k, c, v, p, b⟩ := e
  cases p <;> rfl

/-- The query formed for station `n`. -/
def State.shelfQuestion (s : State) (n : Station) : Frame :=
  { dest := some n, body := .shelfQuery (s.askedOf n), purpose := .shelfQuestion, attempts := 0 }

/-- Where the query's frame goes: lost, queued, held, or kept behind the frame its block holds (R123, R124). -/
theorem State.queryStation_offered {n : Station} (hw : AMap.wf s.book.entries = true) (hd : s.QueryDue n)
    (hl : ∃ a c, s.Late n a c) :
    (s.canSend = false → s.queryStation n = (s.asked n (s.askedOf n)).bump .notTakenNotice) ∧
    (s.canSend = true → s.trunk.notice.length < 64 → s.queryStation n =
      (s.asked n (s.askedOf n)).withTrunk fun t => { t with notice := t.notice ++ [s.shelfQuestion n] }) ∧
    (s.canSend = true → 64 ≤ s.trunk.notice.length → (∀ g ∈ s.trunk.holdNotice, g.sender ≠ .book) → s.queryStation n =
      ((s.asked n (s.askedOf n)).withTrunk fun t => { t with holdNotice := t.holdNotice ++ [s.shelfQuestion n] }).bump .framesWaited) ∧
    (s.canSend = true → 64 ≤ s.trunk.notice.length → (∃ g ∈ s.trunk.holdNotice, g.sender = .book) →
      (s.trunk.keptBy .book .notice).length < 64 → s.queryStation n =
        (s.asked n (s.askedOf n)).withTrunk fun t => { t with kept := t.kept ++ [s.shelfQuestion n] }) := by
  have run := State.queryStation_asked hw hd hl
  unfold State.send at run
  refine ⟨fun hs => ?_, fun hs hroom => ?_, fun hs hfull hnone => ?_, fun hs hfull hsome hkept => ?_⟩
  · rw [run, State.offer_of_not_canSend _ _ hs]
    rfl
  · rw [run, State.offer_notice_queued rfl hs hroom]
    rfl
  · have free : (s.trunk.holdNotice.any fun g => g.sender == .book) = false := by simpa using hnone
    rw [run, State.offer_notice_held (f := Frame.new (some n) (.shelfQuery (s.askedOf n)) .shelfQuestion) rfl rfl hs hfull free]
    rfl
  · have taken : (s.trunk.holdNotice.any fun g => g.sender == .book) = true := by simpa using hsome
    rw [run, State.offer_notice_kept (f := Frame.new (some n) (.shelfQuery (s.askedOf n)) .shelfQuestion) rfl rfl hs hfull taken hkept]
    rfl

/-- The reports of a query: late changes, the first of them in the order of R15, up to 64. -/
theorem State.askedOf_spec {n : Station} (hw : AMap.wf s.book.entries = true) (hl : ∃ a c, s.Late n a c) :
    1 ≤ (s.askedOf n).length ∧ (s.askedOf n).length ≤ 64 ∧
    (∀ r ∈ s.askedOf n, ∃ c, s.Late n r.article c ∧ r.version = c.pending.version) ∧
    ((s.askedOf n).length < 64 → ∀ a c, s.Late n a c → ⟨a, c.pending.version⟩ ∈ s.askedOf n) ∧
    (∀ r ∈ s.askedOf n, ∀ a c d, s.Late n r.article c → s.Late n a d → ⟨a, d.pending.version⟩ ∉ s.askedOf n →
      d.age < c.age ∨ (d.age = c.age ∧ r.article < a)) ∧
    (s.askedOf n).Pairwise (fun r q => ∀ c d, s.Late n r.article c → s.Late n q.article d →
      d.age < c.age ∨ (d.age = c.age ∧ r.article < q.article)) := by
  have late {a : Nat} {c : Changeover} (h : s.Late n a c) : (c.age, a, c.pending.version) ∈ lateEntries n s.book.entries :=
    (State.mem_lateEntries hw n _).2 ⟨c, h, rfl, rfl⟩
  have report {x : Nat × Nat × Nat} (h : x ∈ s.asks n) : ⟨x.2.1, x.2.2⟩ ∈ s.askedOf n := List.mem_map_of_mem h
  have len : (s.askedOf n).length = min 64 (lateEntries n s.book.entries).length := by
    simp [State.askedOf, State.asks, Config.reportCapacity]
  have ageOf {x : Nat × Nat × Nat} (h : x ∈ s.asks n) {c : Changeover} (hc : s.Late n x.2.1 c) : c.age = x.1 := by
    obtain ⟨c', hc', hage, -⟩ := State.mem_asks hw h
    rw [hc.unique hc', hage]
  refine ⟨?_, ?_, fun r hr => ?_, fun hlt a c hc => ?_, fun r hr a c d hc hd hno => ?_, ?_⟩
  · obtain ⟨a, c, hc⟩ := hl
    have := List.length_pos_of_mem (late hc)
    omega
  · omega
  · obtain ⟨x, hx, rfl⟩ := List.mem_map.1 hr
    obtain ⟨c, hc, -, hv⟩ := State.mem_asks hw hx
    exact ⟨c, hc, hv.symm⟩
  · have whole : s.asks n = lateEntries n s.book.entries := List.take_of_length_le (by simp only [Config.reportCapacity]; omega)
    exact report (x := (c.age, a, c.pending.version)) (whole ▸ late hc)
  · obtain ⟨x, hx, rfl⟩ := List.mem_map.1 hr
    have first := State.asks_first hw hx (late hd) fun h => hno (report h)
    rw [ageOf hx hc]
    exact first
  · refine List.pairwise_map.2 ((State.asks_ordered hw n).imp_of_mem fun {x y} hx hy hxy c d hc hd => ?_)
    rw [ageOf hx hc, ageOf hy hd]
    exact hxy

/-- A query of the one late entry of a book of one entry. -/
theorem State.queryStation_single {n : Station} {a : Nat} {c : Changeover} (hent : s.book.entries.map (·.1) = [a])
    (hd : s.QueryDue n) (hs : s.canSend = true) (hroom : s.trunk.notice.length < 64) (hl : s.Late n a c) :
    s.queryStation n = ((s.modifyEntry a fun e => { e with phase := .changing { c with
      holdout := setStatus n .queried c.holdout } }).withBook fun b => { b with queryTimes := AMap.put b.queryTimes n.val s.now }).withTrunk
        fun t => { t with notice := t.notice ++
          [{ dest := some n, body := .shelfQuery [⟨a, c.pending.version⟩], purpose := .shelfQuestion, attempts := 0 }] } := by
  obtain ⟨⟨k, e⟩, hx, rfl⟩ := List.map_eq_singleton_iff.1 hent
  have hw : AMap.wf s.book.entries = true := by rw [hx]; rfl
  obtain ⟨⟨e', he', hp⟩, hage, hheld⟩ := hl
  have same : e' = e := by
    have here : AMap.get s.book.entries k = some e' := he'
    rw [hx] at here
    simpa [AMap.get] using here.symm
  subst same
  have asks : s.askedOf n = [⟨k, c.pending.version⟩] := by
    have one : queryable n s.book.entries = [(c.age, k, c.pending.version)] := by
      rw [hx]
      simp only [queryable, hp]
      exact if_pos ⟨hage, (holdsOut_iff _ _).2 hheld⟩
    simp only [State.askedOf, State.asks, lateEntries, one, List.foldl_cons, List.foldl_nil, insertQuery]
    rfl
  rw [(State.queryStation_offered hw hd ⟨k, c, ⟨e', he', hp⟩, hage, hheld⟩).2.1 hs hroom]
  simp only [State.shelfQuestion, asks, State.asked, State.modifyEntry, State.withBook, State.withTrunk, hx, AMap.modify,
    List.map_cons, List.map_nil, List.any_cons, List.any_nil, beq_self_eq_true, Bool.or_false, if_true, Entry.queryStatus, hp]

/-! ### The expiry (R9, R11) -/

theorem exec_secondTimer (hl : s.live = true) : exec .secondTimerExpiry s = .next
    (let v : State := { s with now := max s.now s.book.timer, book := { s.book with timer := s.book.timer + Config.seconds 1 } }
     if s.working then (List.finRange 16).foldl (fun s n => s.queryStation n)
       ((s.book.entries.map (·.1)).foldl (fun s a => s.examine a) v) else v) := by
  show execSecondTimerExpiry s = _
  simp only [execSecondTimerExpiry, hl, if_true, allStations_eq_finRange]
  rfl

theorem State.due_iff (s : State) (x : StoreTime) : (isAtOnce x || s.hasCome x) = true ↔ x = ⟨0, 0⟩ ∨
    ∃ now, s.unit.clock = some now ∧ (x.day < now.day ∨ (x.day = now.day ∧ x.sec ≤ now.sec)) := by
  rw [Bool.or_eq_true]
  refine or_congr (by simp [isAtOnce]) ?_
  unfold State.hasCome
  cases s.unit.clock with
  | none => simp
  | some c => simp [timeLe]

theorem State.newHoldout_congr (hs : t.settings = s.settings) (hp : s.SamePeers t) : t.newHoldout = s.newHoldout := by
  have hp : t.trunk.peers = s.trunk.peers := hp
  simp only [State.newHoldout, State.self, State.peer, hs, hp]

/-- What the examination looks at, beside the article's entry and shelves. -/
theorem State.heldOut_congr {a : Nat} (hs : t.settings = s.settings) (hp : s.SamePeers t) (he : t.entry a = s.entry a)
    (hf : t.floor a = s.floor a) (p : Change) : t.heldOut a p = s.heldOut a p := by
  simp only [State.heldOut, State.shelfDone, State.newHoldout_congr hs hp, State.self, hs, he, hf]
  congr

/-- An entry under the examination of the whole book: it is examined as if alone, and then queried. -/
theorem State.examined_spec (hw : AMap.wf s.book.entries = true) {a : Nat} {e : Entry} (he : s.entry a = some e) :
    let w := (s.book.entries.map (·.1)).foldl (fun s a => s.examine a) s
    AMap.wf w.book.entries = true ∧ ∃ v : State, v.entry a = some e ∧ w.entry a = (v.examine a).entry a ∧ v.settings = s.settings ∧
      v.unit = s.unit ∧ s.SamePeers v ∧ (AMap.wf s.labels.owned = true → AMap.wf v.labels.owned = true ∧ v.floor a = s.floor a) := by
  have keys := (AMap.wf_iff _).1 hw
  have mem : a ∈ s.book.entries.map (·.1) := List.mem_map_of_mem (AMap.mem_of_get he)
  obtain ⟨before, after, split⟩ := List.append_of_mem mem
  rw [split] at keys ⊢
  obtain ⟨-, hcons, hcross⟩ := List.pairwise_append.1 keys
  have notBefore : a ∉ before := fun h => Nat.lt_irrefl a (hcross a h a (List.mem_cons_self ..))
  have notAfter : a ∉ after := fun h => Nat.lt_irrefl a ((List.pairwise_cons.1 hcons).1 a h)
  obtain ⟨hk, hp, -, hb, hent, hown⟩ := State.foldl_examine_other before notBefore s
  generalize hv : before.foldl (fun s b => s.examine b) s = v at hk hp hb hent hown
  obtain ⟨-, -, -, hb', hent', -⟩ := State.foldl_examine_other after notAfter (v.examine a)
  simp only [List.foldl_append, List.foldl_cons, hv]
  exact ⟨hb' ((v.examine_works a).book (hb hw)), v, hent.trans he, hent', hk .settings (by decide), hk .unit (by decide),
    hp, hown⟩

theorem State.foldl_examine_keeps (as : List Nat) (s : State) :
    keeps shelfFields s (as.foldl (fun s a => s.examine a) s) ∧
      (as.foldl (fun s a => s.examine a) s).book.timer = s.book.timer := by
  induction as generalizing s with
  | nil => exact ⟨keeps.refl _ _, rfl⟩
  | cons a as ih =>
    have works := s.examine_works a
    obtain ⟨hk, ht⟩ := ih (s.examine a)
    rw [List.foldl_cons]
    exact ⟨works.keeps.trans hk, ht.trans works.timer⟩

theorem State.foldl_examine_wf (as : List Nat) (s : State) (h : AMap.wf s.book.entries = true) :
    AMap.wf (as.foldl (fun s a => s.examine a) s).book.entries = true := by
  induction as generalizing s with
  | nil => exact h
  | cons a as ih =>
    rw [List.foldl_cons]
    exact ih _ ((s.examine_works a).book h)

/-- What an expiry makes of an entry, examined in a state `v` that has the entry and shelves of the first, and queried. -/
structure State.Expired (s : State) (a : Nat) (e : Entry) (t : State) : Prop where
  steady : e.phase = .steady → t.entry a = some e
  waits : ∀ p, e.phase = .waiting p → (isAtOnce p.effective || s.hasCome p.effective) = false → t.entry a = some e
  fresh : ∀ p, e.phase = .waiting p → (isAtOnce p.effective || s.hasCome p.effective) = true → e.current = none →
    (∀ k x, p.action = .set k x →
      t.entry a = some { e with kind := k, current := some x, version := p.version, phase := .steady }) ∧
    (p.action = .withdraw → t.entry a = none)
  begins : ∀ p, e.phase = .waiting p → (isAtOnce p.effective || s.hasCome p.effective) = true → e.current ≠ none →
    AMap.wf s.labels.owned = true →
      (s.heldOut a p ≠ [] → t.entry a = some { e with phase := .changing { s.begun p with holdout := s.heldOut a p } }) ∧
      (s.heldOut a p = [] →
        (∀ k x, p.action = .set k x →
          t.entry a = some { e with kind := k, current := some x, version := p.version, phase := .steady }) ∧
        (p.action = .withdraw → t.entry a = none))
  ages : ∀ c, e.phase = .changing c → ∃ g, t.entry a = some { e with phase := .changing g } ∧ (c.tick s.unit.clock).Asked g

theorem State.expired_of {v : State} {a : Nat} {e : Entry} (hv : v.entry a = some e) (he : s.entry a = some e)
    (hs : v.settings = s.settings) (hu : v.unit = s.unit) (hp : s.SamePeers v)
    (ho : AMap.wf s.labels.owned = true → AMap.wf v.labels.owned = true ∧ v.floor a = s.floor a)
    (stays : (∀ e' c, (v.examine a).entry a = some e' → e'.phase = .changing c → c.age < 60) →
      t.entry a = (v.examine a).entry a)
    (asked : ∀ e' c, (v.examine a).entry a = some e' → e'.phase = .changing c →
      ∃ g, t.entry a = some { e' with phase := .changing g } ∧ c.Asked g) : s.Expired a e t := by
  have come (x : StoreTime) : v.hasCome x = s.hasCome x := by simp only [State.hasCome, hu]
  have quiet {o : Option Entry} (h : (v.examine a).entry a = o) (hq : ∀ e' c, o = some e' → e'.phase = .changing c → c.age < 60) :
      t.entry a = o := (stays fun e' c he' => hq e' c (h.symm.trans he')).trans h
  have still {y : Entry} (hy : y.phase = .steady) : ∀ e' c, some y = some e' → e'.phase = .changing c → c.age < 60 := by
    rintro e' c ⟨⟩ hc
    rw [hy] at hc
    cases hc
  have gone : ∀ e' c, (none : Option Entry) = some e' → e'.phase = .changing c → c.age < 60 := by
    rintro e' c ⟨⟩
  refine ⟨fun hp => ?_, fun p hp hc => ?_, fun p hp hc hcur => ?_, fun p hph hc hcur hw => ?_, fun c hp => ?_⟩
  · refine quiet ?_ (still hp)
    rw [State.examine_steady hv hp]
    exact hv
  · refine quiet ?_ fun e' c h h' => ?_
    · rw [State.examine_waits hv hp (by rw [come]; exact hc)]
      exact hv
    · cases h
      rw [hp] at h'
      cases h'
  · obtain ⟨hset, hgone⟩ := State.effectiveTimeReached_fresh (s := v) (a := a) (p := p) hcur
    rw [← State.examine_due hv hp (by rw [come]; exact hc)] at hset hgone
    exact ⟨fun k x ha => quiet (hset k x ha) (still rfl), fun ha => quiet (hgone ha) gone⟩
  · obtain ⟨hwf, hfloor⟩ := ho hw
    obtain ⟨hstands, hcompletes⟩ := State.startChangeover_entry (p := p) hv hwf
    have held : v.heldOut a p = s.heldOut a p := State.heldOut_congr hs hp (hv.trans he.symm) hfloor p
    have begun : v.begun p = s.begun p := by
      simp only [State.begun, State.newHoldout_congr hs hp, State.newDeadline, hs, hu]
    have started : v.examine a = v.startChangeover a e p := by
      rw [State.examine_due hv hph (by rw [come]; exact hc), State.effectiveTimeReached,
        if_pos (Option.isSome_iff_ne_none.2 hcur)]
    rw [held, begun, ← started] at hstands
    rw [held, ← started] at hcompletes
    refine ⟨fun h => quiet (hstands h) fun e' c h h' => ?_, fun h => ?_⟩
    · cases h
      cases h'
      exact Nat.zero_lt_succ _
    · obtain ⟨hset, hgone⟩ := hcompletes h
      exact ⟨fun k x ha => quiet (hset k x ha) (still rfl), fun ha => quiet (hgone ha) gone⟩
  · refine asked { e with phase := .changing (c.tick s.unit.clock) } (c.tick s.unit.clock) ?_ rfl
    rw [State.examine_changing hv hp, hu]
    exact State.entry_putEntry_self _ _ _

/-- The whole expiry of a part that works: every entry is examined and queried (R9 to R11, R15). -/
theorem State.expiry_expired (hb : AMap.wf s.book.entries = true) {a : Nat} {e : Entry} (he : s.entry a = some e) (ns : List Station) :
    s.Expired a e (ns.foldl (fun s n => s.queryStation n) ((s.book.entries.map (·.1)).foldl (fun s a => s.examine a) s)) := by
  obtain ⟨wf, v, hv, hw, hs, hu, hp, ho⟩ := State.examined_spec hb he
  generalize (s.book.entries.map (·.1)).foldl (fun s a => s.examine a) s = w at wf hw
  obtain ⟨-, stays, asked⟩ := State.foldl_queryStation ns wf
  refine State.expired_of hv he hs hu hp ho (fun h => ?_) fun e' c h h' => ?_
  · rw [← hw] at h ⊢
    exact stays a h
  · rw [← hw] at h
    exact asked a e' c h h'

/-! ### A book of one entry that holds one station out -/

theorem finRange_split (n : Station) : ∃ ks ls, List.finRange 16 = ks ++ n :: ls ∧ n ∉ ks ∧ n ∉ ls := by
  obtain ⟨ks, ls, h⟩ := List.append_of_mem (List.mem_finRange n)
  have nodup := List.nodup_finRange 16
  rw [h] at nodup
  obtain ⟨-, hcons, hcross⟩ := List.nodup_append.1 nodup
  exact ⟨ks, ls, h, fun hk => hcross n hk n (List.mem_cons_self ..) rfl, (List.nodup_cons.1 hcons).1⟩

/-- No other station is queried. -/
theorem State.foldl_queryStation_one {a : Nat} {e : Entry} {n : Station} (hent : s.book.entries = [(a, e)])
    (hc : ∀ c, e.phase = .changing c → ∀ h ∈ c.holdout, h.station = n) (ms : List Station) (hn : n ∉ ms) :
    ms.foldl (fun s m => s.queryStation m) s = s := by
  induction ms with
  | nil => rfl
  | cons m ms ih =>
    obtain ⟨hm, hms⟩ := not_or.1 (mt List.mem_cons.2 hn)
    have none : s.queryStation m = s := by
      refine State.queryStation_none (by rw [hent]; rfl) fun b c => ?_
      rintro ⟨⟨e', he, hp⟩, -, h, hh, hst⟩
      have same : e' = e := by
        have here : AMap.get s.book.entries b = some e' := he
        rw [hent] at here
        simp only [AMap.get] at here
        split at here
        · exact (Option.some.inj here).symm
        · cases here
      exact hm ((hc c (same ▸ hp) h hh).symm.trans hst)
    rw [List.foldl_cons, none]
    exact ih hms

end Sys2Proof.Machine

/-! ### The statements -/

open Sys2Proof Sys2Proof.Machine

/-- Settles O18: the examination entry by entry, the query of a station, and the two in their order. -/
theorem secondTimerExaminesTheBook : Obligations.SecondTimerExaminesTheBook := by
  unfold Obligations.SecondTimerExaminesTheBook
  refine ⟨fun s hl => ⟨fun hw => ?held, fun hw hb => ?examined⟩, fun s n => ?queries, fun s hl hw => ?order,
    fun s n a e c hl hr hent hp hage hh hn ha hk hq hroom => ?single⟩
  case held =>
    rw [exec_secondTimer hl, hw]
    rfl
  case order =>
    rw [exec_secondTimer hl, hw]
    rfl
  case examined =>
    have run := exec_secondTimer hl
    rw [hw] at run
    generalize hv : ({ s with now := max s.now s.book.timer, book := { s.book with timer := s.book.timer + Config.seconds 1 } } : State) = v
      at run
    have vbook : v.book = { s.book with timer := s.book.timer + Config.seconds 1 } := by rw [← hv]
    have vnow : v.now = max s.now s.book.timer := by rw [← hv]
    have vkeeps : keeps (.now :: shelfFields) s v := by
      rw [← hv]
      intro f hf
      cases f
      case now => exact absurd (by decide) hf
      case book => exact absurd (by decide) hf
      all_goals rfl
    have vlabels : v.labels = s.labels := by rw [← hv]
    have vtrunk : v.trunk = s.trunk := by rw [← hv]
    have vsettings : v.settings = s.settings := vkeeps .settings (by decide)
    have vunit : v.unit = s.unit := vkeeps .unit (by decide)
    have ventries : v.book.entries = s.book.entries := by rw [vbook]
    have vwf : AMap.wf v.book.entries = true := ventries ▸ hb
    have expired {a : Nat} {e : Entry} (he : v.entry a = some e) := State.expiry_expired vwf he (List.finRange 16)
    obtain ⟨kept, timer⟩ := State.foldl_examine_keeps (v.book.entries.map (·.1)) v
    have wwf := State.foldl_examine_wf (v.book.entries.map (·.1)) v vwf
    rw [ventries] at expired kept timer wwf
    dsimp only at run
    generalize hw : (s.book.entries.map (·.1)).foldl (fun s a => s.examine a) v = w at run expired kept timer wwf
    obtain ⟨qtimer, -⟩ := State.foldl_queryStation (List.finRange 16) wwf
    have qkeeps := State.foldl_queryStation_keeps (List.finRange 16) w
    generalize ht : (List.finRange 16).foldl (fun s n => s.queryStation n) w = t at run expired qtimer qkeeps
    refine ⟨t, run, ?_, ?_, ?_, fun a e he => ?_⟩
    · exact (qkeeps .now (by decide)).trans ((kept .now (by decide)).trans vnow)
    · rw [qtimer, timer, vbook]
    · exact vkeeps.trans ((kept.trans qkeeps).mono (by decide))
    · have ventry : v.entry a = s.entry a := congrArg (AMap.get · a) ventries
      have spec := expired (ventry.trans he)
      have come (x : StoreTime) : v.hasCome x = s.hasCome x := by simp only [State.hasCome, vunit]
      refine ⟨spec.steady, fun p hp => ?_, fun c hp => ?_⟩
      · intro due
        have due_iff : due ↔ (isAtOnce p.effective || v.hasCome p.effective) = true := by
          rw [come]
          exact (s.due_iff p.effective).symm
        have held : v.heldOut a p = s.heldOut a p := State.heldOut_congr vsettings (congrArg Trunk.peers vtrunk) ventry
          (congrArg (fun l : Labels => floorOf a l.owned) vlabels) p
        have begun : v.begun p = s.begun p := by
          simp only [State.begun, State.newHoldout_congr vsettings (congrArg Trunk.peers vtrunk), State.newDeadline, vsettings, vunit]
        rw [due_iff]
        refine ⟨fun h => spec.waits p hp (Bool.eq_false_iff.2 h), spec.fresh p hp, fun h hc hl => ?_⟩
        have begins := spec.begins p hp h hc (vlabels ▸ hl)
        rw [held, begun] at begins
        exact begins
      · obtain ⟨g, hg, asked⟩ := spec.ages c hp
        rw [vunit] at asked
        refine ⟨g, hg, asked.pending, asked.queued, asked.age, asked.holdout, fun x hx => ?_, fun n hn hc => ?_, fun n x hn hc => ?_⟩ <;>
          rw [asked.deadline]
        · simp only [Changeover.tick, hx]
        · simp only [Changeover.tick, hn, hc]
        · simp only [Changeover.tick, hn, hc]
  case queries =>
    intro late due
    refine ⟨State.queryStation_not, State.queryStation_none, fun hd hs hroom a c hent hl => State.queryStation_single hent hd hs hroom hl,
      fun hd hw hl => ⟨s.askedOf n, ?_⟩⟩
    intro frame asked
    have same : asked = s.asked n (s.askedOf n) := by
      refine congrArg s.withBook (funext fun b => ?_)
      refine congrArg (fun l => ({ b with queryTimes := AMap.put b.queryTimes n.val s.now, entries := l } : Book))
        (List.map_congr_left fun x _ => ?_)
      rw [Entry.queryStatus_eq]
      rfl
    obtain ⟨h1, h2, h3, h4, h5, h6⟩ := State.askedOf_spec hw hl
    obtain ⟨lost, queued, held, kept⟩ := State.queryStation_offered hw hd hl
    rw [same]
    exact ⟨h1, h2, h3, h4, h5, h6, lost, queued, held, kept⟩
  case single =>
    have run := exec_secondTimer hl
    have hw : s.working = true := by simp [State.working, hr]
    rw [hw, if_pos rfl] at run
    generalize hv : ({ s with now := max s.now s.book.timer, book := { s.book with timer := s.book.timer + Config.seconds 1 } } : State) = v
      at run
    have vent : v.book.entries = [(a, e)] := by rw [← hv]; exact hent
    have ventry : v.entry a = some e := by
      simp [State.entry, vent, AMap.get]
    rw [hent] at run
    simp only [List.map_cons, List.map_nil, List.foldl_cons, List.foldl_nil, State.examine_changing ventry hp] at run
    generalize hd : c.tick v.unit.clock = d at run
    have dage : 60 ≤ d.age := by
      rw [← hd]
      simp only [Changeover.tick]
      omega
    have dhold : d.holdout = [⟨n, .none⟩] := by rw [← hd]; exact hh
    have dver : d.pending.version = c.pending.version := by rw [← hd]; rfl
    generalize hw' : v.putEntry a { e with phase := .changing d } = w at run
    have went : w.book.entries = [(a, { e with phase := .changing d })] := by
      rw [← hw']
      simp [State.putEntry, State.withBook, vent, AMap.put]
    have wtrunk : w.trunk = s.trunk := by rw [← hw', ← hv]; rfl
    have wself : w.self = s.self := by rw [← hw', ← hv]; rfl
    have wpart : w.part = s.part := by rw [← hw', ← hv]; rfl
    have wtimes : w.book.queryTimes = [] := by rw [← hw', ← hv]; exact hq
    have due : w.QueryDue n := by
      refine ⟨wself ▸ hn, ?_, ?_, fun t ht => ?_⟩
      · simp only [State.peer, wtrunk]
        exact ha
      · simp only [State.peer, wtrunk]
        exact hk
      · rw [wtimes] at ht
        cases ht
    have late : w.Late n a d := by
      refine ⟨⟨{ e with phase := .changing d }, ?_, rfl⟩, dage, ⟨n, .none⟩, dhold ▸ List.mem_singleton_self _, rfl⟩
      simp [State.entry, went, AMap.get]
    have sends : w.canSend = true := by simp [State.canSend, wpart, hr]
    have one := State.queryStation_single (by rw [went]; rfl) due sends (by rw [wtrunk]; exact hroom) late
    rw [dhold, dver] at one
    have stationList : setStatus n .queried [(⟨n, .none⟩ : Holdout)] = [⟨n, .queried⟩] := by simp [setStatus]
    rw [stationList] at one
    obtain ⟨ks, ls, split, notKs, notLs⟩ := finRange_split n
    have before : ∀ g, Phase.changing d = .changing g → ∀ h ∈ g.holdout, h.station = n := by
      rintro g ⟨⟩ h hh
      rw [dhold, List.mem_singleton] at hh
      rw [hh]
    rw [split, List.foldl_append, List.foldl_cons, State.foldl_queryStation_one went before ks notKs, one] at run
    generalize hz : ((w.modifyEntry a fun e => { e with phase := .changing { d with holdout := [⟨n, .queried⟩] } }).withBook fun b =>
      { b with queryTimes := AMap.put b.queryTimes n.val w.now }).withTrunk (fun t => { t with notice := t.notice ++
        [{ dest := some n, body := .shelfQuery [⟨a, c.pending.version⟩], purpose := .shelfQuestion, attempts := 0 }] }) = z at run
    have zent : z.book.entries = [(a, { e with phase := .changing { d with holdout := [⟨n, .queried⟩] } })] := by
      rw [← hz]
      simp [State.modifyEntry, State.withBook, State.withTrunk, went, AMap.modify]
    have after : ∀ g, Phase.changing { d with holdout := [⟨n, .queried⟩] } = .changing g → ∀ h ∈ g.holdout, h.station = n := by
      rintro g ⟨⟩ h hh
      rw [List.mem_singleton] at hh
      rw [hh]
    rw [State.foldl_queryStation_one zent after ls notLs] at run
    refine ⟨z, run, ?_, { d with holdout := [⟨n, .queried⟩] }, ?_, rfl⟩
    · rw [← hz, ← wtrunk]
      rfl
    · simp [State.entry, zent, AMap.get]

end


section
/-! PROOFS. The end of a slot, the slot that begins, and what its turns leave of the cycle and the URGENT queue. -/

namespace Sys2Proof.Machine

open Sys2Proof

variable {s t u : State}

/-! ### What the turns of a slot leave (R87, R93, R105) -/

/-- The counts that the turns of a slot may raise. -/
def turnCounts : List Count := shelfCounts ++
  [.unansweredAttempts, .labelsLost, .failedMoves, .showsSent, .blanksSent, .alertsRecorded, .ackedAlertsRemoved, .alertOverflow]

/-- Turns have ended or been taken: the cycle and the URGENT queue stand, and no mark is counted. -/
structure State.Turns (s t : State) : Prop where
  cycle : s.SameCycle t
  urgent : t.trunk.urgent = s.trunk.urgent
  counts : Raises turnCounts s t

theorem State.Turns.refl (s : State) : s.Turns s := ⟨.refl s, rfl, .refl _ s⟩

theorem State.Turns.trans (h : s.Turns t) (k : t.Turns u) : s.Turns u :=
  ⟨h.cycle.trans k.cycle, k.urgent.trans h.urgent, h.counts.trans k.counts⟩

theorem State.Turns.of_keeps {fs : List Field} (hk : keeps fs s t) (hf : ∀ f ∈ [Field.labels, .trunk, .counts], f ∉ fs) : s.Turns t :=
  ⟨.of_keeps hk (hf _ (by decide)), congrArg Trunk.urgent (hk .trunk (hf _ (by decide))), .of_keeps hk (hf _ (by decide)) _⟩

theorem State.Turns.putOwned (s : State) (n : Nat) (o : Owned) : s.Turns (s.putOwned n o) :=
  ⟨.putOwned s n o, rfl, .of_keeps (s.putOwned_keeps n o) (by decide) _⟩

theorem State.Turns.bump (s : State) {c : Count} (h : c ∈ turnCounts) : s.Turns (s.bump c) :=
  ⟨.of_keeps (s.bump_keeps c) (by decide), congrArg Trunk.urgent (s.bump_keeps c .trunk (by decide)), .bump s h⟩

theorem State.Turns.recordAlert (s : State) (k : AlertKind) (v : Severity) (x : Subject) (d : Detail) : s.Turns (s.recordAlert k v x d) :=
  ⟨.of_keeps (s.recordAlert_keeps k v x d) (by decide), congrArg Trunk.urgent (s.recordAlert_keeps k v x d .trunk (by decide)),
    .recordAlert s k v x d (by decide)⟩

/-- Changes that leave the trunk, given by what they leave of the cycle and the counts. -/
theorem State.Turns.shelves {fs : List Field} (hk : keeps fs s t) (hf : Field.trunk ∉ fs) (hc : s.SameCycle t)
    (hr : Raises shelfCounts s t) : s.Turns t :=
  ⟨hc, congrArg Trunk.urgent (hk .trunk hf), hr.mono (by decide)⟩

/-- No frame of the shelves is URGENT. -/
theorem State.Turns.offer (s : State) (f : Frame) (h : f.body.trunkClass ≠ .urgent) : s.Turns (s.offer f).2 := by
  refine ⟨.of_keeps (s.offer_keeps f) (by decide), ?_, (Raises.offer s f).mono (by decide)⟩
  have queued (w : Trunk) (q : List Frame) : (w.setQueue f.body.trunkClass q).urgent = w.urgent := by
    cases hc : f.body.trunkClass with
    | urgent => exact absurd hc h
    | notice => rfl
    | bulk => rfl
  have held (w : Trunk) (q : List Frame) : (w.setHold f.body.trunkClass q).urgent = w.urgent := by
    cases f.body.trunkClass <;> rfl
  unfold State.offer
  dsimp only
  split
  · exact congrArg Trunk.urgent (s.bump_keeps _ .trunk (by decide))
  split
  · exact queued _ _
  split
  · exact congrArg Trunk.urgent (s.bump_keeps _ .trunk (by decide))
  split
  · split <;> rfl
  · exact Eq.trans (congrArg Trunk.urgent (State.bump_keeps _ _ .trunk (by decide))) (held _ _)

theorem State.Turns.foldl {α : Type} {g : State → α → State} (hg : ∀ (s : State) x, s.Turns (g s x)) (l : List α) (s : State) :
    s.Turns (l.foldl g s) := by
  induction l generalizing s with
  | nil => exact .refl s
  | cons x l ih => exact (hg s x).trans (ih _)

theorem State.refuseClaim_turns (s : State) (n : Nat) (c : Station) (y : Option Int) : s.Turns (s.refuseClaim n c y) :=
  .offer s _ (by simp [Frame.new, FrameBody.trunkClass])

theorem State.retarget_turns (s : State) (n : Nat) (x : Target) : s.Turns (s.retarget n x) := by
  unfold State.retarget
  split
  · exact .refl s
  · next o ho =>
    dsimp only
    split
    case h_5 m hm =>
      split
      · exact .putOwned s n _
      · exact (State.Turns.putOwned s n _).trans (State.refuseClaim_turns _ _ _ _)
    all_goals exact .putOwned s n _

theorem State.unbindAll_turns (s : State) (a : Nat) : s.Turns (s.unbindAll a) := by
  refine .foldl (fun s n => ?_) _ s
  unfold State.unbindOne
  split
  · exact .refl s
  · exact ((State.Turns.putOwned s n _).trans (State.retarget_turns _ _ _)).trans
      (.of_keeps (State.uncountBound_keeps _ a) (by decide))

theorem State.complete_turns (s : State) (a : Nat) (c : Changeover) : s.Turns (s.complete a c) := by
  unfold State.complete
  split
  · exact .of_keeps (s.modifyEntry_keeps a _) (by decide)
  · refine (s.unbindAll_turns a).trans ?_
    dsimp only
    split
    · exact .of_keeps (State.removeEntry_keeps _ a) (by decide)
    · split
      · exact .of_keeps (State.modifyEntry_keeps _ a _) (by decide)
      · exact (State.Turns.of_keeps (State.removeEntry_keeps _ a) (by decide)).trans (.bump _ (by decide))

theorem State.floorReport_turns (s : State) (a : Nat) : s.Turns (s.floorReport a) := by
  have released (v : State) (c : Changeover) (n : Station) : v.Turns (v.release a c n) := by
    unfold State.release
    dsimp only
    split
    · exact (State.Turns.of_keeps (v.modifyEntry_keeps a _) (by decide)).trans (State.complete_turns _ a _)
    · exact .of_keeps (v.modifyEntry_keeps a _) (by decide)
  have reported (v : State) (r : Report) : v.Turns (v.addReport r) :=
    .shelves (v.addReport_keeps r) (by decide) (.of_keeps (v.addReport_keeps r) (by decide)) (v.addReport_raises r)
  have formed (v : State) : v.Turns v.formReports := by
    unfold State.formReports
    split
    · exact .refl v
    · exact (State.Turns.offer v _ (by simp [Frame.new, FrameBody.trunkClass])).trans (.of_keeps (State.withBook_keeps _ _) (by decide))
  unfold State.floorReport State.localDone
  repeat' split
  case h_3.isTrue => exact ((reported s _).trans (released _ _ _)).trans (formed _)
  all_goals exact .refl s

theorem State.floorReportOpt_turns (s : State) (a : Option Nat) : s.Turns (s.floorReportOpt a) := by
  cases a with
  | none => exact .refl s
  | some a => exact s.floorReport_turns a

theorem State.unanswered_turns (s : State) (n : Nat) (o : Owned) : s.Turns (s.unanswered n o) := by
  unfold State.unanswered
  have counted : s.Turns (s.bump .unansweredAttempts) := .bump s (by decide)
  dsimp only
  split
  · exact counted.trans (.putOwned _ n _)
  · exact (((counted.trans (.putOwned _ n _)).trans (.bump _ (by decide))).trans (.recordAlert _ _ _ _ _)).trans
      (State.floorReportOpt_turns _ _)

theorem State.moveUnanswered_turns (s : State) (n : Nat) (o : Owned) (m : Move) : s.Turns (s.moveUnanswered n o m) := by
  unfold State.moveUnanswered
  have counted : s.Turns (s.bump .unansweredAttempts) := .bump s (by decide)
  dsimp only
  split
  · exact counted.trans (.putOwned _ n _)
  · exact ((counted.trans (.putOwned _ n _)).trans (.bump _ (by decide))).trans (State.refuseClaim_turns _ _ _ _)

theorem State.endTurn_turns (s : State) (n : Nat) : s.Turns (s.endTurn n) := by
  unfold State.endTurn
  split
  · exact .refl s
  · split
    case h_3 => exact s.unanswered_turns n _
    case h_4 =>
      split
      · exact s.moveUnanswered_turns n _ _
      · exact .refl s
    all_goals exact .refl s

theorem State.endTurns_turns (s : State) : s.Turns s.endTurns := .foldl (fun s n => s.endTurn_turns n) _ s

theorem State.redirect_turns (s : State) (n : Nat) : s.Turns (s.redirect n) := by
  have stray (a : Nat) : s.Turns (s.unbindStray n a) := by
    unfold State.unbindStray
    split
    · exact .refl s
    · exact (((State.Turns.putOwned s n _).trans (State.retarget_turns _ _ _)).trans
        (.of_keeps (State.uncountOpt_keeps _ _) (by decide))).trans (State.floorReport_turns _ a)
  unfold State.redirect
  split
  · exact .refl s
  · split
    · exact .refl s
    · exact .refl s
    · split
      · exact .refl s
      · split
        · exact stray _
        · exact s.retarget_turns n _

theorem State.sendPacket_turns (s : State) (n due : Nat) (o : Owned) : s.Turns (s.sendPacket n due o) := by
  have sent (d : Display) (x : Output) {c : Count} (h : c ∈ turnCounts) : s.Turns (((s.markSent n due o d).emit x).bump c) :=
    ((State.Turns.putOwned s n _).trans (.of_keeps (State.emit_keeps _ x) (by decide))).trans (.bump _ h)
  unfold State.sendPacket
  dsimp only
  repeat' split
  · exact .refl s
  · exact sent _ _ (by decide)
  · exact sent _ _ (by decide)
  · exact sent _ _ (by decide)

theorem State.takeTurn_turns (s : State) (n : Nat) : s.Turns (s.takeTurn n) := by
  have first := s.redirect_turns n
  unfold State.takeTurn
  dsimp only
  split
  · exact first
  · split
    · exact first.trans (State.sendPacket_turns _ n _ _)
    all_goals exact first

theorem State.sendMove_turns (s : State) (n : Nat) : s.Turns (s.sendMove n) := by
  unfold State.sendMove
  split
  · exact .refl s
  · split
    · exact (State.Turns.putOwned s n _).trans (.of_keeps (State.emit_keeps _ _) (by decide))
    all_goals exact .refl s

theorem State.beginSlot_turns (s : State) : s.Turns s.beginSlot := by
  unfold State.beginSlot
  split
  · exact ((State.Turns.of_keeps (s.emit_keeps _) (by decide)).trans (.foldl (fun s n => s.sendMove_turns n) _ _)).trans
      (.foldl (fun s n => s.takeTurn_turns n) _ _)
  · exact .refl s

/-! ### The next slot (R87, R105) -/

theorem State.offer_urgent_full {f : Frame} (hc : f.body.trunkClass = .urgent) (hw : f.body.waits = false)
    (hsend : s.canSend = true) (hfull : 8 ≤ s.trunk.urgent.length) : s.offer f = (.notTaken, s.bump .notTakenUrgent) := by
  simp [State.offer, hc, hw, hsend, Trunk.queue, Config.queueCapacity, Nat.not_lt.2 hfull, notTakenCount]

/-- The part marks the start of its cycles (R105). -/
def State.Marks (s : State) : Prop :=
  s.labels.reference = some s.settings.station ∧ s.settings.labelService = true ∧ s.part = .running

theorem State.sendMark_not (h : ¬ s.Marks) : s.sendMark = s := if_neg h

theorem State.sendMark_queued (h : s.Marks) (hroom : s.trunk.urgent.length < 8) :
    s.sendMark = (s.withTrunk fun t => { t with urgent := t.urgent ++
      [{ dest := none, body := .cycleMark s.labels.cycle s.labels.length s.unit.clock, purpose := .mark, attempts := 0 }] }).bump
        .marksSent := by
  have sends : s.canSend = true := by simp [State.canSend, h.2.2]
  have offered := State.offer_urgent_queued (s := s)
    (f := Frame.new none (.cycleMark s.labels.cycle s.labels.length s.unit.clock) .mark) rfl sends hroom
  refine (if_pos h).trans ?_
  rw [offered]
  rfl

theorem State.sendMark_full (h : s.Marks) (hfull : 8 ≤ s.trunk.urgent.length) :
    s.sendMark = (s.bump .notTakenUrgent).bump .marksNotSent := by
  have sends : s.canSend = true := by simp [State.canSend, h.2.2]
  have offered := State.offer_urgent_full (s := s)
    (f := Frame.new none (.cycleMark s.labels.cycle s.labels.length s.unit.clock) .mark) rfl rfl sends hfull
  refine (if_pos h).trans ?_
  rw [offered]
  rfl

/-- The cycle that begins after slot 127, its mark not yet handed over (R87, R109). -/
def State.nextCycle (s : State) (due : Nat) : State :=
  s.withLabels fun l => { l with
    cycle := (l.cycle + 1) % 4294967296, slot := 0, length := s.nextLength
    slotEnd := some (due + s.nextLength * 1000000 / 128)
    heard := l.heard.map fun x => (x.1, { x.2 with claimAge := x.2.claimAge.map fun k => min (k + 1) 16 }) }

theorem State.nextSlot_within (h : s.labels.slot < 127) (due : Nat) :
    s.nextSlot due = (s.withLabels fun l => { l with
      slot := s.labels.slot + 1, slotEnd := some (due + s.labels.length * 1000000 / 128) }).beginSlot := by
  unfold State.nextSlot
  rw [if_pos h]
  rfl

theorem State.nextSlot_cycle (h : 127 ≤ s.labels.slot) (due : Nat) : s.nextSlot due = (s.nextCycle due).sendMark.beginSlot := by
  unfold State.nextSlot
  rw [if_neg (Nat.not_lt.2 h)]
  rfl

/-- The end of a slot leaves what the next cycle's length and mark are judged from (R87, R105). -/
theorem State.endTurns_marks (s : State) : s.endTurns.nextLength = s.nextLength ∧ (s.endTurns.Marks ↔ s.Marks) := by
  have kept := s.endTurns_keeps
  obtain ⟨o, h, labels⟩ := s.endTurns_cycle
  have settings : s.endTurns.settings = s.settings := kept .settings (by decide)
  have unit : s.endTurns.unit = s.unit := kept .unit (by decide)
  have part : s.endTurns.part = s.part := kept .part (by decide)
  constructor
  · simp only [State.nextLength, State.self, labels, settings, unit]
  · simp only [State.Marks, labels, settings, part]

/-! ### The turns in order of address (R80, R88, R116) -/

theorem State.mem_inTurn (hw : AMap.wf s.labels.owned = true) (n : Nat) : n ∈ s.inTurn ↔ ∃ o, s.owned n = some o ∧
    ((∃ due, o.state = .sent due) ∨ ∃ m, o.state = .moving m ∧ m.inAir = true) := by
  unfold State.inTurn
  rw [(AMap.keys_filter hw _).2]
  refine exists_congr fun o => and_congr_right fun _ => ?_
  cases o.state <;> simp

theorem State.mem_movers (hw : AMap.wf s.labels.owned = true) (slot n : Nat) : n ∈ s.movers slot ↔
    n % 128 = slot ∧ ∃ o m, s.owned n = some o ∧ o.state = .moving m := by
  unfold State.movers
  rw [(AMap.keys_filter hw _).2]
  have iff (o : Owned) : ((decide (slotOf n = slot) && match o.state with
      | .moving _ => true
      | .showing => false
      | .updateDue _ => false
      | .sent _ => false
      | .lost => false) = true) ↔ n % 128 = slot ∧ ∃ m, o.state = .moving m := by
    rw [Bool.and_eq_true, decide_eq_true_iff]
    cases o.state <;> simp [slotOf]
  constructor
  · rintro ⟨o, ho, h⟩
    obtain ⟨hn, m, hm⟩ := (iff o).1 h
    exact ⟨hn, o, m, ho, hm⟩
  · rintro ⟨hn, o, m, ho, hm⟩
    exact ⟨o, ho, (iff o).2 ⟨hn, m, hm⟩⟩

/-- The labels of the slot in the update list, in its order (R80, R88). -/
def State.listed (s : State) : List (Nat × Nat) := s.updates.filter fun x => decide (slotOf x.2 = s.labels.slot)

theorem State.listed_ordered (hw : AMap.wf s.labels.owned = true) : s.listed.Pairwise dueSooner :=
  (updateList_spec _ hw).1.sublist List.filter_sublist

theorem State.mem_listed (hw : AMap.wf s.labels.owned = true) (x : Nat × Nat) : x ∈ s.listed ↔
    x.2 % 128 = s.labels.slot ∧ ∃ o, s.owned x.2 = some o ∧ o.state = .updateDue x.1 := by
  unfold State.listed
  rw [List.mem_filter, decide_eq_true_iff, and_comm]
  refine and_congr Iff.rfl (((updateList_spec _ hw).2 x).trans (exists_congr fun o => and_congr ?_ Iff.rfl))
  exact (AMap.get_eq_some_iff hw).symm

/-- A slot that may be filled: its header, its MOVE attempts and the turns of its listed labels (R88, R107). -/
theorem State.beginSlot_filled (hm : s.mayFill = true) (hw : AMap.wf s.labels.owned = true) :
    s.beginSlot = ((s.listed.map (·.2)).take (4 - (s.movers s.labels.slot).length)).foldl (fun t n => t.takeTurn n)
      (((s.movers s.labels.slot).take 4).foldl (fun t n => t.sendMove n) (s.emit (.radio (.header s.settings.labelChannel
        s.settings.station s.labels.cycle s.labels.slot s.labels.length)))) := by
  have moved (ns : List Nat) (v : State) (hv : AMap.wf v.labels.owned = true) :
      (ns.foldl (fun t n => t.sendMove n) v).updates = v.updates := by
    induction ns generalizing v with
    | nil => rfl
    | cons n ns ih =>
      obtain ⟨hu, hn⟩ := State.sendMove_updates v n hv
      exact (ih _ hn).trans hu
  have emitted : (s.emit (.radio (.header s.settings.labelChannel s.settings.station s.labels.cycle s.labels.slot
      s.labels.length))).labels = s.labels := rfl
  have listed := moved ((s.movers s.labels.slot).take 4) (s.emit (.radio (.header s.settings.labelChannel s.settings.station
    s.labels.cycle s.labels.slot s.labels.length))) (emitted ▸ hw)
  have shift : 4 - ((s.movers s.labels.slot).take 4).length = 4 - (s.movers s.labels.slot).length := by
    rw [List.length_take]
    omega
  unfold State.beginSlot
  rw [if_pos hm]
  change ((((((s.movers s.labels.slot).take 4).foldl (fun t n => t.sendMove n) (s.emit _)).updates.map (·.2)).filter fun n =>
    decide (slotOf n = s.labels.slot)).take (4 - ((s.movers s.labels.slot).take 4).length)).foldl _ _ = _
  rw [listed, shift, List.filter_map]
  rfl

end Sys2Proof.Machine
end

section
/-! PROOFS. The packets of a slot, and the labels that its turns leave SENT. -/

namespace Sys2Proof.Machine

open Sys2Proof

variable {s t u : State}

/-! ### The packets of a slot (R88, R90) -/

theorem State.sendMove_out (s : State) (n : Nat) :
    ∃ ps : List RadioPacket, ps.length ≤ 1 ∧ (s.sendMove n).out = s.out ++ ps.map Output.radio := by
  have silent : ∃ ps : List RadioPacket, ps.length ≤ 1 ∧ s.out = s.out ++ ps.map Output.radio := ⟨[], by simp, by simp⟩
  unfold State.sendMove
  split
  · exact silent
  · split
    · exact ⟨[_], Nat.le_refl _, rfl⟩
    all_goals exact silent

theorem State.takeTurn_out (s : State) (n : Nat) :
    ∃ ps : List RadioPacket, ps.length ≤ 1 ∧ (s.takeTurn n).out = s.out ++ ps.map Output.radio := by
  have redirected : (s.redirect n).out = s.out := s.redirect_keeps n .out (by decide)
  have silent : ∃ ps : List RadioPacket, ps.length ≤ 1 ∧ (s.redirect n).out = s.out ++ ps.map Output.radio :=
    ⟨[], by simp, by simp [redirected]⟩
  have sent (v : State) (p : RadioPacket) (c : Count) (hv : v.out = (s.redirect n).out) : ∃ ps : List RadioPacket, ps.length ≤ 1 ∧
      ((v.emit (.radio p)).bump c).out = s.out ++ ps.map Output.radio :=
    ⟨[p], Nat.le_refl _, (State.bump_keeps _ c .out (by decide)).trans (congrArg (fun l : List Output => l ++ [Output.radio p]) (hv.trans redirected))⟩
  unfold State.takeTurn
  dsimp only
  split
  · exact silent
  · next o ho =>
    split
    · next due hs =>
      unfold State.sendPacket
      dsimp only
      split
      · split
        · exact silent
        · exact sent _ _ _ rfl
      · exact sent _ _ _ rfl
      · exact sent _ _ _ rfl
    all_goals exact silent

/-- Packets sent one after another, at most one for each label. -/
theorem foldl_out {g : State → Nat → State}
    (hg : ∀ v n, ∃ ps : List RadioPacket, ps.length ≤ 1 ∧ (g v n).out = v.out ++ ps.map Output.radio) (ns : List Nat) (s : State) :
    ∃ ps : List RadioPacket, ps.length ≤ ns.length ∧ (ns.foldl g s).out = s.out ++ ps.map Output.radio := by
  induction ns generalizing s with
  | nil => exact ⟨[], Nat.le_refl _, by simp⟩
  | cons n ns ih =>
    obtain ⟨ps, hps, hout⟩ := hg s n
    obtain ⟨qs, hqs, hrest⟩ := ih (g s n)
    refine ⟨ps ++ qs, ?_, ?_⟩
    · simp only [List.length_append, List.length_cons]
      omega
    · rw [List.foldl_cons, hrest, hout, List.map_append, List.append_assoc]

/-- A slot sends its header and four packets at most (R88). -/
theorem State.beginSlot_out (hm : s.mayFill = true) : ∃ ps : List RadioPacket, ps.length ≤ 4 ∧
    s.beginSlot.out = s.out ++ (.radio (.header s.settings.labelChannel s.settings.station s.labels.cycle s.labels.slot
      s.labels.length) :: ps.map Output.radio) := by
  unfold State.beginSlot
  rw [if_pos hm]
  dsimp only
  obtain ⟨ps, hps, hmoves⟩ := foldl_out State.sendMove_out
    (((s.emit (.radio (.header s.settings.labelChannel s.self s.labels.cycle s.labels.slot s.labels.length))).movers s.labels.slot).take 4)
    (s.emit (.radio (.header s.settings.labelChannel s.self s.labels.cycle s.labels.slot s.labels.length)))
  generalize hv : (((s.emit (.radio (.header s.settings.labelChannel s.self s.labels.cycle s.labels.slot s.labels.length))).movers
    s.labels.slot).take 4).foldl (fun t n => t.sendMove n) (s.emit (.radio (.header s.settings.labelChannel s.self s.labels.cycle
      s.labels.slot s.labels.length))) = v at hmoves
  generalize hmv : ((s.emit (.radio (.header s.settings.labelChannel s.self s.labels.cycle s.labels.slot s.labels.length))).movers
    s.labels.slot).take 4 = ms at hps
  have short : ms.length ≤ 4 := hmv ▸ List.length_take_le ..
  obtain ⟨qs, hqs, hturns⟩ := foldl_out State.takeTurn_out
    (((v.updates.map (·.2)).filter fun label => decide (slotOf label = s.labels.slot)).take (4 - ms.length)) v
  have fits := Nat.le_trans hqs (List.length_take_le ..)
  refine ⟨ps ++ qs, ?_, hturns.trans ?_⟩
  · rw [List.length_append]
    omega
  · rw [hmoves, List.map_append]
    simp [State.emit, State.self]

/-! ### Turns that need no redirection (R80, R88, R89) -/

/-- What a listed label is sent, and the packet that carries it, where its target can be shown (R89, R90). -/
def State.turnOf (s : State) (n : Nat) (o : Owned) : Option (Display × RadioPacket) :=
  match o.target with
  | .price a v => (s.displayTerms a v).map fun x => (⟨.price, some a, v⟩, .show s.settings.labelChannel n a v x.1 x.2 o.power)
  | .blank a v => some (⟨.blank, some a, v⟩, .blank s.settings.labelChannel n (some a) v o.power)
  | .unbound => some (⟨.blank, none, 0⟩, .blank s.settings.labelChannel n none 0 o.power)

theorem State.turnOf_price {n a v : Nat} {o : Owned} {k : ArticleKind} {x : Terms} (ht : o.target = .price a v)
    (hx : s.displayTerms a v = some (k, x)) :
    s.turnOf n o = some (⟨.price, some a, v⟩, .show s.settings.labelChannel n a v k x o.power) := by
  simp only [State.turnOf, ht, hx, Option.map_some]

theorem State.turnOf_blank {n a v : Nat} {o : Owned} (ht : o.target = .blank a v) :
    s.turnOf n o = some (⟨.blank, some a, v⟩, .blank s.settings.labelChannel n (some a) v o.power) := by
  simp only [State.turnOf, ht]

theorem State.turnOf_unbound {n : Nat} {o : Owned} (ht : o.target = .unbound) :
    s.turnOf n o = some (⟨.blank, none, 0⟩, .blank s.settings.labelChannel n none 0 o.power) := by
  simp only [State.turnOf, ht]

theorem State.turnOf_congr (hb : t.book = s.book) (hs : t.settings = s.settings) (n : Nat) (o : Owned) :
    t.turnOf n o = s.turnOf n o := by
  simp only [State.turnOf, State.displayTerms, State.entry, hb, hs]

/-- A label whose target can be shown is SENT with its packet. -/
theorem State.takeTurn_shown {n due : Nat} {o : Owned} {d : Display} {p : RadioPacket} (ho : s.owned n = some o)
    (hs : o.state = .updateDue due) (ht : s.turnOf n o = some (d, p)) :
    ∃ c, s.takeTurn n = ((s.putOwned n { o with state := .sent due, lastSent := some d }).emit (.radio p)).bump c := by
  have shown : ∀ a v, o.target = .price a v → s.displayTerms a v ≠ none := fun a v hx hn => by
    simp [State.turnOf, hx, hn] at ht
  have stays := State.redirect_not ho shown
  rw [State.takeTurn_of (by rw [stays]; exact ho) hs, stays]
  have kinds : (∃ a v, o.target = .price a v) ∨ (∃ a v, o.target = .blank a v) ∨ o.target = .unbound := by
    cases o.target <;> simp
  rcases kinds with ⟨a, v, hx⟩ | ⟨a, v, hx⟩ | hx
  · obtain ⟨⟨k, x⟩, hk⟩ := Option.ne_none_iff_exists'.1 (shown a v hx)
    simp only [State.turnOf, hx, hk, Option.map_some, Option.some.injEq, Prod.mk.injEq] at ht
    obtain ⟨rfl, rfl⟩ := ht
    exact ⟨_, State.sendPacket_price hx hk⟩
  · simp only [State.turnOf, hx, Option.some.injEq, Prod.mk.injEq] at ht
    obtain ⟨rfl, rfl⟩ := ht
    exact ⟨_, State.sendPacket_blank hx⟩
  · simp only [State.turnOf, hx, Option.some.injEq, Prod.mk.injEq] at ht
    obtain ⟨rfl, rfl⟩ := ht
    exact ⟨_, State.sendPacket_unbound hx⟩

/-- Listed labels that can be shown, each taking its turn: these are SENT, every other label stays as it was. -/
theorem State.foldl_takeTurn (ns : List Nat) (hn : ns.Nodup) (s : State)
    (h : ∀ n ∈ ns, ∃ o due x, s.owned n = some o ∧ o.state = .updateDue due ∧ s.turnOf n o = some x) :
    let t := ns.foldl (fun t n => t.takeTurn n) s
    (∀ n, n ∉ ns → t.owned n = s.owned n) ∧ (∀ x ∈ s.out, x ∈ t.out) ∧
    ∀ n ∈ ns, ∀ o due d p, s.owned n = some o → o.state = .updateDue due → s.turnOf n o = some (d, p) →
      t.owned n = some { o with state := .sent due, lastSent := some d } ∧ .radio p ∈ t.out := by
  induction ns generalizing s with
  | nil => exact ⟨fun _ _ => rfl, fun _ h => h, fun n hn => absurd hn (List.not_mem_nil)⟩
  | cons m ns ih =>
    obtain ⟨hm, hns⟩ := List.nodup_cons.1 hn
    obtain ⟨o, due, ⟨d, p⟩, ho, hs, hx⟩ := h m (List.mem_cons_self ..)
    obtain ⟨c, turn⟩ := State.takeTurn_shown ho hs hx
    have kept := State.bump_keeps ((s.putOwned m { o with state := .sent due, lastSent := some d }).emit (.radio p)) c
    generalize hv : s.takeTurn m = v at turn
    rw [← turn] at kept
    have labels : v.labels = (s.putOwned m { o with state := .sent due, lastSent := some d }).labels := kept .labels (by decide)
    have out : v.out = s.out ++ [.radio p] := kept .out (by decide)
    have book : v.book = s.book := kept .book (by decide)
    have settings : v.settings = s.settings := kept .settings (by decide)
    have self : v.owned m = some { o with state := .sent due, lastSent := some d } :=
      (congrArg (fun l : Labels => AMap.get l.owned m) labels).trans (s.owned_putOwned_self m _)
    have other (n : Nat) (hne : n ≠ m) : v.owned n = s.owned n :=
      (congrArg (fun l : Labels => AMap.get l.owned n) labels).trans (AMap.get_put_ne _ _ hne)
    obtain ⟨stays, outs, sent⟩ := ih hns v fun n hn => by
      obtain ⟨o', due', x', ho', hs', hx'⟩ := h n (List.mem_cons_of_mem _ hn)
      have hne : n ≠ m := fun e => hm (e ▸ hn)
      exact ⟨o', due', x', (other n hne).trans ho', hs', (State.turnOf_congr book settings n o').trans hx'⟩
    rw [List.foldl_cons, hv]
    refine ⟨fun n hno => ?_, fun x hx => outs x (by rw [out]; exact List.mem_append_left _ hx), fun n hmem o' due' d' p' ho' hs' hx' => ?_⟩
    · obtain ⟨hne, hno⟩ := not_or.1 (mt List.mem_cons.2 hno)
      exact (stays n hno).trans (other n hne)
    · by_cases hne : n = m
      · subst hne
        cases ho.symm.trans ho'
        cases hs.symm.trans hs'
        cases hx.symm.trans hx'
        exact ⟨(stays n hm).trans self, outs _ (by rw [out]; simp)⟩
      · have hmem := (List.mem_cons.1 hmem).resolve_left hne
        exact sent n hmem o' due' d' p' ((other n hne).trans ho') hs' ((State.turnOf_congr book settings n o').trans hx')

/-! ### Which listed labels have a turn (R80, R88) -/

/-- In a list in order an item is among the first `k` exactly when fewer than `k` go before it. -/
theorem mem_take_of_ordered {l : List (Nat × Nat)} (h : l.Pairwise dueSooner) {y : Nat × Nat} (hy : y ∈ l) (k : Nat) :
    y ∈ l.take k ↔ l.countP (sooner · y) < k := by
  induction l generalizing k with
  | nil => cases hy
  | cons z l ih =>
    obtain ⟨hz, hl⟩ := List.pairwise_cons.1 h
    cases k with
    | zero => simp
    | succ k =>
      rw [List.take_succ_cons, List.countP_cons]
      by_cases same : z = y
      · subst same
        have none : l.countP (sooner · z) = 0 := by
          rw [List.countP_eq_zero]
          exact fun x hx => by simp [sooner_asymm (hz x hx)]
        rw [none, sooner_self]
        simp
      · have hy : y ∈ l := (List.mem_cons.1 hy).resolve_left (Ne.symm same)
        have before : sooner z y = true := (sooner_iff _ _).2 (hz y hy)
        have head : y ∈ z :: l.take k ↔ y ∈ l.take k := by simp [Ne.symm same]
        rw [head, before, if_pos rfl, ih hl hy]
        omega

/-- Those of the slot that go before a listed label. -/
theorem updateList_countP_slot (m : List (Nat × Owned)) (due n : Nat) (q : Nat → Bool) :
    ((updateList m).filter fun x => q x.2).countP (sooner · (due, n)) =
      (m.filter fun x => q x.1 && fallsBefore due n x).length := by
  rw [List.countP_filter]
  induction m with
  | nil => rfl
  | cons e m ih =>
    obtain ⟨k, o⟩ := e
    rw [List.filter_cons]
    unfold updateList
    cases hs : o.state with
    | updateDue d =>
      have falls : fallsBefore due n (k, o) = sooner (d, k) (due, n) := by
        simp [fallsBefore, hs, sooner]
      rw [(insertDue_perm _ _).countP_eq, List.countP_cons, ih, falls, Bool.and_comm]
      split <;> rfl
    | showing => rw [ih, if_neg (by simp [fallsBefore, hs])]
    | sent d => rw [ih, if_neg (by simp [fallsBefore, hs])]
    | moving m => rw [ih, if_neg (by simp [fallsBefore, hs])]
    | lost => rw [ih, if_neg (by simp [fallsBefore, hs])]

/-- The labels that have a turn in a slot without MOVING labels: those listed behind fewer than four (R80, R88). -/
theorem State.hasTurn_iff (hw : AMap.wf s.labels.owned = true) {n due : Nat} {o : Owned} (ho : s.owned n = some o)
    (hs : o.state = .updateDue due) (hn : n % 128 = s.labels.slot) :
    n ∈ (s.listed.take 4).map (·.2) ↔
      (s.labels.owned.filter fun x => decide (slotOf x.1 = s.labels.slot) && fallsBefore due n x).length < 4 := by
  have here : (due, n) ∈ s.listed := (State.mem_listed hw _).2 ⟨hn, o, ho, hs⟩
  rw [← updateList_countP_slot s.labels.owned due n fun k => decide (slotOf k = s.labels.slot)]
  change _ ↔ s.listed.countP (sooner · (due, n)) < 4
  rw [← mem_take_of_ordered (State.listed_ordered hw) here]
  constructor
  · intro h
    obtain ⟨⟨d, k⟩, hx, rfl⟩ := List.mem_map.1 h
    obtain ⟨-, p, hp, hd⟩ := (State.mem_listed hw _).1 (List.mem_of_mem_take hx)
    cases ho.symm.trans hp
    cases hs.symm.trans hd
    exact hx
  · exact fun h => List.mem_map_of_mem h

/-- A slot without MOVING labels, in which every listed label can be shown. -/
theorem State.beginSlot_shown (hm : s.mayFill = true) (hw : AMap.wf s.labels.owned = true)
    (hno : ∀ n o, s.owned n = some o → n % 128 = s.labels.slot → ∀ m, o.state ≠ .moving m)
    (hshow : ∀ n o due a v, s.owned n = some o → n % 128 = s.labels.slot → o.state = .updateDue due → o.target = .price a v →
      s.displayTerms a v ≠ none) :
    (∀ n, n ∉ (s.listed.take 4).map (·.2) → s.beginSlot.owned n = s.owned n) ∧
    ∀ n ∈ (s.listed.take 4).map (·.2), ∀ o due d p, s.owned n = some o → o.state = .updateDue due → s.turnOf n o = some (d, p) →
      s.beginSlot.owned n = some { o with state := .sent due, lastSent := some d } ∧ .radio p ∈ s.beginSlot.out := by
  have still : s.movers s.labels.slot = [] := by
    rw [List.eq_nil_iff_forall_not_mem]
    intro n hn
    obtain ⟨hslot, o, m, ho, hmove⟩ := (State.mem_movers hw _ n).1 hn
    exact hno n o ho hslot m hmove
  have filled := State.beginSlot_filled hm hw
  rw [still, List.take_nil, List.length_nil, List.foldl_nil, ← List.map_take] at filled
  generalize hv : s.emit (.radio (.header s.settings.labelChannel s.settings.station s.labels.cycle s.labels.slot s.labels.length)) = v
    at filled
  have owned (n : Nat) : v.owned n = s.owned n := by rw [← hv]; rfl
  have turn (n : Nat) (o : Owned) : v.turnOf n o = s.turnOf n o := State.turnOf_congr (by rw [← hv]; rfl) (by rw [← hv]; rfl) n o
  have nodup : ((s.listed.take 4).map (·.2)).Nodup := by
    have ordered := (State.listed_ordered hw).sublist (List.take_sublist 4 _)
    refine List.pairwise_map.2 (ordered.imp_of_mem fun {x y} hx hy hxy e => ?_)
    obtain ⟨-, o, ho, hd⟩ := (State.mem_listed hw _).1 (List.mem_of_mem_take hx)
    obtain ⟨-, p, hp, hd'⟩ := (State.mem_listed hw _).1 (List.mem_of_mem_take hy)
    rw [e] at ho
    cases ho.symm.trans hp
    have same : x.1 = y.1 := LabelState.updateDue.inj (hd.symm.trans hd')
    rcases hxy with h | ⟨-, h⟩ <;> omega
  obtain ⟨stays, -, sent⟩ := State.foldl_takeTurn _ nodup v fun n hn => by
    obtain ⟨⟨d, k⟩, hx, rfl⟩ := List.mem_map.1 hn
    obtain ⟨hslot, o, ho, hd⟩ := (State.mem_listed hw _).1 (List.mem_of_mem_take hx)
    have shown : s.turnOf k o ≠ none := by
      unfold State.turnOf
      split
      · next a v ht => simpa using hshow k o d a v ho hslot hd ht
      · simp
      · simp
    obtain ⟨x, hx⟩ := Option.ne_none_iff_exists'.1 shown
    exact ⟨o, d, x, (owned k).trans ho, hd, (turn k o).trans hx⟩
  rw [filled]
  refine ⟨fun n hn => (stays n hn).trans (owned n), fun n hn o due d p ho hd hx => ?_⟩
  exact sent n hn o due d p ((owned n).trans ho) hd ((turn n o).trans hx)

end Sys2Proof.Machine

/-! ### The statements -/

open Sys2Proof Sys2Proof.Machine

/-- Settles O21: the turns that end, the slot or cycle that begins, and its packets. -/
theorem slotsAndTheirTurns : Obligations.SlotsAndTheirTurns := by
  unfold Obligations.SlotsAndTheirTurns
  refine ⟨fun s due hl hv hd => ?frame, fun s due hl hv hd => ?begins, fun s hw => ?ends, fun s hm hw => ?order,
    fun s => ⟨fun hm => ?unfilled, State.beginSlot_out, fun hm hw hall n o ho => ?shown⟩⟩
  case ends =>
    obtain ⟨rises, -⟩ := AMap.keys_filter hw fun e => match e.2.state with
      | .showing => false
      | .updateDue _ => false
      | .sent _ => true
      | .moving m => m.inAir
      | .lost => false
    exact ⟨s.inTurn, rises, State.mem_inTurn hw, rfl⟩
  case order =>
    have rises : (s.movers s.labels.slot).Pairwise (· < ·) := (AMap.keys_filter hw _).1
    have listed (n : Nat) : n ∈ s.listed.map (·.2) ↔ n % 128 = s.labels.slot ∧ ∃ o d, s.owned n = some o ∧ o.state = .updateDue d := by
      rw [List.mem_map]
      constructor
      · rintro ⟨⟨d, k⟩, hx, rfl⟩
        obtain ⟨hslot, o, ho, hs⟩ := (State.mem_listed hw _).1 hx
        exact ⟨hslot, o, d, ho, hs⟩
      · rintro ⟨hslot, o, d, ho, hs⟩
        exact ⟨(d, n), (State.mem_listed hw _).2 ⟨hslot, o, ho, hs⟩, rfl⟩
    refine ⟨s.movers s.labels.slot, s.listed.map (·.2), rises, State.mem_movers hw _, ?_, listed, State.beginSlot_filled hm hw⟩
    refine List.pairwise_map.2 ((State.listed_ordered hw).imp_of_mem fun {x y} hx hy hxy o d p e ho hd hp he => ?_)
    obtain ⟨-, o', ho', hd'⟩ := (State.mem_listed hw _).1 hx
    obtain ⟨-, p', hp', he'⟩ := (State.mem_listed hw _).1 hy
    cases ho.symm.trans ho'
    cases hp.symm.trans hp'
    cases hd.symm.trans hd'
    cases he.symm.trans he'
    exact hxy
  case unfilled =>
    unfold State.beginSlot
    exact if_neg (by simp [hm])
  case shown =>
    obtain ⟨stays, sent⟩ := State.beginSlot_shown hm hw (fun n o ho hslot => (hall n o ho hslot).1)
      fun n o due a v ho hslot => (hall n o ho hslot).2 due a v
    refine ⟨fun due hs hslot => ?_, fun hout => ?_⟩
    · intro ahead sends channel
      have counted : ahead = s.labels.owned.filter fun x => decide (slotOf x.1 = s.labels.slot) && fallsBefore due n x :=
        List.filter_congr fun x _ => by
          unfold fallsBefore slotOf
          cases x.2.state <;> simp
      have turn := State.hasTurn_iff hw ho hs hslot
      rw [← counted] at turn
      refine ⟨fun h => (stays n fun hn => absurd (turn.1 hn) (Nat.not_lt.2 h)).trans ho, fun h => ⟨fun a v k x ht hx => ?_,
        fun a v ht => ?_, fun ht => ?_⟩⟩
      · exact sent n (turn.2 h) o due _ _ ho hs (State.turnOf_price ht hx)
      · exact sent n (turn.2 h) o due _ _ ho hs (State.turnOf_blank ht)
      · exact sent n (turn.2 h) o due _ _ ho hs (State.turnOf_unbound ht)
    · refine (stays n fun hn => ?_).trans ho
      obtain ⟨⟨d, k⟩, hx, rfl⟩ := List.mem_map.1 hn
      obtain ⟨hslot, p, hp, hd⟩ := (State.mem_listed hw _).1 (List.mem_of_mem_take hx)
      cases ho.symm.trans hp
      rcases hout with hne | hne
      · exact hne hslot
      · exact hne d hd
  case begins =>
    intro ended cycle begun marks
    have run := exec_slotEnd hl hv hd
    change exec .slotEnd s = .next (ended.nextSlot due) at run
    obtain ⟨length, hmarks⟩ := ({ s with now := max s.now due } : State).endTurns_marks
    change ended.nextLength = s.nextLength at length
    obtain ⟨o, h, labels⟩ := ({ s with now := max s.now due } : State).endTurns_cycle
    change ended.labels = { s.labels with owned := o, heard := h } at labels
    have kept := ({ s with now := max s.now due } : State).endTurns_keeps
    have unit : ended.unit = s.unit := kept .unit (by decide)
    have urgent : ended.trunk.urgent = s.trunk.urgent := ({ s with now := max s.now due } : State).endTurns_turns.urgent
    have slot : ended.labels.slot = s.labels.slot := by rw [labels]
    refine ⟨fun hs => ?_, fun hs => ?_⟩
    · rw [run, State.nextSlot_within (by rw [slot]; exact hs), slot]
      simp only [labels]
    · have next : ended.nextCycle due = begun := by
        simp only [State.nextCycle, length, labels, State.withLabels, begun, cycle]
      have bmarks : begun.Marks ↔ marks := by
        rw [← next]
        exact hmarks
      have blabels : begun.labels.cycle = cycle ∧ begun.labels.length = s.nextLength := ⟨rfl, rfl⟩
      have bunit : begun.unit = s.unit := unit
      have burgent : begun.trunk.urgent = s.trunk.urgent := urgent
      rw [State.nextSlot_cycle (by rw [slot]; exact hs), next] at run
      refine ⟨fun h => ?_, fun h hroom => ?_, fun h hfull => ?_⟩
      · rw [run, State.sendMark_not (mt bmarks.1 h)]
      · rw [run, State.sendMark_queued (bmarks.2 h) (burgent ▸ hroom), blabels.1, blabels.2, bunit]
      · rw [run, State.sendMark_full (bmarks.2 h) (burgent ▸ hfull)]
  case frame =>
    have run := exec_slotEnd hl hv hd
    generalize he : (s.reach due).endTurns = e at run
    have reach : s.reach due = { s with now := max s.now due } := rfl
    rw [reach] at he
    have turns := ({ s with now := max s.now due } : State).endTurns_turns
    have kept := ({ s with now := max s.now due } : State).endTurns_keeps
    obtain ⟨length, hmarks⟩ := ({ s with now := max s.now due } : State).endTurns_marks
    rw [he] at turns kept length hmarks
    change e.nextLength = s.nextLength at length
    change e.Marks ↔ s.Marks at hmarks
    obtain ⟨o, h, labels⟩ := turns.cycle
    change e.labels = { s.labels with owned := o, heard := h } at labels
    have urgent : e.trunk.urgent = s.trunk.urgent := turns.urgent
    have counted (c : Count) (hc : c ∉ turnCounts) : e.count c = s.count c := turns.counts c hc
    have unit : e.unit = s.unit := kept .unit (by decide)
    have slot : e.labels.slot = s.labels.slot := by rw [labels]
    have later := e.nextSlot_keeps due
    refine ⟨e.nextSlot due, run, (later .now (by decide)).trans (kept .now (by decide)), ?_, fun hs => ?_, fun hs => ?_, fun hm hi hs => ?_⟩
    · have moved : keeps ([.now, .alerts, .out] ++ shelfFields) s { s with now := max s.now due } := fun f hf => by
        cases f
        case now => exact absurd (by decide) hf
        all_goals rfl
      exact moved.trans ((kept.mono (by decide)).trans (later.mono (by decide)))
    · rw [State.nextSlot_within (by rw [slot]; exact hs)]
      obtain ⟨o', h', began⟩ := (State.beginSlot_turns (e.withLabels fun l => { l with
        slot := e.labels.slot + 1, slotEnd := some (due + e.labels.length * 1000000 / 128) })).cycle
      rw [began]
      simp only [State.withLabels, labels, and_self]
    · rw [State.nextSlot_cycle (by rw [slot]; exact hs)]
      have began := State.beginSlot_turns (e.nextCycle due).sendMark
      have marked := (e.nextCycle due).sendMark_keeps
      obtain ⟨o', h', blabels⟩ := began.cycle
      have clabels : (e.nextCycle due).sendMark.labels = (e.nextCycle due).labels := marked .labels (by decide)
      have ccycle : (e.nextCycle due).labels.cycle = (s.labels.cycle + 1) % 4294967296 := by
        simp only [State.nextCycle, State.withLabels, labels]
      have clength : (e.nextCycle due).labels.length = s.nextLength := length
      have cend : (e.nextCycle due).labels.slotEnd = some (due + s.nextLength * 1000000 / 128) := by rw [← length]; rfl
      have cunit : (e.nextCycle due).unit = s.unit := unit
      have curgent : (e.nextCycle due).trunk.urgent = s.trunk.urgent := urgent
      have cmarks : (e.nextCycle due).Marks ↔ s.Marks := hmarks
      have ccount (c : Count) (hc : c ∉ turnCounts) : (e.nextCycle due).count c = s.count c := counted c hc
      rw [blabels, clabels]
      refine ⟨rfl, ccycle, clength, cend, fun h hroom => ⟨?_, ?_⟩, fun h hfull => ⟨?_, ?_⟩, fun h => ?_⟩
      · rw [began.urgent, State.sendMark_queued (cmarks.2 h) (curgent ▸ hroom), cunit]
        exact (State.bump_keeps _ _ .trunk (by decide) |> congrArg Trunk.urgent).trans (congrArg (· ++ _) curgent)
      · rw [began.counts _ (by decide), State.sendMark_queued (cmarks.2 h) (curgent ▸ hroom), State.count_bump, if_pos rfl]
        exact congrArg (fun n => min (n + 1) 4294967295) (ccount .marksSent (by decide))
      · rw [began.urgent, State.sendMark_full (cmarks.2 h) (curgent ▸ hfull)]
        exact ((State.bump_keeps _ _ .trunk (by decide) |> congrArg Trunk.urgent).trans
          (State.bump_keeps _ _ .trunk (by decide) |> congrArg Trunk.urgent)).trans curgent
      · rw [began.counts _ (by decide), State.sendMark_full (cmarks.2 h) (curgent ▸ hfull), State.count_bump, if_pos rfl,
          State.count_bump_ne _ (by decide)]
        exact congrArg (fun n => min (n + 1) 4294967295) (ccount .marksNotSent (by decide))
      · rw [began.urgent, State.sendMark_not (mt cmarks.1 h)]
        exact curgent
    · have quiet : e = { s with now := max s.now due } := by
        rw [← he]
        show ({ s with now := max s.now due } : State).inTurn.foldl _ _ = _
        rw [show ({ s with now := max s.now due } : State).inTurn = [] from hi]
        rfl
      rw [State.nextSlot_idle (by rw [slot]; exact hs) (by rw [quiet]; exact hm), quiet]
      rfl

end

section
/-! PROOFS. The CYCLE-MARK of the reference station, by which the cycle is re-timed or restarted. -/

namespace Sys2Proof.Machine

open Sys2Proof

variable {s t u : State}

/-! ### A slot cut short (R97) -/

theorem State.cutTurns_cycle (s : State) : s.SameCycle s.cutTurns := by
  refine .foldl (fun s n => ?_) _ s
  unfold State.cutTurn
  split
  · exact .refl s
  · split
    case h_3 => exact (State.SameCycle.putOwned s n _).trans (.of_keeps (State.bump_keeps _ _) (by decide))
    case h_4 => exact .putOwned s n _
    all_goals exact .refl s

theorem State.cutTurns_raises (s : State) : Raises [.attemptsCutShort] s s.cutTurns := by
  refine .foldl (fun s n => ?_) _ s
  unfold State.cutTurn
  have put (o : Owned) : Raises [.attemptsCutShort] s (s.putOwned n o) := fun _ _ => rfl
  split
  · exact .refl _ s
  · split
    case h_3 => exact (put _).trans (.bump _ (by decide))
    case h_4 => exact put _
    all_goals exact .refl _ s

/-! ### The cycle after a mark (R106) -/

/-- Slot 0 ends by the mark, in step with it (R106). -/
def State.retimed (s : State) (length : Nat) : State :=
  s.withLabels fun l => { l with slotEnd := some (s.now + slotLength length), aligned := true, markLength := some length }

/-- A cycle begins by the mark, its turns still to be filled (R106). -/
def State.restarted (s : State) (number length : Nat) : State :=
  (s.cutTurns.withLabels fun l => { l with
    cycle := number, slot := 0, length := length, slotEnd := some (s.now + slotLength length), aligned := true
    markLength := some length }).ageClaims

/-- The part after a mark of the reference, before the store time it carries (R106). -/
def State.marked (s : State) (number length : Nat) : State :=
  if s.labels.inStep number length then (s.bump .marksTaken).retimed length
  else ((s.bump .marksTaken).restarted number length).beginSlot

theorem State.takeMark_eq (s : State) (number length : Nat) (time : Option StoreTime) : s.takeMark number length time =
    match time with
    | none => s.marked number length
    | some x => (s.marked number length).timeFromMark x := by
  have now : (s.bump .marksTaken).now = s.now := s.bump_keeps _ .now (by decide)
  simp only [State.takeMark, State.marked, State.retimed, State.restarted, now] <;> rfl

/-- A station in step holds the number and length of the mark, in slot 0 (R106). -/
theorem Labels.inStep_iff {l : Labels} {number length : Nat} :
    l.inStep number length = true ↔ l.cycle = number ∧ l.slot = 0 ∧ l.length = length := by
  simp [Labels.inStep, and_assoc]

/-- After a mark the cycle is the mark's, in slot 0, and no more is counted than the mark and the turns (R106). -/
theorem State.marked_spec (s : State) (number length : Nat) :
    ∃ o h, (s.marked number length).labels = { s.labels with
      owned := o, heard := h, cycle := number, slot := 0, length := length
      slotEnd := some (s.now + slotLength length), aligned := true, markLength := some length } := by
  have bumped : (s.bump .marksTaken).labels = s.labels := s.bump_keeps _ .labels (by decide)
  have now : (s.bump .marksTaken).now = s.now := s.bump_keeps _ .now (by decide)
  unfold State.marked
  split
  · next hin =>
    obtain ⟨hc, hs, hl⟩ := Labels.inStep_iff.1 hin
    exact ⟨s.labels.owned, s.labels.heard, by simp [State.retimed, State.withLabels, ← hc, ← hs, ← hl]⟩
  · obtain ⟨o, h, cut⟩ := (s.bump .marksTaken).cutTurns_cycle
    obtain ⟨o', h', began⟩ := (State.beginSlot_turns ((s.bump .marksTaken).restarted number length)).cycle
    refine ⟨o', h', ?_⟩
    rw [began]
    simp only [State.restarted, State.ageClaims, State.withLabels, cut, bumped, now]

theorem State.marked_raises (s : State) (number length : Nat) :
    Raises (.attemptsCutShort :: turnCounts) (s.bump .marksTaken) (s.marked number length) := by
  unfold State.marked
  split
  · exact fun _ _ => rfl
  · have cut : Raises (.attemptsCutShort :: turnCounts) (s.bump .marksTaken) (s.bump .marksTaken).cutTurns :=
      (s.bump .marksTaken).cutTurns_raises.mono (by decide)
    have began : Raises (.attemptsCutShort :: turnCounts) ((s.bump .marksTaken).restarted number length)
        ((s.bump .marksTaken).restarted number length).beginSlot := (State.beginSlot_turns _).counts.mono (by decide)
    exact cut.trans began

theorem State.marked_keeps (s : State) (number length : Nat) :
    keeps (.out :: shelfFields) s (s.marked number length) := by
  unfold State.marked
  split
  · simp [State.retimed, shelfFields]
  · simp [State.restarted, shelfFields]

/-! ### The store time a mark carries (R190, R191) -/

theorem State.timeFromMark_invalid {x : StoreTime} (h : 65535 < x.day ∨ 86399 < x.sec) :
    s.timeFromMark x = s.bump .settingsIgnored := by
  have invalid : ¬ timeValid x = true := by
    rw [timeValid_iff]
    omega
  exact if_neg invalid

theorem State.timeFromMark_valid {x : StoreTime} (hd : x.day ≤ 65535) (hs : x.sec ≤ 86399) :
    s.timeFromMark x = s.takeTime x .setByMark :=
  if_pos ((timeValid_iff x).2 ⟨hd, hs⟩)

theorem State.timeFromMark_raises (s : State) (x : StoreTime) :
    Raises (.settingsIgnored :: .setByMark :: .overridesEnded :: modeChangeCounts) s (s.timeFromMark x) := by
  unfold State.timeFromMark
  split
  · exact (Raises.bump s (by decide)).trans ((State.takeTime_raises s x .setByMark).mono (by decide))
  · exact .bump s (by decide)

/-! ### The reception of a mark (R106, R131) -/

theorem exec_cycleMarkReceived {f : FrameHead} (h : s.Hears f.src) (hd : f.dest = .all) (number length : Nat)
    (time : Option StoreTime) : exec (.cycleMarkReceived f number length time) s =
    .next ((s.heardFrom f.src Peer.takeMark).judgeMark f.src number length time) :=
  congrArg _ (State.receive_all h hd true Peer.takeMark _)

end Sys2Proof.Machine

/-! ### The statements -/

open Sys2Proof Sys2Proof.Machine

/-- Settles O27, by the cycle that a mark leaves in step with it and that it restarts. -/
theorem cycleMarkAligns : Obligations.CycleMarkAligns := by
  unfold Obligations.CycleMarkAligns
  intro s f number length time hh hd h c inStep taken retimed
  obtain ⟨r, a, labels⟩ := s.heardFrom_labels f.src Peer.takeMark
  change h.labels = _ at labels
  have now : h.now = s.now := s.heardFrom_now f.src Peer.takeMark
  have judged (ht : taken) : exec c s = .next (match time with
      | none => h.marked number length
      | some x => (h.marked number length).timeFromMark x) := by
    rw [← State.takeMark_eq]
    exact (exec_cycleMarkReceived hh hd number length time).trans (congrArg _ (if_pos ht))
  have step : h.labels.inStep number length = true ↔ inStep := by
    rw [Labels.inStep_iff, labels]
  refine ⟨fun ht => ?ignored, fun ht hin => ?inStep, fun ht hout hw => ?restart, fun ht => ?aligned⟩
  case ignored =>
    exact (exec_cycleMarkReceived hh hd number length time).trans (congrArg _ (if_neg ht))
  case inStep =>
    have marked : h.marked number length = retimed := by
      rw [State.marked, if_pos (step.2 hin)]
      simp only [retimed, ← now]
      rfl
    refine ⟨fun hn => ?_, fun x hx hbad => ?_⟩
    · rw [judged ht, hn]
      exact congrArg _ marked
    · rw [judged ht, hx]
      exact congrArg _ ((State.timeFromMark_invalid hbad).trans (by rw [marked]))
  case restart =>
    intro sent restarted
    have wf : AMap.wf (h.bump .marksTaken).labels.owned = true := by
      have bumped : (h.bump .marksTaken).labels = h.labels := h.bump_keeps _ .labels (by decide)
      rw [bumped, labels]
      exact hw
    have counted : (h.bump .marksTaken).labels.owned.filter (·.2.isSent) = sent := by
      have bumped : (h.bump .marksTaken).labels = h.labels := h.bump_keeps _ .labels (by decide)
      rw [bumped, labels]
      exact List.filter_congr fun x _ => by
        unfold Owned.isSent
        cases x.2.state <;> rfl
    have marked : h.marked number length = restarted := by
      rw [State.marked, if_neg (mt step.1 hout), State.restarted, State.cutTurns_eq _ wf, counted, h.bump_keeps _ .now (by decide),
        now]
      rfl
    refine ⟨fun hn => ?_, fun x hx hbad => ?_, fun x hx hday hsec => ⟨_, judged ht, ?_⟩⟩
    · rw [judged ht, hn]
      exact congrArg _ marked
    · rw [judged ht, hx]
      exact congrArg _ ((State.timeFromMark_invalid hbad).trans (by rw [marked]))
    · rw [hx, ← marked]
      exact (State.timeFromMark_keeps _ x).mono (by decide)
  case aligned =>
    obtain ⟨o, k, cycle⟩ := h.marked_spec number length
    have counts := h.marked_raises number length
    have unit : (h.marked number length).unit = s.unit :=
      (h.marked_keeps number length .unit (by decide)).trans (s.heardFrom_unit f.src Peer.takeMark)
    have later : (h.marked number length).now = s.now := (h.marked_keeps number length .now (by decide)).trans now
    have settings : (h.marked number length).settings = s.settings :=
      (h.marked_keeps number length .settings (by decide)).trans (s.heardFrom_settings f.src Peer.takeMark)
    have once : (h.marked number length).count .marksTaken = min (h.count .marksTaken + 1) 4294967295 := by
      rw [counts .marksTaken (by decide), State.count_bump, if_pos rfl]
    cases time with
    | none =>
      refine ⟨_, judged ht, ?_⟩
      simp only [cycle, now]
      exact ⟨trivial, trivial, trivial, rfl, trivial, trivial, once, fun x hx => by cases hx⟩
    | some y =>
      refine ⟨_, judged ht, ?_⟩
      have kept : ((h.marked number length).timeFromMark y).labels = (h.marked number length).labels :=
        State.timeFromMark_keeps _ y .labels (by decide)
      simp only [kept, cycle, now]
      refine ⟨trivial, trivial, trivial, rfl, trivial, trivial, ?_, ?_⟩
      · rw [State.timeFromMark_raises _ y .marksTaken (by decide), once]
      · intro x hx hday hsec
        cases hx
        rw [State.timeFromMark_valid hday hsec, State.takeTime_unit, unit, later, settings]
        refine ⟨rfl, rfl, rfl, rfl, ?_⟩
        rw [State.takeTime_raises _ y .setByMark .setByMark (by decide), State.count_bump, if_pos rfl,
          counts .setByMark (by decide), State.count_bump_ne _ (by decide)]
end

section
/-! PROOFS. What the work on the label table leaves of its entries' levels, and how a label is taken in and dropped. -/

namespace Sys2Proof.Machine

open Sys2Proof

variable {s t u : State}

/-! ### The hearing fields of the label table (R112) -/

/-- Every entry stays as OWNED or as HEARD, with its hearing fields, and the cycle stands. -/
structure State.SameHearing (s t : State) : Prop where
  cycle : s.SameCycle t
  heard : t.labels.heard = s.labels.heard
  owned : ∀ n, (t.owned n).map (·.hearing) = (s.owned n).map (·.hearing)

theorem State.SameHearing.refl (s : State) : s.SameHearing s := ⟨.refl s, rfl, fun _ => rfl⟩

theorem State.SameHearing.trans (h : s.SameHearing t) (k : t.SameHearing u) : s.SameHearing u :=
  ⟨h.cycle.trans k.cycle, k.heard.trans h.heard, fun n => (k.owned n).trans (h.owned n)⟩

theorem State.SameHearing.of_keeps {fs : List Field} (hk : keeps fs s t) (hl : Field.labels ∉ fs) : s.SameHearing t := by
  have labels : t.labels = s.labels := hk .labels hl
  exact ⟨.of_keeps hk hl, congrArg Labels.heard labels, fun n => by simp only [State.owned, labels]⟩

theorem State.SameHearing.putOwned {n : Nat} {o x : Owned} (ho : s.owned n = some o) (hx : x.hearing = o.hearing) :
    s.SameHearing (s.putOwned n x) := by
  refine ⟨.putOwned s n x, rfl, fun m => ?_⟩
  by_cases hm : m = n
  · subst hm
    simp only [s.owned_putOwned_self, ho, hx, Option.map_some]
  · have other : (s.putOwned n x).owned m = s.owned m := AMap.get_put_ne _ _ hm
    rw [other]

theorem State.SameHearing.foldl {α : Type} {g : State → α → State} (hg : ∀ (s : State) x, s.SameHearing (g s x)) (l : List α)
    (s : State) : s.SameHearing (l.foldl g s) := by
  induction l generalizing s with
  | nil => exact .refl s
  | cons x l ih => exact (hg s x).trans (ih _)

theorem State.refuseClaim_hearing (s : State) (n : Nat) (c : Station) (y : Option Int) : s.SameHearing (s.refuseClaim n c y) :=
  .of_keeps (s.refuseClaim_keeps n c y) (by decide)

theorem State.retarget_hearing (s : State) (n : Nat) (x : Target) : s.SameHearing (s.retarget n x) := by
  unfold State.retarget
  split
  · exact .refl s
  · next o ho =>
    dsimp only
    split
    case h_5 m hm =>
      split
      · exact .putOwned ho rfl
      · refine .trans ?_ (State.refuseClaim_hearing _ _ _ _)
        exact .putOwned ho rfl
    all_goals exact .putOwned ho rfl

theorem State.unbindAll_hearing (s : State) (a : Nat) : s.SameHearing (s.unbindAll a) := by
  refine .foldl (fun s n => ?_) _ s
  unfold State.unbindOne
  split
  · exact .refl s
  · next o ho =>
    have unbound : s.SameHearing (s.putOwned n { o with bound := none }) := .putOwned ho rfl
    exact (unbound.trans (State.retarget_hearing _ _ _)).trans (.of_keeps (State.uncountBound_keeps _ a) (by decide))

theorem State.complete_hearing (s : State) (a : Nat) (c : Changeover) : s.SameHearing (s.complete a c) := by
  unfold State.complete
  split
  · exact .of_keeps (s.modifyEntry_keeps a _) (by decide)
  · refine (s.unbindAll_hearing a).trans ?_
    dsimp only
    split
    · exact .of_keeps (State.removeEntry_keeps _ a) (by decide)
    · split
      · exact .of_keeps (State.modifyEntry_keeps _ a _) (by decide)
      · exact .of_keeps (fs := [.book, .counts]) (by simp) (by decide)

theorem State.floorReport_hearing (s : State) (a : Nat) : s.SameHearing (s.floorReport a) := by
  have released (v : State) (c : Changeover) (n : Station) : v.SameHearing (v.release a c n) := by
    unfold State.release
    dsimp only
    split
    · exact (State.SameHearing.of_keeps (v.modifyEntry_keeps a _) (by decide)).trans (State.complete_hearing _ a _)
    · exact .of_keeps (v.modifyEntry_keeps a _) (by decide)
  unfold State.floorReport State.localDone
  repeat' split
  case h_3.isTrue =>
    exact ((State.SameHearing.of_keeps (s.addReport_keeps _) (by decide)).trans (released _ _ _)).trans
      (.of_keeps (State.formReports_keeps _) (by decide))
  all_goals exact .refl s

theorem State.floorReportOpt_hearing (s : State) (a : Option Nat) : s.SameHearing (s.floorReportOpt a) := by
  cases a with
  | none => exact .refl s
  | some a => exact s.floorReport_hearing a

/-- The battery state taken for an OWNED entry, of whatever alert (R96). -/
theorem State.takeBattery_owned {n : Nat} {o : Owned} (h : s.owned n = some o) (b : Battery) :
    (s.takeBattery n b).owned n = some { o with battery := b } := by
  unfold State.takeBattery
  rw [h]
  dsimp only
  split
  · exact (State.owned_of_keeps (State.recordAlert_keeps _ _ _ _ _) (by decide) n).trans (s.owned_putOwned_self n _)
  · exact s.owned_putOwned_self n _

theorem State.takeBattery_hearing (s : State) (n : Nat) (b : Battery) : s.SameHearing (s.takeBattery n b) := by
  unfold State.takeBattery
  split
  · exact .refl s
  · next o ho =>
    have put : s.SameHearing (s.putOwned n { o with battery := b }) := .putOwned ho rfl
    dsimp only
    split
    · exact put.trans (.of_keeps (State.recordAlert_keeps _ _ _ _ _) (by decide))
    · exact put

/-! ### The levels of the label table (R112) -/

/-- Every entry keeps its smoothed level, whether it is OWNED or HEARD, and the cycle stands. -/
structure State.Still (s t : State) : Prop where
  cycle : s.SameCycle t
  levels : ∀ n, t.levelOf n = s.levelOf n

theorem State.Still.refl (s : State) : s.Still s := ⟨.refl s, fun _ => rfl⟩

theorem State.Still.trans (h : s.Still t) (k : t.Still u) : s.Still u :=
  ⟨h.cycle.trans k.cycle, fun n => (k.levels n).trans (h.levels n)⟩

theorem State.SameHearing.still (h : s.SameHearing t) : s.Still t := by
  refine ⟨h.cycle, fun n => ?_⟩
  have own := h.owned n
  have heard : t.heard n = s.heard n := by rw [State.heard, h.heard, State.heard]
  unfold State.levelOf
  rw [heard]
  cases hs : s.owned n <;> cases ht : t.owned n <;> simp_all

theorem State.SameHearing.gone (h : s.SameHearing t) {n : Nat} (hn : s.owned n = none) : t.owned n = none := by
  have own := h.owned n
  rw [hn] at own
  exact Option.map_eq_none_iff.1 own

/-! ### A label drops to HEARD (R111) -/

/-- The label has dropped to HEARD, before its article is told (R111). -/
def State.dropped (s : State) (n : Nat) (o : Owned) (c : Station) (level : Option Int) : State :=
  (s.withLabels fun l => { l with
    owned := AMap.del l.owned n
    heard := AMap.put l.heard n
      { hearing := { o.hearing with owner := c, ownerLevel := level }, claimAge := none, claimed := false } }).bump
        .dropsToHeard

theorem State.dropToHeard_unbound {o : Owned} (ho : o.bound = none) (n : Nat) (c : Station) (level : Option Int) :
    s.dropToHeard n o c level = s.dropped n o c level := by
  unfold State.dropToHeard
  simp only [ho]
  rfl

theorem State.dropToHeard_bound {o : Owned} {a : Nat} (ho : o.bound = some a) (n : Nat) (c : Station) (level : Option Int) :
    s.dropToHeard n o c level =
      ((s.dropped n o c level).modifyEntry a fun e => { e with bound := e.bound - 1 }).floorReport a := by
  unfold State.dropToHeard
  simp only [ho]
  rfl

theorem State.dropped_still {n : Nat} {o x : Owned} (ho : s.owned n = some o) (hx : x.hearing = o.hearing) (c : Station)
    (level : Option Int) : s.Still (s.dropped n x c level) := by
  refine ⟨⟨_, _, rfl⟩, fun m => ?_⟩
  have owned : (s.dropped n x c level).owned m = if m = n then none else s.owned m := AMap.get_del _ _ _
  have heard : (s.dropped n x c level).heard m = if m = n then
      some { hearing := { x.hearing with owner := c, ownerLevel := level }, claimAge := none, claimed := false }
    else s.heard m := AMap.get_put _ _ _ _
  by_cases hm : m = n
  · subst hm
    simp only [State.levelOf, owned, heard, ho, hx, if_true]
  · simp only [State.levelOf, owned, heard, hm, if_false]

theorem State.dropToHeard_still {n : Nat} {o x : Owned} (ho : s.owned n = some o) (hx : x.hearing = o.hearing) (c : Station)
    (level : Option Int) : s.Still (s.dropToHeard n x c level) := by
  have dropped := State.dropped_still ho hx c level
  cases hb : x.bound with
  | none => rwa [State.dropToHeard_unbound hb]
  | some a =>
    rw [State.dropToHeard_bound hb]
    exact (dropped.trans (State.SameHearing.of_keeps (State.modifyEntry_keeps _ a _) (by decide)).still).trans
      (State.floorReport_hearing _ a).still

/-- A label that is not MOVING drops to HEARD with no word to another station (R111). -/
theorem State.dropOwned_of {n : Nat} {o : Owned} (ho : s.owned n = some o) (hm : ∀ m, o.state ≠ .moving m) (c : Station) :
    s.dropOwned n c = s.dropToHeard n o c none := by
  simp only [State.dropOwned, ho]
  cases hs : o.state with
  | moving m => exact absurd hs (hm m)
  | _ => rfl

/-- A MOVING one has its move given up with a LABEL-REFUSE (R111). -/
theorem State.dropOwned_moving {n : Nat} {o : Owned} {m : Move} (ho : s.owned n = some o) (hm : o.state = .moving m)
    (c : Station) : s.dropOwned n c = (s.refuseClaim n m.claimant none).dropToHeard n o c none := by
  simp only [State.dropOwned, ho, hm]

theorem State.dropOwned_still (s : State) (n : Nat) (c : Station) : s.Still (s.dropOwned n c) := by
  cases ho : s.owned n with
  | none =>
    simp only [State.dropOwned, ho]
    exact .refl s
  | some o =>
    by_cases hm : ∃ m, o.state = .moving m
    · obtain ⟨m, hm⟩ := hm
      rw [State.dropOwned_moving ho hm]
      have kept : (s.refuseClaim n m.claimant none).owned n = some o :=
        (State.owned_of_keeps (s.refuseClaim_keeps n m.claimant none) (by decide) n).trans ho
      exact (s.refuseClaim_hearing n m.claimant none).still.trans (State.dropToHeard_still kept rfl c none)
    · rw [State.dropOwned_of ho fun m h => hm ⟨m, h⟩]
      exact State.dropToHeard_still ho rfl c none

theorem State.moveDone_still {n : Nat} {o : Owned} (ho : s.owned n = some o) (m : Move) : s.Still (s.moveDone n o m) := by
  have drops (v : State) (hk : keeps [.trunk, .counts] s v) : s.Still (v.dropToHeard n o m.claimant (some m.level)) :=
    (State.SameHearing.of_keeps hk (by decide)).still.trans
      (State.dropToHeard_still ((State.owned_of_keeps hk (by decide) n).trans ho) rfl _ _)
  unfold State.moveDone
  dsimp only
  refine drops _ ?_
  split
  · split
    · exact s.offer_keeps _
    · exact (s.offer_keeps _).trans ((State.bump_keeps _ _).mono (by decide))
  · exact keeps.refl _ s

/-! ### A presence of an OWNED label (R95, R111 to R113) -/

theorem State.presenceOwned_still {p : PresencePacket} {o : Owned} (ho : s.owned p.label = some o) :
    s.Still (s.presenceOwned p o) := by
  have battery := (s.takeBattery_hearing p.label p.battery).still
  have owned := State.takeBattery_owned ho p.battery
  refine battery.trans ?_
  unfold State.presenceOwned
  dsimp only
  split
  · have shown (x : Owned) : (x.takeDisplay p.display s.now).hearing = x.hearing := by
      unfold Owned.takeDisplay
      split
      · split <;> rfl
      all_goals rfl
    have now : (s.takeBattery p.label p.battery).now = s.now := s.takeBattery_keeps _ _ .now (by decide)
    unfold State.presenceOwn
    rw [now]
    split
    · refine .trans ?_ (State.floorReportOpt_hearing _ _).still
      refine State.SameHearing.still ?_
      exact .putOwned owned rfl
    · exact (State.SameHearing.putOwned owned (shown _)).still
    · exact (State.SameHearing.putOwned owned (shown _)).still
    · exact .refl _
    · exact .refl _
  · split
    · split
      · exact State.moveDone_still owned _
      · exact State.dropOwned_still _ _ _
    all_goals exact State.dropOwned_still _ _ _

/-! ### Taking in (R110) -/

section TakingIn
variable {n a : Nat} {d : Display} {b : Battery} {x : Hearing} {c : Count}

/-- The entry of a label that becomes OWNED, before it is settled (R110). -/
def newOwned (self : Station) (d : Display) (b : Battery) (bound : Option Nat) (target : Target) (x : Hearing) : Owned :=
  { bound := bound, display := d, state := .showing, target := target, lastSent := none, attempts := 0, power := 0
    battery := b, lastReceived := none, hearing := { x with owner := self, ownerLevel := none } }

/-- The label has its OWNED entry, and is not yet counted for its article (R110). -/
def State.made (s : State) (n : Nat) (d : Display) (b : Battery) (bound : Option Nat) (target : Target) (x : Hearing) : State :=
  s.withLabels fun l => { l with
    heard := AMap.del l.heard n
    owned := AMap.put l.owned n ((newOwned s.self d b bound target x).settled s.now) }

theorem State.made_owned (s : State) (bound : Option Nat) (target : Target) :
    (s.made n d b bound target x).owned n = some ((newOwned s.self d b bound target x).settled s.now) :=
  AMap.get_put_self _ _ _

theorem State.made_heard (s : State) (bound : Option Nat) (target : Target) :
    (s.made n d b bound target x).heard n = none :=
  (AMap.get_del _ _ _).trans (if_pos rfl)

/-- A label with an article on sale is taken in bound to it, and counted for it (R82, R110). -/
theorem State.makeOwned_bound {e : Entry} (he : s.entry a = some e) (hc : e.current ≠ none) :
    s.makeOwned n d b (some a) x = (s.made n d b (some a) (e.display a) x).countBound a := by
  simp only [State.makeOwned, State.bindingFor, State.bindCheck_visible he hc]
  rfl

/-- One with none is taken in unbound, its target the unbound BLANK (R82, R110). -/
theorem State.makeOwned_unbound {v : Option Nat} (h : ∀ a e, v = some a → s.entry a = some e → e.current = none) :
    s.makeOwned n d b v x = s.made n d b none .unbound x := by
  have binding : s.bindingFor v = (none, .unbound) := by
    cases v with
    | none => rfl
    | some a =>
      cases he : s.entry a with
      | none => simp [State.bindingFor, State.bindCheck, he]
      | some e => simp [State.bindingFor, State.bindCheck, he, h a e rfl he]
  simp only [State.makeOwned, binding]
  rfl

/-- A HEARD label is taken in with the hearing fields of its entry (R110). -/
theorem State.takeIn_heard {h : Heard} (hh : s.heard n = some h) (v : Option Nat) (y : Option Hearing) :
    s.takeIn n d b v y c = (true, (s.makeOwned n d b v h.hearing).bump c) := by
  simp only [State.takeIn, hh]

end TakingIn

end Sys2Proof.Machine
end

section
/-! PROOFS. What a presence is taken for, and how an orphan's is answered. -/

namespace Sys2Proof.Machine

open Sys2Proof

variable {s t u : State} {p : PresencePacket}

/-! ### The entry a presence is taken for (R112) -/

/-- A presence of a label with a HEARD entry, which it leaves as `h` (R112, R118). -/
def State.tookAs (s : State) (p : PresencePacket) (h : Heard) : State :=
  let v := (s.noted.putHeard p.label h).presenceHeard p h
  if p.orphan then v.answerOrphan p else v

/-- The HEARD entry after the presence (R109, R112). -/
def State.heardAs (s : State) (p : PresencePacket) (h : Heard) : Heard :=
  { h with hearing := (s.sampled p h.hearing).named p.owner }

/-- A station named anew leaves the owner's level absent (R109). -/
theorem State.heardAs_eq (s : State) (p : PresencePacket) (h : Heard) : s.heardAs p h = { h with hearing :=
    { smoothed := some (smooth h.hearing.smoothed p.level), lastCycle := s.labels.cycle, owner := p.owner
      stamp := s.labels.stamp + 1, ownerLevel := if h.hearing.owner = p.owner then h.hearing.ownerLevel else none } } := by
  by_cases hn : h.hearing.owner = p.owner <;>
    simp [State.heardAs, State.sampled, Hearing.sample, Hearing.named, hn]

/-- The HEARD entry of a label heard first (R112). -/
def State.firstHeard (s : State) (p : PresencePacket) : Heard :=
  { hearing := { smoothed := some (smooth none p.level), lastCycle := s.labels.cycle, owner := p.owner, ownerLevel := none
                 stamp := s.labels.stamp + 1 }
    claimAge := none, claimed := false }

theorem exec_presence_owned {o : Owned} (hl : s.live = true) (hv : s.serving = true)
    (hs : s.settings.labelService = true) (ho : s.owned p.label = some o) :
    exec (.presenceReceived p) s = .next (if p.orphan then (s.tookOwned p o).answerOrphan p else s.tookOwned p o) := by
  rw [exec_presenceReceived p hl hv hs, State.takePresence_owned ho, ho]
  rfl

theorem exec_presence_heard {h : Heard} (hl : s.live = true) (hv : s.serving = true)
    (hs : s.settings.labelService = true) (ho : s.owned p.label = none) (hh : s.heard p.label = some h) :
    exec (.presenceReceived p) s = .next (s.tookAs p (s.heardAs p h)) := by
  rw [exec_presenceReceived p hl hv hs, State.takePresence_heard ho hh, ho, hh]
  rfl

/-- A label heard first makes a HEARD entry where there is room (R112). -/
theorem exec_presence_first (hl : s.live = true) (hv : s.serving = true) (hs : s.settings.labelService = true)
    (ho : s.owned p.label = none) (hh : s.heard p.label = none)
    (hroom : s.labels.owned.length + s.labels.heard.length < 2048) :
    exec (.presenceReceived p) s = .next (s.tookAs p (s.firstHeard p)) := by
  let blank : Heard :=
    { hearing := { smoothed := none, lastCycle := s.labels.cycle, owner := p.owner, ownerLevel := none, stamp := 0 }
      claimAge := none, claimed := false }
  have created : s.newHeard p = (true, s.putHeard p.label blank) := by
    simp only [State.newHeard, State.makeRoom_free hroom, if_true]
    rfl
  have again : (s.putHeard p.label blank).noted.putHeard p.label (s.firstHeard p) =
      s.noted.putHeard p.label (s.firstHeard p) := by
    have order : (s.putHeard p.label blank).noted = s.noted.putHeard p.label blank := rfl
    rw [order]
    simp only [State.putHeard, State.withLabels, AMap.put_put]
  have sampled : (s.putHeard p.label blank).heardAs p blank = s.firstHeard p := by
    simp [State.heardAs, State.firstHeard, State.sampled, Hearing.sample, Hearing.named, blank, State.putHeard,
      State.withLabels]
  have own : (s.putHeard p.label blank).owned p.label = none := ho
  have entry : (s.putHeard p.label blank).heard p.label = some blank := AMap.get_put_self _ _ _
  have took : (s.putHeard p.label blank).takePresence p = s.tookAs p (s.firstHeard p) := by
    rw [State.takePresence_heard own entry, State.tookAs, ← again, ← sampled]
    rfl
  rw [exec_presenceReceived p hl hv hs, ho, hh, created]
  exact congrArg _ took

/-- One of a label for which there is no room is counted, and nothing more (R110, R112). -/
theorem exec_presence_noRoom (hl : s.live = true) (hv : s.serving = true) (hs : s.settings.labelService = true)
    (ho : s.owned p.label = none) (hh : s.heard p.label = none) (hfull : 2048 ≤ s.labels.owned.length)
    (hnone : s.labels.heard = []) :
    exec (.presenceReceived p) s = .next (s.bump (if p.owner = s.self then .turnedAway else .presencesIgnored)) := by
  have refused : s.newHeard p = (false, s.bump (if p.owner = s.self then .turnedAway else .presencesIgnored)) := by
    simp only [State.newHeard, State.makeRoom_none hfull hnone, Bool.false_eq_true, if_false]
  rw [exec_presenceReceived p hl hv hs, ho, hh, refused]
  rfl

/-! ### A presence of an OWNED label (R95, R96, R111, R113) -/

section OwnedLabel
variable {o : Owned}

/-- The entry after the presence's sample (R112). -/
def State.ownedAs (s : State) (p : PresencePacket) (o : Owned) : Owned := { o with hearing := s.sampled p o.hearing }

/-- The battery state of the presence is taken after its sample (R96, R112). -/
def State.toldBattery (s : State) (p : PresencePacket) (o : Owned) : State :=
  (s.noted.putOwned p.label (s.ownedAs p o)).takeBattery p.label p.battery

theorem State.toldBattery_keeps (s : State) (p : PresencePacket) (o : Owned) :
    keeps [.labels, .alerts, .counts] s (s.toldBattery p o) := by
  simp [State.toldBattery, State.noted]

theorem State.toldBattery_owned (s : State) (p : PresencePacket) (o : Owned) :
    (s.toldBattery p o).owned p.label = some { s.ownedAs p o with battery := p.battery } :=
  State.takeBattery_owned (State.owned_putOwned_self _ _ _) p.battery

/-- One that names this station (R95, R113). -/
theorem State.tookOwned_self (hn : p.owner = s.self) :
    s.tookOwned p o = (s.toldBattery p o).presenceOwn p { s.ownedAs p o with battery := p.battery } :=
  if_pos hn

/-- One that names another, no move of the label's ending by it (R111). -/
theorem State.tookOwned_other (hn : p.owner ≠ s.self) (hm : ∀ m, o.state = .moving m → p.owner ≠ m.claimant) :
    s.tookOwned p o = (s.toldBattery p o).dropOwned p.label p.owner := by
  have other : ¬ p.owner = (s.noted.putOwned p.label (s.ownedAs p o)).self := hn
  have took : s.tookOwned p o = (s.noted.putOwned p.label (s.ownedAs p o)).presenceOwned p (s.ownedAs p o) := rfl
  have state : (s.ownedAs p o).state = o.state := rfl
  rw [took, State.presenceOwned, if_neg other, state]
  cases hs : o.state with
  | moving m => exact if_neg (hm m hs)
  | _ => rfl

/-- The display of a presence in the entry of a SHOWING label (R113). -/
theorem Owned.takeDisplay_showing (hs : o.state = .showing) (d : Display) (now : Nat) : o.takeDisplay d now =
    { o with
      display := d
      state := if d = o.display ∨ ({ o with display := d } : Owned).current then .showing else .updateDue now } := by
  unfold Owned.takeDisplay
  rw [hs]
  dsimp only
  split
  · next hd =>
    rw [if_pos (.inl hd), hd, ← hs]
  · next hd =>
    simp only [hd, false_or]
    rfl

theorem State.presenceOwn_showing (hs : o.state = .showing) : s.presenceOwn p o = s.putOwned p.label { o with
    display := p.display
    state := if p.display = o.display ∨ ({ o with display := p.display } : Owned).current then .showing
      else .updateDue s.now } := by
  simp only [State.presenceOwn, hs, Owned.takeDisplay_showing hs]

theorem State.presenceOwn_due {due : Nat} (hs : o.state = .updateDue due) :
    s.presenceOwn p o = s.putOwned p.label { o with display := p.display } := by
  simp only [State.presenceOwn, Owned.takeDisplay, hs]

/-- An attempt in the air leaves the display to its acknowledgement (R113). -/
theorem State.presenceOwn_inAir (hs : (∃ due, o.state = .sent due) ∨ ∃ m, o.state = .moving m) : s.presenceOwn p o = s := by
  rcases hs with ⟨due, hs⟩ | ⟨m, hs⟩ <;> simp only [State.presenceOwn, hs]

theorem State.presenceOwn_lost (hs : o.state = .lost) : s.presenceOwn p o =
    (s.putOwned p.label { o with display := p.display, attempts := 0, state := .updateDue s.now }).floorReportOpt o.bound := by
  simp only [State.presenceOwn, hs]

end OwnedLabel

/-! ### A presence of a HEARD label (R110, R114) -/

theorem State.tookAs_other (h : Heard) (ho : p.orphan = false) (hn : p.owner ≠ s.self) :
    s.tookAs p h = (s.noted.putHeard p.label h).claim p.label h := by
  have other : ¬ p.owner = (s.noted.putHeard p.label h).self := hn
  simp only [State.tookAs, State.presenceHeard, other, ho, Bool.false_eq_true, if_false]

theorem State.tookAs_self (h : Heard) (ho : p.orphan = false) (hn : p.owner = s.self) :
    s.tookAs p h = ((s.noted.putHeard p.label h).makeOwned p.label p.display p.battery (shownArticle p.display)
      h.hearing).bump .takenByPresence := by
  have self : p.owner = (s.noted.putHeard p.label h).self := hn
  have entry : (s.noted.putHeard p.label h).heard p.label = some h := AMap.get_put_self _ _ _
  simp only [State.tookAs, State.presenceHeard, self, if_true, ho, Bool.false_eq_true, if_false, State.takeIn_heard entry]

theorem State.tookAs_orphan (h : Heard) (ho : p.orphan = true) :
    s.tookAs p h = (s.noted.putHeard p.label h).answerOrphan p := by
  rw [State.tookAs, if_pos ho, State.presenceHeard, if_pos ho]
  split <;> rfl

theorem State.noted_keeps (s : State) (n : Nat) (h : Heard) : keeps [.labels, .counts] s (s.noted.putHeard n h) := by
  simp [State.noted]

/-- A presence of an OWNED label leaves its level as sampled, and no more of the table than its entries (R112). -/
theorem State.tookOwned_still (s : State) (p : PresencePacket) (o : Owned) :
    (s.noted.putOwned p.label (s.ownedAs p o)).Still (s.tookOwned p o) :=
  State.presenceOwned_still (State.owned_putOwned_self _ _ _)

theorem State.tookOwned_keeps (s : State) (p : PresencePacket) (o : Owned) :
    keeps [.book, .labels, .trunk, .counts, .alerts] s (s.tookOwned p o) := by
  have noted : keeps [.book, .labels, .trunk, .counts, .alerts] s (s.noted.putOwned p.label (s.ownedAs p o)) := by
    simp [State.noted]
  exact noted.trans (State.presenceOwned_keeps _ _ _)

/-- A label taken in names this station, whatever station its entry named (R110). -/
theorem newOwned_named (self n : Station) (d : Display) (b : Battery) (v : Option Nat) (x : Target) (h : Hearing) :
    newOwned self d b v x (h.named n) = newOwned self d b v x h := by
  unfold Hearing.named
  split <;> rfl

/-- The claim test of a label heard first (R114). -/
theorem State.firstHeard_mayClaim (hn : p.owner ≠ s.self) :
    (s.noted.putHeard p.label (s.firstHeard p)).mayClaim (s.firstHeard p) = true ↔
      s.part = .running ∧ s.labels.aligned = true ∧ (s.peer p.owner).kind = some .controller ∧
        (s.peer p.owner).state = .alive ∧ -300 ≤ smooth none p.level := by
  rw [State.mayClaim_iff (x := smooth none p.level) rfl]
  constructor
  · rintro ⟨hp, ha, -, hk, hs, hx, -⟩
    exact ⟨hp, ha, hk, hs, hx⟩
  · rintro ⟨hp, ha, hk, hs, hx⟩
    exact ⟨hp, ha, hn, hk, hs, hx, (by simp [State.firstHeard]), (by simp [State.firstHeard])⟩

/-- What a label taken in by a presence leaves, bound to an article on sale (R110). -/
theorem State.tookIn_bound {h : Heard} {a : Nat} {e : Entry} (hform : p.display.form = .price)
    (ha : p.display.article = some a) (he : s.entry a = some e) (hc : e.current ≠ none) (ho : p.orphan = false)
    (hn : p.owner = s.self) :
    let o := newOwned s.self p.display p.battery (some a) (e.display a) h.hearing
    (s.tookAs p h).heard p.label = none ∧ (s.tookAs p h).owned p.label = some (o.settled s.now) ∧
      (s.tookAs p h).entry a = some { e with bound := min (e.bound + 1) 2048 } ∧
      (s.tookAs p h).count .takenByPresence = min (s.count .takenByPresence + 1) 4294967295 := by
  have shown : shownArticle p.display = some a := by simp only [shownArticle, hform, ha]
  have took := State.tookAs_self h ho hn
  have kept := s.noted_keeps p.label h
  have uncounted : (s.noted.putHeard p.label h).count .takenByPresence = s.count .takenByPresence :=
    State.count_bump_ne _ (by decide)
  have now : (s.noted.putHeard p.label h).now = s.now := kept .now (by decide)
  have self : (s.noted.putHeard p.label h).self = s.self := congrArg Settings.station (kept .settings (by decide))
  have entry : (s.noted.putHeard p.label h).entry a = some e :=
    (congrArg (fun b : Book => AMap.get b.entries a) (kept .book (by decide))).trans he
  generalize s.noted.putHeard p.label h = v at took uncounted now self entry
  rw [took, shown, State.makeOwned_bound entry hc, ← now, ← self, ← uncounted]
  refine ⟨State.made_heard _ _ _, State.made_owned _ _ _, ?_, ?_⟩
  · exact State.entry_modifyEntry_self (s := v.made _ _ _ _ _ _) entry _
  · rw [State.count_bump, if_pos rfl]
    rfl

/-- And taken in unbound (R110). -/
theorem State.tookIn_unbound {h : Heard}
    (hno : ∀ a e, shownArticle p.display = some a → s.entry a = some e → e.current = none) (ho : p.orphan = false)
    (hn : p.owner = s.self) :
    let o := newOwned s.self p.display p.battery none .unbound h.hearing
    (s.tookAs p h).book = s.book ∧ (s.tookAs p h).heard p.label = none ∧
      (s.tookAs p h).owned p.label = some (o.settled s.now) ∧
      (s.tookAs p h).count .takenByPresence = min (s.count .takenByPresence + 1) 4294967295 := by
  have took := State.tookAs_self h ho hn
  have kept := s.noted_keeps p.label h
  have uncounted : (s.noted.putHeard p.label h).count .takenByPresence = s.count .takenByPresence :=
    State.count_bump_ne _ (by decide)
  have now : (s.noted.putHeard p.label h).now = s.now := kept .now (by decide)
  have self : (s.noted.putHeard p.label h).self = s.self := congrArg Settings.station (kept .settings (by decide))
  have book : (s.noted.putHeard p.label h).book = s.book := kept .book (by decide)
  generalize s.noted.putHeard p.label h = v at took uncounted now self book
  have unbound : v.makeOwned p.label p.display p.battery (shownArticle p.display) h.hearing =
      v.made p.label p.display p.battery none .unbound h.hearing :=
    State.makeOwned_unbound fun a e ha he => hno a e ha (by rw [State.entry, ← book]; exact he)
  rw [took, unbound, ← now, ← self, ← uncounted, ← book]
  refine ⟨rfl, State.made_heard _ _ _, State.made_owned _ _ _, ?_⟩
  rw [State.count_bump, if_pos rfl]
  rfl

/-! ### The answer to an orphan (R118) -/

theorem State.levelOf_owned {n : Nat} {o : Owned} (ho : s.owned n = some o) : s.levelOf n = o.hearing.smoothed := by
  simp only [State.levelOf, ho]

theorem State.levelOf_heard {n : Nat} {h : Heard} (ho : s.owned n = none) (hh : s.heard n = some h) :
    s.levelOf n = h.hearing.smoothed := by
  simp only [State.levelOf, ho, hh]

/-- The adoption MOVE that answers a presence heard in cycle `cycle`, the `stamp`th (R118). -/
def State.adopting (s : State) (p : PresencePacket) (cycle stamp : Nat) : State :=
  (s.emit (.radio (.move none p.label s.self s.settings.labelChannel 0))).withLabels fun l =>
    { l with adoptions := l.adoptions ++ [{ presence := p, cycle := cycle, stamp := stamp, ack := none }] }

/-- An orphan's presence is answered on the common channel by a part that is RUNNING and aligned and hears it well
enough (R118). -/
theorem State.answerOrphan_of {x : Int} (hx : s.levelOf p.label = some x) :
    s.answerOrphan p = if s.part = .running ∧ s.labels.aligned = true ∧ -340 ≤ x then
      s.adopting p s.labels.cycle s.labels.stamp else s := by
  have room : s.roomFor p.label = true := by
    unfold State.levelOf at hx
    unfold State.roomFor
    cases ho : s.owned p.label with
    | some o => rfl
    | none =>
      cases hh : s.heard p.label with
      | some h => rfl
      | none => simp [ho, hh] at hx
  unfold State.answerOrphan
  simp only [room, hx, Option.any_some, Bool.and_true, Bool.and_eq_true, beq_iff_eq, decide_eq_true_eq, and_assoc]
  rfl

end Sys2Proof.Machine

/-! ### The statements -/

open Sys2Proof Sys2Proof.Machine

/-- Settles O26, by the entry that each presence is taken for and the answer an orphan's is given. -/
theorem presenceIsTaken : Obligations.PresenceIsTaken := by
  unfold Obligations.PresenceIsTaken
  refine ⟨?taken, ?first, ?dropped, ?orphanHeard, ?orphan⟩
  case taken =>
    intro s p hl hv hs ho heardNow counted
    refine ⟨fun hu hh hnone hfull => exec_presence_noRoom hl hv hs hu hh hfull hnone, ?unclaimed, ?owned, ?heard⟩
    case unclaimed =>
      intro hu hh hroom hp hn
      have unclaimable : (s.noted.putHeard p.label (s.firstHeard p)).mayClaim (s.firstHeard p) = false := by
        have part : (s.noted.putHeard p.label (s.firstHeard p)).part = s.part := rfl
        simp [State.mayClaim, part, hp]
      have run := exec_presence_first hl hv hs hu hh hroom
      rw [State.tookAs_other _ ho hn, State.claim_not unclaimable] at run
      exact ⟨_, run, s.noted_keeps _ _, AMap.get_put_self _ _ _⟩
    case owned =>
      intro o hown sampled told battery
      have run := exec_presence_owned (p := p) hl hv hs hown
      simp only [ho, Bool.false_eq_true, if_false] at run
      have now : battery.now = s.now := s.toldBattery_keeps p o .now (by decide)
      have own : battery.owned p.label = some told := s.toldBattery_owned p o
      refine ⟨fun hn => ?named, fun hn hm => ?_, fun hn m hm hc hsend hroom => ?_⟩
      case named =>
        have own : exec (.presenceReceived p) s = .next (battery.presenceOwn p told) :=
          run.trans (congrArg _ (State.tookOwned_self hn))
        refine ⟨fun hst => own.trans (congrArg _ ?_), fun due hst => own.trans (congrArg _ ?_),
          fun hst => own.trans (congrArg _ ?_), fun hst => own.trans (congrArg _ ?_)⟩
        · exact (State.presenceOwn_showing (o := told) hst).trans (by rw [now]; rfl)
        · exact State.presenceOwn_due (o := told) hst
        · exact State.presenceOwn_inAir (o := told) hst
        · exact (State.presenceOwn_lost (o := told) hst).trans (by rw [now])
      · rw [run, State.tookOwned_other hn fun m h => absurd h (hm m)]
        exact congrArg _ (State.dropOwned_of own hm p.owner)
      · rw [run, State.tookOwned_other hn fun k hk => by cases hm.symm.trans hk; exact hc]
        refine congrArg _ ((State.dropOwned_moving own hm p.owner).trans ?_)
        have sends : battery.canSend = true :=
          (State.canSend_of_keeps (s.toldBattery_keeps p o) (by decide)).trans hsend
        rw [State.refuseClaim_queued sends hroom]
    case heard =>
      intro h a e hu hh hn hform ha he hc target o
      have run := exec_presence_heard hl hv hs hu hh
      obtain ⟨gone, made, entry, count⟩ := State.tookIn_bound (h := s.heardAs p h) hform ha he hc ho hn
      refine ⟨_, run, gone, made.trans ?_, entry, count⟩
      have named : newOwned s.self p.display p.battery (some a) (e.display a) (s.heardAs p h).hearing = o :=
        newOwned_named _ _ _ _ _ _ _
      rw [named]
      rfl
  case first =>
    intro s p hl hv hs ho hu level stamp counted settled room
    refine ⟨fun hh hroom => ?new, fun h hh hn hno => ?unbound⟩
    case new =>
      intro new claims claimed
      have run := exec_presence_first hl hv hs hu hh hroom
      refine ⟨fun hn => ?other, fun hn a e hform ha he hc => ?own⟩
      case other =>
        rw [State.tookAs_other _ ho hn] at run
        have test := State.firstHeard_mayClaim hn
        refine ⟨fun hc => run.trans (congrArg _ (State.claim_not (by simpa using mt test.1 hc) p.label)),
          fun hc hroom => run.trans (congrArg _ ?_)⟩
        have sends : (s.noted.putHeard p.label (s.firstHeard p)).canSend = true :=
          (State.canSend_of_keeps (s.noted_keeps _ _) (by decide)).trans (by simp [State.canSend, hc.1])
        rw [State.claim_queued (x := level) rfl (test.2 hc) sends hroom]
        have again : (s.noted.putHeard p.label (s.firstHeard p)).putHeard p.label
            { s.firstHeard p with claimAge := some 0, claimed := true } = claimed := by
          simp only [claimed, State.putHeard, State.withLabels, AMap.put_put]
          rfl
        rw [again]
        rfl
      case own =>
        intro o
        obtain ⟨gone, made, entry, count⟩ := State.tookIn_bound (h := s.firstHeard p) hform ha he hc ho hn
        refine ⟨_, run, gone, made.trans ?_, entry, count⟩
        have named : newOwned s.self p.display p.battery (some a) (e.display a) (s.firstHeard p).hearing = o := by
          simp only [o, newOwned, ← hn]
          rfl
        rw [named]
        rfl
    case unbound =>
      intro o
      have run := exec_presence_heard hl hv hs hu hh
      have article : ∀ a e, shownArticle p.display = some a → s.entry a = some e → e.current = none := by
        intro a e ha he
        unfold shownArticle at ha
        rcases hno with hb | hb | ⟨b, hb, hcur⟩
        · rw [hb] at ha
          cases ha
        · rw [hb] at ha
          split at ha <;> cases ha
        · rw [hb] at ha
          split at ha
          · cases ha
            exact hcur e he
          · cases ha
      obtain ⟨book, gone, made, count⟩ := State.tookIn_unbound (h := s.heardAs p h) article ho hn
      refine ⟨_, run, book, gone, made.trans ?_, count⟩
      have named : newOwned s.self p.display p.battery none .unbound (s.heardAs p h).hearing = o :=
        newOwned_named _ _ _ _ _ _ _
      rw [named]
      rfl
  case dropped =>
    intro s n o c level gone
    exact ⟨fun hb => State.dropToHeard_unbound hb n c level, fun a hb => State.dropToHeard_bound hb n c level⟩
  case orphanHeard =>
    intro s p h hl hv hs ho hu hh level hearing taken
    have run := exec_presence_heard hl hv hs hu hh
    have entry : s.heardAs p h = { h with hearing := hearing } := s.heardAs_eq p h
    have heard : (s.noted.putHeard p.label (s.heardAs p h)).levelOf p.label = some level := by
      refine (State.levelOf_heard (s := s.noted.putHeard p.label (s.heardAs p h)) (h := s.heardAs p h) hu
        (AMap.get_put_self _ _ _)).trans ?_
      rw [entry]
    rw [State.tookAs_orphan _ ho, State.answerOrphan_of heard, entry] at run
    refine ⟨fun hp ha hx => run.trans (congrArg _ (if_pos ⟨hp, ha, hx⟩)), fun hno => run.trans (congrArg _ (if_neg ?_))⟩
    rintro ⟨hp, ha, hx⟩
    rcases hno with hno | hno | hno
    · exact hno hp
    · exact Bool.false_ne_true (hno.symm.trans ha)
    · exact absurd hx (by omega)
  case orphan =>
    intro s p hl hv hs ho answered answers counted
    refine ⟨fun o hown => ?owned, fun hu hh hroom => ?first⟩
    case owned =>
      intro level
      have calm : exec (.presenceReceived { p with orphan := false }) s = .next (s.tookOwned p o) :=
        exec_presence_owned (p := { p with orphan := false }) hl hv hs hown
      have run := exec_presence_owned (p := p) hl hv hs hown
      rw [if_pos ho] at run
      have still := s.tookOwned_still p o
      obtain ⟨x, y, labels⟩ := still.cycle
      have heard : (s.tookOwned p o).levelOf p.label = some level :=
        (still.levels p.label).trans (State.levelOf_owned (State.owned_putOwned_self _ _ _))
      have kept := s.tookOwned_keeps p o
      have part : (s.tookOwned p o).part = s.part := kept .part (by decide)
      have settings : (s.tookOwned p o).settings = s.settings := kept .settings (by decide)
      generalize s.tookOwned p o = t at calm run labels heard part settings
      have aligned : t.labels.aligned = s.labels.aligned := by rw [labels]; rfl
      have cycle : t.labels.cycle = s.labels.cycle := by rw [labels]; rfl
      have stamp : t.labels.stamp = s.labels.stamp + 1 := by rw [labels]; rfl
      rw [State.answerOrphan_of heard, part, aligned, cycle, stamp] at run
      refine ⟨t, calm, fun h => run.trans (congrArg _ ((if_pos h).trans ?_)), fun h => run.trans (congrArg _ (if_neg h))⟩
      simp only [State.adopting, State.self, settings, answered]
    case first =>
      intro level new
      have run := exec_presence_first hl hv hs hu hh hroom
      have heard : (s.noted.putHeard p.label (s.firstHeard p)).levelOf p.label = some level :=
        State.levelOf_heard (s := s.noted.putHeard p.label (s.firstHeard p)) (h := s.firstHeard p) hu (AMap.get_put_self _ _ _)
      rw [State.tookAs_orphan _ ho, State.answerOrphan_of heard] at run
      exact ⟨fun h => run.trans (congrArg _ (if_pos h)), fun h => run.trans (congrArg _ (if_neg h))⟩
end

section
/-! PROOFS. The moves, handovers and adoptions by which a label's ownership passes. -/

namespace Sys2Proof.Machine

open Sys2Proof

variable {s t u : State}

/-! ### MOVE attempts (R88, R93, R116) -/

section Moves
variable {n : Nat} {o : Owned} {m : Move}

theorem State.sendMove_moving (ho : s.owned n = some o) (hs : o.state = .moving m) : s.sendMove n =
    (s.putOwned n { o with state := .moving { m with inAir := true } }).emit
      (.radio (.move (some s.settings.labelChannel) n m.claimant m.channel o.power)) := by
  simp only [State.sendMove, ho, hs]

/-- An entry that is not UPDATE-DUE has no place in the update list (R80). -/
theorem updateList_skip (h : ∀ d, o.state ≠ .updateDue d) (n : Nat) (l : List (Nat × Owned)) :
    updateList ((n, o) :: l) = updateList l := by
  rw [updateList]
  split
  · next d hd => exact absurd hd (h d)
  all_goals rfl

theorem updateList_put {x : Owned} {l : AMap Owned} (hx : ∀ d, x.state ≠ .updateDue d)
    (hl : ∀ o, AMap.get l n = some o → ∀ d, o.state ≠ .updateDue d) : updateList (AMap.put l n x) = updateList l := by
  induction l with
  | nil => exact updateList_skip hx n []
  | cons e l ih =>
    obtain ⟨k, o⟩ := e
    unfold AMap.put
    split
    · exact updateList_skip hx n _
    · split
      · next hk =>
        have first : AMap.get ((k, o) :: l) n = some o := by simp [AMap.get, hk]
        rw [updateList_skip hx, updateList_skip (hl o first)]
      · next hk =>
        have later : AMap.get ((k, o) :: l) n = AMap.get l n := by simp [AMap.get, Ne.symm hk]
        have rest := ih fun p hp => hl p (later.trans hp)
        simp only [updateList, rest]

/-- A MOVE attempt leaves the update list. -/
theorem State.sendMove_listed (ho : s.owned n = some o) (hs : o.state = .moving m) : (s.sendMove n).updates = s.updates := by
  rw [State.sendMove_moving ho hs]
  refine updateList_put (l := s.labels.owned) (fun d h => by cases h) fun p hp d hd => ?_
  cases Option.some.inj (ho.symm.trans hp)
  exact LabelState.noConfusion (hs.symm.trans hd)

/-- A slot with one MOVING label, whose attempt comes before any listed label's turn (R88). -/
theorem State.beginSlot_move (ho : s.owned n = some o) (hs : o.state = .moving m) (hm : s.mayFill = true)
    (hn : s.movers s.labels.slot = [n]) :
    s.beginSlot = (((s.updates.map (·.2)).filter fun x => decide (x % 128 = s.labels.slot)).take 3).foldl
      (fun t x => t.takeTurn x) ((s.emit (.radio (.header s.settings.labelChannel s.settings.station s.labels.cycle
        s.labels.slot s.labels.length))).sendMove n) := by
  let headed := s.emit (.radio (.header s.settings.labelChannel s.settings.station s.labels.cycle s.labels.slot s.labels.length))
  have moves : (headed.movers s.labels.slot).take 4 = [n] := by
    have same : headed.movers s.labels.slot = s.movers s.labels.slot := rfl
    rw [same, hn]
    rfl
  have listed : (headed.sendMove n).updates = s.updates := State.sendMove_listed (s := headed) ho hs
  have begun : s.beginSlot = (let moves := (headed.movers s.labels.slot).take 4
      let v := moves.foldl (fun s n => s.sendMove n) headed
      (((v.updates.map (·.2)).filter fun n => decide (slotOf n = s.labels.slot)).take (4 - moves.length)).foldl
        (fun s n => s.takeTurn n) v) := if_pos hm
  rw [begun]
  simp only [moves, List.foldl_cons, List.foldl_nil, listed]
  rfl

theorem State.endTurn_rests (ho : s.owned n = some o) (hs : o.state = .moving m) (ha : m.inAir = false) :
    s.endTurn n = s := by
  simp [State.endTurn, ho, hs, ha]

theorem State.endTurn_move (ho : s.owned n = some o) (hs : o.state = .moving m) (ha : m.inAir = true) :
    s.endTurn n = s.moveUnanswered n o m := by
  simp [State.endTurn, ho, hs, ha]

theorem State.moveUnanswered_again (h : o.attempts < 5) : s.moveUnanswered n o m =
    (s.bump .unansweredAttempts).putOwned n { o.missed with state := .moving { m with inAir := false } } := by
  have more : o.missed.attempts < 6 := Nat.succ_lt_succ h
  simp only [State.moveUnanswered, more, if_true]

/-- The sixth unanswered attempt (R116). -/
theorem State.moveUnanswered_failed (h : 5 ≤ o.attempts) : s.moveUnanswered n o m =
    (((s.bump .unansweredAttempts).putOwned n (({ o.missed with attempts := 0 } : Owned).settled s.now)).bump
      .failedMoves).refuseClaim n m.claimant o.hearing.smoothed := by
  have last : ¬ o.missed.attempts < 6 := Nat.not_lt.2 (Nat.succ_le_succ h)
  simp only [State.moveUnanswered, last, if_false]

/-! ### The end of a move (R116) -/

/-- The LABEL-HANDOVER of a label that is handed to the claimant (R116). -/
def Owned.handover (o : Owned) (n : Nat) (c : Station) : Frame :=
  { dest := some c, purpose := .label, attempts := 0
    body := .labelHandover { label := n, bound := o.bound, display := o.display, battery := o.battery } }

theorem State.moveDone_stale (h : o.current = false) : s.moveDone n o m = s.dropToHeard n o m.claimant (some m.level) := by
  simp [State.moveDone, h]

theorem State.moveDone_offered {a : Answer} {v : State} (h : o.current = true)
    (offered : s.offer (o.handover n m.claimant) = (a, v)) (ha : a ≠ .notTaken) :
    s.moveDone n o m = (v.bump .handoversSent).dropToHeard n o m.claimant (some m.level) := by
  have formed : s.offer (Frame.new (some m.claimant)
      (.labelHandover { label := n, bound := o.bound, display := o.display, battery := o.battery }) .label) = (a, v) := offered
  simp only [State.moveDone, h, if_true, formed, ha, if_false]

theorem State.moveDone_queued (h : o.current = true) (hsend : s.canSend = true) (hroom : s.trunk.notice.length < 64) :
    s.moveDone n o m = ((s.withTrunk fun t => { t with notice := t.notice ++ [o.handover n m.claimant] }).bump
      .handoversSent).dropToHeard n o m.claimant (some m.level) :=
  State.moveDone_offered h (State.offer_notice_queued rfl hsend hroom) (by decide)

/-- A full NOTICE queue leaves the handover in the hold line (R124). -/
theorem State.moveDone_held (h : o.current = true) (hsend : s.canSend = true) (hfull : 64 ≤ s.trunk.notice.length)
    (hfree : ∀ g ∈ s.trunk.holdNotice, g.sender ≠ .labels) : s.moveDone n o m =
      (((s.withTrunk fun t => { t with holdNotice := t.holdNotice ++ [o.handover n m.claimant] }).bump .framesWaited).bump
        .handoversSent).dropToHeard n o m.claimant (some m.level) := by
  have free : (s.trunk.holdNotice.any fun g => g.sender == (o.handover n m.claimant).sender) = false := by
    rw [List.any_eq_false]
    have sender : (o.handover n m.claimant).sender = .labels := rfl
    exact fun g hg => by simpa [sender] using hfree g hg
  exact State.moveDone_offered h (State.offer_notice_held rfl rfl hsend hfull free) (by decide)

/-- And one behind another of its block is kept behind it (R124). -/
theorem State.moveDone_kept (h : o.current = true) (hsend : s.canSend = true) (hfull : 64 ≤ s.trunk.notice.length)
    (htaken : ∃ g ∈ s.trunk.holdNotice, g.sender = .labels) (hroom : (s.trunk.keptBy .labels .notice).length < 64) :
    s.moveDone n o m = ((s.withTrunk fun t => { t with kept := t.kept ++ [o.handover n m.claimant] }).bump
      .handoversSent).dropToHeard n o m.claimant (some m.level) := by
  have taken : (s.trunk.holdNotice.any fun g => g.sender == (o.handover n m.claimant).sender) = true := by
    rw [List.any_eq_true]
    obtain ⟨g, hg, hs⟩ := htaken
    have sender : (o.handover n m.claimant).sender = .labels := rfl
    exact ⟨g, hg, by simpa [sender] using hs⟩
  exact State.moveDone_offered h (State.offer_notice_kept rfl rfl hsend hfull taken hroom) (by decide)

/-- An ACK of a MOVING label (R116). -/
theorem State.takeAck_moving {a : AckPacket} (ho : s.owned a.label = some o) (hs : o.state = .moving m) :
    s.takeAck a = ((s.hearAdoptionAck a).bump .acksTaken).ackMoving a o m := by
  simp only [State.takeAck, State.hearAdoptionAck_owned, ho, hs]

theorem State.ackMoving_claimant {a : AckPacket} (h : a.owner = m.claimant) : s.ackMoving a o m =
    (s.takeBattery a.label a.battery).moveDone a.label { o with battery := a.battery } m := if_pos h

/-- An ACK that names another station answers no attempt (R116). -/
theorem State.ackMoving_other {a : AckPacket} (ho : s.owned a.label = some o) (hs : o.state = .moving m)
    (h : a.owner ≠ m.claimant) : s.ackMoving a o m = (s.endTurn a.label).takeBattery a.label a.battery := by
  unfold State.ackMoving
  rw [if_neg h]
  split
  · next ha => rw [State.endTurn_move ho hs ha]
  · next ha => rw [State.endTurn_rests ho hs (by simpa using ha)]

/-- A presence that names the claimant (R112, R116). -/
theorem State.tookOwned_claimant {p : PresencePacket} (hn : p.owner ≠ s.self) (hs : o.state = .moving m)
    (hc : p.owner = m.claimant) : s.tookOwned p o =
      (s.toldBattery p o).moveDone p.label { s.ownedAs p o with battery := p.battery } m := by
  have other : ¬ p.owner = (s.noted.putOwned p.label (s.ownedAs p o)).self := hn
  have took : s.tookOwned p o = (s.noted.putOwned p.label (s.ownedAs p o)).presenceOwned p (s.ownedAs p o) := rfl
  have state : (s.ownedAs p o).state = .moving m := hs
  rw [took, State.presenceOwned, if_neg other, state]
  exact if_pos hc

end Moves

end Sys2Proof.Machine
end

section
/-! PROOFS. Handovers taken in, adoptions and their ends. -/

namespace Sys2Proof.Machine

open Sys2Proof

variable {s t u : State}

/-! ### Taking in a label with no HEARD entry (R110) -/

section TakingIn
variable {n : Nat} {d : Display} {b : Battery} {x : Hearing} {c : Count} {v : State}

/-- A free last heard cycle has been drawn (log 6). -/
def State.redrawn (s : State) : State := { s with fresh := s.fresh + 1 }

/-- The hearing fields of a label of which no presence has been taken (log 6). -/
def State.unheardAs (s : State) : Hearing :=
  { smoothed := none, lastCycle := (Config.unheardCycle s.fresh).toNat, owner := s.self, ownerLevel := none, stamp := 0 }

theorem State.takeIn_unheard (hh : s.heard n = none) (hr : s.makeRoom = (true, v)) (bound : Option Nat) :
    s.takeIn n d b bound none c = (true, (v.redrawn.makeOwned n d b bound v.unheardAs).bump c) := by
  simp only [State.takeIn, hh, hr, if_true]
  rfl

/-- A label whose presence is known takes its hearing fields (R110, R112). -/
theorem State.takeIn_presence (hh : s.heard n = none) (hr : s.makeRoom = (true, v)) (bound : Option Nat) :
    s.takeIn n d b bound (some x) c = (true, (v.makeOwned n d b bound x).bump c) := by
  simp only [State.takeIn, hh, hr, if_true]

theorem State.takeIn_noRoom (hh : s.heard n = none) (hr : s.makeRoom = (false, v)) (bound : Option Nat) (y : Option Hearing) :
    s.takeIn n d b bound y c = (false, v.bump .turnedAway) := by
  simp only [State.takeIn, hh, hr, Bool.false_eq_true, if_false]

/-- A label taken in is OWNED with the display, battery state and hearing fields given, whatever it is bound to (R110). -/
theorem State.makeOwned_owned (s : State) (n : Nat) (d : Display) (b : Battery) (a : Option Nat) (x : Hearing) :
    ∃ bound target, (s.makeOwned n d b a x).owned n = some ((newOwned s.self d b bound target x).settled s.now) := by
  refine ⟨(s.bindingFor a).1, (s.bindingFor a).2, ?_⟩
  have made : s.makeOwned n d b a x =
      (s.made n d b (s.bindingFor a).1 (s.bindingFor a).2 x).countOpt (s.bindingFor a).1 := rfl
  rw [made]
  exact (State.owned_of_keeps (State.countOpt_keeps _ _) (by decide) n).trans (State.made_owned _ _ _)

end TakingIn

/-! ### A received LABEL-HANDOVER and LABEL-ADOPTED (R117, R119) -/

section Received
variable {f : FrameHead}

theorem exec_labelHandoverReceived (h : s.Hears f.src) (hd : f.dest = .station s.settings.station) (r : Handover) :
    exec (.labelHandoverReceived f r) s = .next (if s.settings.labelService then (s.heardFrom f.src id).takeHandover r
      else s.heardFrom f.src id) := by
  have run : exec (.labelHandoverReceived f r) s = .next (if (s.heardFrom f.src id).settings.labelService then
      (s.heardFrom f.src id).takeHandover r else s.heardFrom f.src id) :=
    congrArg _ (State.receive_station h hd true id _)
  rw [run, State.heardFrom_settings]

theorem exec_labelAdoptedReceived (h : s.Hears f.src) (hd : f.dest = .all) (hs : s.settings.labelService = true) (n : Nat)
    (c : Station) (d : Display) :
    exec (.labelAdoptedReceived f n c d) s = .next ((s.heardFrom f.src id).adoptedElsewhere n c) := by
  have run : exec (.labelAdoptedReceived f n c d) s = .next (if (s.heardFrom f.src id).settings.labelService then
      (s.heardFrom f.src id).adoptedElsewhere n c else s.heardFrom f.src id) :=
    congrArg _ (State.receive_all h hd true id _)
  rw [run, State.heardFrom_settings, if_pos hs]

end Received

section Handed
variable {r : Handover}

theorem State.takeHandover_owned {o : Owned} (ho : s.owned r.label = some o) :
    s.takeHandover r = s.bump .handoversIgnored := by
  simp only [State.takeHandover, ho]

theorem State.takeHandover_heard {h : Heard} (ho : s.owned r.label = none) (hh : s.heard r.label = some h) :
    s.takeHandover r = (s.makeOwned r.label r.display r.battery r.bound h.hearing).bump .takenByHandover := by
  simp only [State.takeHandover, ho, State.takeIn_heard hh]

theorem State.takeHandover_room (ho : s.owned r.label = none) (hh : s.heard r.label = none)
    (hroom : s.labels.owned.length + s.labels.heard.length < 2048) : s.takeHandover r =
      (s.redrawn.makeOwned r.label r.display r.battery r.bound s.unheardAs).bump .takenByHandover := by
  simp only [State.takeHandover, ho, State.takeIn_unheard hh (State.makeRoom_free hroom)]

theorem State.takeHandover_away (ho : s.owned r.label = none) (hh : s.heard r.label = none)
    (hfull : 2048 ≤ s.labels.owned.length) (hnone : s.labels.heard = []) : s.takeHandover r = s.bump .turnedAway := by
  simp only [State.takeHandover, ho, State.takeIn_noRoom hh (State.makeRoom_none hfull hnone)]

/-- In a full table the HEARD entry of the label `w` gives way (R109). -/
theorem State.takeHandover_full {w : Nat} {x : Heard} (ho : s.owned r.label = none) (hh : s.heard r.label = none)
    (hfull : 2048 ≤ s.labels.owned.length + s.labels.heard.length) (he : victim s.labels.heard = some (w, x)) : s.takeHandover r =
      ((((s.redrawn.withLabels fun l => { l with heard := AMap.del l.heard w }).bump .heardRemoved).makeOwned r.label
        r.display r.battery r.bound s.unheardAs).bump .takenByHandover) := by
  simp only [State.takeHandover, ho, State.takeIn_unheard hh (State.makeRoom_full hfull he)]
  rfl

end Handed

/-! ### A label another station has adopted (R111, R119) -/

theorem State.adoptedElsewhere_unknown {n : Nat} (ho : s.owned n = none) (hh : s.heard n = none) (c : Station) :
    s.adoptedElsewhere n c = s := by
  simp only [State.adoptedElsewhere, State.setOwner, ho, hh]

theorem State.adoptedElsewhere_heard {n : Nat} {h : Heard} (ho : s.owned n = none) (hh : s.heard n = some h) (c : Station) :
    s.adoptedElsewhere n c = s.putHeard n { h with hearing := h.hearing.named c } := by
  simp only [State.adoptedElsewhere, State.setOwner, ho, hh]

theorem State.adoptedElsewhere_owned {n : Nat} {o : Owned} (ho : s.owned n = some o) (c : Station) :
    s.adoptedElsewhere n c = s.dropOwned n c := by
  simp only [State.adoptedElsewhere, ho]

/-- A dropped label has its HEARD entry alone, and the drop is counted (R111). -/
theorem State.dropToHeard_entry (s : State) (n : Nat) (o : Owned) (c : Station) (level : Option Int) :
    (s.dropToHeard n o c level).owned n = none ∧ (s.dropToHeard n o c level).heard n = some
      { hearing := { o.hearing with owner := c, ownerLevel := level }, claimAge := none, claimed := false } ∧
    (s.dropToHeard n o c level).count .dropsToHeard = min (s.count .dropsToHeard + 1) 4294967295 := by
  have owned : (s.dropped n o c level).owned n = none := (AMap.get_del _ _ _).trans (if_pos rfl)
  have heard : (s.dropped n o c level).heard n = some
      { hearing := { o.hearing with owner := c, ownerLevel := level }, claimAge := none, claimed := false } :=
    AMap.get_put_self _ _ _
  have count : (s.dropped n o c level).count .dropsToHeard = min (s.count .dropsToHeard + 1) 4294967295 := by
    unfold State.dropped
    rw [State.count_bump, if_pos rfl]
    rfl
  cases hb : o.bound with
  | none =>
    rw [State.dropToHeard_unbound hb]
    exact ⟨owned, heard, count⟩
  | some a =>
    rw [State.dropToHeard_bound hb]
    generalize hv : s.dropped n o c level = v at owned heard count
    have told : v.SameHearing ((v.modifyEntry a fun e => { e with bound := e.bound - 1 }).floorReport a) :=
      (State.SameHearing.of_keeps (v.modifyEntry_keeps a _) (by decide)).trans (State.floorReport_hearing _ a)
    have counted : Raises shelfCounts v ((v.modifyEntry a fun e => { e with bound := e.bound - 1 }).floorReport a) := by
      have uncounted := Raises.of_keeps (v.modifyEntry_keeps a fun e => { e with bound := e.bound - 1 }) (by decide) shelfCounts
      refine uncounted.trans ?_
      unfold State.floorReport
      split
      · exact State.localDone_raises _ _ _
      · exact .refl _ _
    refine ⟨told.gone owned, ?_, (counted .dropsToHeard (by decide)).trans count⟩
    rw [State.heard, told.heard]
    exact heard

/-- An OWNED label that another station has adopted drops to HEARD, whatever its state (R111, R119). -/
theorem State.dropOwned_entry {n : Nat} {o : Owned} (ho : s.owned n = some o) (c : Station) :
    (s.dropOwned n c).owned n = none ∧ (s.dropOwned n c).heard n = some
      { hearing := { o.hearing with owner := c, ownerLevel := none }, claimAge := none, claimed := false } ∧
    (s.dropOwned n c).count .dropsToHeard = min (s.count .dropsToHeard + 1) 4294967295 := by
  by_cases hm : ∃ m, o.state = .moving m
  · obtain ⟨m, hm⟩ := hm
    rw [State.dropOwned_moving ho hm]
    have refused : (s.refuseClaim n m.claimant none).count .dropsToHeard = s.count .dropsToHeard :=
      Raises.offer s _ .dropsToHeard (by decide)
    rw [← refused]
    exact State.dropToHeard_entry _ n o c none
  · rw [State.dropOwned_of ho fun m h => hm ⟨m, h⟩]
    exact s.dropToHeard_entry n o c none

/-! ### The end of a presence window (R119) -/

section Window
variable {a : Adoption} {o : Owned}

/-- The adoptions of the window are closed (R119). -/
def State.closed (s : State) : State := s.withLabels fun l => { l with adoptions := [] }

theorem exec_presenceWindowEnd (hl : s.live = true) (hv : s.serving = true) (ha : s.labels.adoptions = [a]) :
    exec .presenceWindowEnd s = .next (s.closed.endAdoption a) := by
  have run : exec .presenceWindowEnd s = execPresenceWindowEnd s := rfl
  simp only [run, execPresenceWindowEnd, hl, hv, ha, Bool.and_self, if_true]
  rfl

theorem State.endAdoption_unanswered (h : a.ack = none) : s.endAdoption a = s := by
  simp only [State.endAdoption, h]

theorem State.endAdoption_elsewhere {n : Station} (h : a.ack = some n) (hn : n ≠ s.self) :
    s.endAdoption a = s.adoptedElsewhere a.presence.label n := by
  simp only [State.endAdoption, h, hn, if_false]

/-- An OWNED label stays this station's own (R113, R119). -/
theorem State.endAdoption_owned (h : a.ack = some s.self) (ho : s.owned a.presence.label = some o) : s.endAdoption a =
    (s.putOwned a.presence.label { o.takeDisplay a.presence.display s.now with attempts := 0 }).announceAdopted
      a.presence.label := by
  simp only [State.endAdoption, h, if_true, ho]

/-- Another is taken in where there is room (R110, R119). -/
theorem State.endAdoption_taken (h : a.ack = some s.self) (ho : s.owned a.presence.label = none)
    (took : s.takeIn a.presence.label a.presence.display a.presence.battery (shownArticle a.presence.display)
      (some a.hearing) .takenByAdoption = (true, t)) : s.endAdoption a = t.announceAdopted a.presence.label := by
  simp only [State.endAdoption, h, if_true, ho, took]

/-- The LABEL-ADOPTED of an adopted label (R119). -/
theorem State.announceAdopted_queued {n : Nat} (ho : s.owned n = some o) (hsend : s.canSend = true)
    (hroom : s.trunk.notice.length < 64) : s.announceAdopted n = s.withTrunk fun t =>
      { t with notice := t.notice ++ [{ dest := none, body := .labelAdopted n s.self o.display, purpose := .label
                                        attempts := 0 }] } := by
  simp only [State.announceAdopted, ho]
  exact State.send_notice rfl hsend hroom

theorem State.announceAdopted_raises (s : State) (n : Nat) : Raises offerCounts s (s.announceAdopted n) := by
  unfold State.announceAdopted
  split
  · exact .refl _ s
  · exact .offer s _

/-- What the adoption of a label leaves of its entry and its count (R110, R119). -/
theorem State.announced_spec {v : State} {n : Nat} (hv : v.owned n = some o) :
    ((v.bump .takenByAdoption).announceAdopted n).owned n = some o ∧
      ((v.bump .takenByAdoption).announceAdopted n).heard n = v.heard n ∧
      ((v.bump .takenByAdoption).announceAdopted n).book = v.book ∧
      ((v.bump .takenByAdoption).announceAdopted n).count .takenByAdoption =
        min (v.count .takenByAdoption + 1) 4294967295 := by
  have kept := (v.bump .takenByAdoption).announceAdopted_keeps n
  refine ⟨(State.owned_of_keeps kept (by decide) n).trans hv, State.heard_of_keeps kept (by decide) n,
    kept .book (by decide), ?_⟩
  rw [State.announceAdopted_raises _ n .takenByAdoption (by decide), State.count_bump, if_pos rfl]

/-- A display that the entry has is no change (R113). -/
theorem Owned.takeDisplay_same (hs : o.state = .showing) (now : Nat) : o.takeDisplay o.display now = o := by
  rw [Owned.takeDisplay_showing hs, if_pos (.inl rfl), ← hs]

theorem Owned.takeDisplay_new {d : Display} (hs : o.state = .showing) (hd : d ≠ o.display) (now : Nat) :
    o.takeDisplay d now = ({ o with display := d } : Owned).settled now := by
  rw [Owned.takeDisplay_showing hs]
  simp only [hd, false_or]
  rfl

theorem Owned.takeDisplay_due {due : Nat} (hs : o.state = .updateDue due) (d : Display) (now : Nat) :
    o.takeDisplay d now = { o with display := d } := by
  simp only [Owned.takeDisplay, hs]

/-- A label that is neither SHOWING nor UPDATE-DUE keeps its display (R113; log 26). -/
theorem Owned.takeDisplay_kept (hs : o.state = .lost ∨ (∃ due, o.state = .sent due) ∨ ∃ m, o.state = .moving m) (d : Display)
    (now : Nat) : o.takeDisplay d now = o := by
  rcases hs with hs | ⟨due, hs⟩ | ⟨m, hs⟩ <;> simp only [Owned.takeDisplay, hs]

end Window

end Sys2Proof.Machine

/-! ### The statements -/

open Sys2Proof Sys2Proof.Machine

/-- Settles O29, by the moves, handovers and adoptions by which ownership passes. -/
theorem ownershipPasses : Obligations.OwnershipPasses := by
  unfold Obligations.OwnershipPasses
  refine ⟨?moves, ?handover, ?off, ?adopted, ?window⟩
  case moves =>
    intro s n o m ho hs missed attempt
    refine ⟨State.sendMove_moving ho hs, fun hm hn => State.beginSlot_move ho hs hm hn, State.endTurn_rests ho hs,
      fun ha => ⟨fun h => ?again, fun h hsend hroom => ?failed⟩, ?ends⟩
    case again => rw [State.endTurn_move ho hs ha, State.moveUnanswered_again h]; rfl
    case failed =>
      rw [State.endTurn_move ho hs ha, State.moveUnanswered_failed h]
      exact State.refuseClaim_queued (s := ((s.bump .unansweredAttempts).putOwned n _).bump .failedMoves) hsend hroom _ _ _
    case ends =>
      intro hl hv hserve moved
      have moves (t : State) (x : Owned) (c : Instr) (hk : keeps [.labels, .alerts, .counts] s t)
          (run : exec c s = .next (t.moveDone n x m)) : moved t x c := by
        have sends : t.canSend = s.canSend := State.canSend_of_keeps hk (by decide)
        have trunk : t.trunk = s.trunk := hk .trunk (by decide)
        refine ⟨fun hx hsend hroom => ?_, fun hx hsend hfull => ⟨fun hfree => ?_, fun htaken hkept => ?_⟩, fun hx => ?_⟩
        · rw [run, State.moveDone_queued hx (sends.trans hsend) (trunk ▸ hroom)]
          rfl
        · rw [run, State.moveDone_held hx (sends.trans hsend) (trunk ▸ hfull) (trunk ▸ hfree)]
          rfl
        · rw [run, State.moveDone_kept hx (sends.trans hsend) (trunk ▸ hfull) (trunk ▸ htaken) (trunk ▸ hkept)]
          rfl
        · rw [run, State.moveDone_stale hx]
      refine ⟨?ack, ?presence⟩
      case ack =>
        intro a hlabel heard
        subst hlabel
        have hearing : s.hearAdoptionAck a = heard := by
          simp only [State.hearAdoptionAck, recordAdoptionAck_eq, heard]
        have run : exec (.ackReceived a) s = .next ((heard.bump .acksTaken).ackMoving a o m) := by
          rw [exec_ackReceived hl hv hserve, State.takeAck_moving ho hs, hearing]
        have kept : keeps [.labels, .alerts, .counts] s (heard.bump .acksTaken) := by
          rw [← hearing]
          exact ((s.hearAdoptionAck_keeps a).mono (by decide)).trans ((State.bump_keeps _ _).mono (by decide))
        have own : (heard.bump .acksTaken).owned a.label = some o := by
          rw [← hearing, State.owned_of_keeps (State.bump_keeps _ _) (by decide), State.hearAdoptionAck_owned]
          exact ho
        refine ⟨fun hc => moves _ _ _ ?_ ?_, fun hc => ?_⟩
        · exact kept.trans (State.takeBattery_keeps _ _ _)
        · rw [run, State.ackMoving_claimant hc]
        · rw [run, State.ackMoving_other own hs hc]
      case presence =>
        intro p hlabel horphan hn hc sampled
        subst hlabel
        have run := exec_presence_owned hl hv hserve ho
        rw [State.tookOwned_claimant hn hs hc] at run
        simp only [horphan, Bool.false_eq_true, if_false] at run
        exact moves _ _ _ (s.toldBattery_keeps p o) run
  case handover =>
    intro s f r hh hd hs
    have run := exec_labelHandoverReceived hh hd r
    rw [if_pos hs] at run
    refine ⟨fun o ho => ?known, fun ho => ?new⟩
    case known =>
      rw [run, State.takeHandover_owned (o := o) (by simpa using ho)]
    case new =>
      intro heard
      have kept : keeps (.fresh :: hearFields) s heard := (s.heardFrom_keeps f.src id).mono (by decide)
      have unowned : heard.owned r.label = none := (s.heardFrom_owned f.src id r.label).trans ho
      have entry : heard.heard r.label = s.heard r.label := s.heardFrom_heard f.src id r.label
      have first : heard.fresh = s.fresh := s.heardFrom_fresh f.src id
      have self : heard.self = s.self := s.heardFrom_self f.src id
      have table : heard.labels.owned = s.labels.owned ∧ heard.labels.heard = s.labels.heard := by
        obtain ⟨x, y, labels⟩ := s.heardFrom_labels f.src id
        change heard.labels = _ at labels
        rw [labels]
        exact ⟨rfl, rfl⟩
      change exec (.labelHandoverReceived f r) s = .next (heard.takeHandover r) at run
      clear_value heard
      intro full takenIn fresh unheard
      have redrawn : heard.redrawn = fresh := by simp only [State.redrawn, first, fresh]
      have hearing : heard.unheardAs = unheard := by simp only [State.unheardAs, first, self, unheard]
      have takes (v : State) (z : Hearing) (hk : keeps (.fresh :: hearFields) s v)
          (took : heard.takeHandover r = (v.makeOwned r.label r.display r.battery r.bound z).bump .takenByHandover) :
          takenIn v z := by
        have now : v.now = s.now := hk .now (by decide)
        have station : v.self = s.self := congrArg Settings.station (hk .settings (by decide))
        have book (a : Nat) : v.entry a = s.entry a :=
          congrArg (fun b : Book => AMap.get b.entries a) (hk .book (by decide))
        rw [took] at run
        refine ⟨fun hno => ?_, fun a e ha he hc => ?_⟩
        · rw [run, State.makeOwned_unbound fun a e ha he => hno a e ha ((book a).symm.trans he), State.made, station, now]
          rfl
        · rw [run, ha, State.makeOwned_bound ((book a).trans he) hc, State.made, station, now]
          rfl
      have drawn : keeps (.fresh :: hearFields) s heard.redrawn := kept.trans fun g hg => by
        cases g
        case fresh => exact absurd (by decide) hg
        all_goals rfl
      refine ⟨fun h hx => ?heard, fun hx hroom => ?room, fun hx hfull hnone => ?away, ?full⟩
      case heard => exact takes heard h.hearing kept (State.takeHandover_heard unowned (entry.trans hx))
      case room =>
        rw [← redrawn, ← hearing]
        refine takes _ _ drawn (State.takeHandover_room unowned (entry.trans hx) ?_)
        rw [table.1, table.2]
        exact Nat.lt_of_not_le hroom
      case away =>
        have crowded : 2048 ≤ s.labels.owned.length := by simpa [full, hnone] using hfull
        rw [run, State.takeHandover_away unowned (entry.trans hx) (table.1 ▸ crowded) (table.2 ▸ hnone)]
      case full =>
        intro w x hx hfull hw hget claimed oldest hold
        have victim : victim heard.labels.heard = some (w, x) := by
          rw [table.2]
          refine victim_oldest hw hget (hold.imp (fun ⟨hfree, hold⟩ => ⟨?_, fun k y hk hne hy => hold k y hk hne ?_⟩)
            fun ⟨hall, hold⟩ => ⟨fun k y hk => ?_, fun k y hk hne => hold k y hk hne trivial⟩)
          · exact Bool.eq_false_iff.2 (mt x.outstanding_iff.1 hfree)
          · exact mt y.outstanding_iff.2 (Bool.eq_false_iff.1 hy)
          · exact y.outstanding_iff.2 (hall k y hk)
        rw [← redrawn, ← hearing]
        have crowded : 2048 ≤ heard.labels.owned.length + heard.labels.heard.length := by
          rw [table.1, table.2]
          exact hfull
        have gone : keeps (.fresh :: hearFields) s ((heard.redrawn.withLabels fun l =>
            { l with heard := AMap.del l.heard w }).bump .heardRemoved) := by
          simpa [hearFields] using drawn
        exact takes _ _ gone (State.takeHandover_full unowned (entry.trans hx) crowded victim)
  case off =>
    intro s f r hh hd hs
    rw [exec_labelHandoverReceived hh hd]
    simp only [hs, Bool.false_eq_true, if_false]
  case adopted =>
    intro s f n c d hh hd hs
    have run := exec_labelAdoptedReceived hh hd hs n c d
    refine ⟨fun ho hx => ?unknown, fun h ho hx => ?heard, fun o ho => ?owned⟩
    case unknown =>
      rw [run, State.adoptedElsewhere_unknown (by simpa using ho) (by simpa using hx)]
    case heard =>
      rw [run, State.adoptedElsewhere_heard (by simpa using ho) (h := h) (by simpa using hx)]
      rfl
    case owned =>
      have own : (s.heardFrom f.src id).owned n = some o := by simpa using ho
      rw [State.adoptedElsewhere_owned own] at run
      exact ⟨_, run, State.dropOwned_entry own c⟩
  case window =>
    intro s x hl hv hx closed
    have run : exec .presenceWindowEnd s = .next (closed.endAdoption x) := exec_presenceWindowEnd hl hv hx
    refine ⟨fun ha => ?unanswered, fun n h ha hn ho hh => ?named, ?own, fun n o ha hn ho => ?dropped, ?heard, ?presence⟩
    case unanswered => rw [run, State.endAdoption_unanswered ha]
    case named =>
      rw [run, State.endAdoption_elsewhere (s := closed) ha hn, State.adoptedElsewhere_heard (s := closed) (h := h) ho hh]
      rfl
    case own =>
      intro o ha ho hsend hroom shown ends
      have own : exec .presenceWindowEnd s = .next ((closed.putOwned x.presence.label
          { o.takeDisplay x.presence.display s.now with attempts := 0 }).announceAdopted x.presence.label) :=
        run.trans (congrArg _ (State.endAdoption_owned (s := closed) ha ho))
      have ended (y : Owned) (hy : o.takeDisplay x.presence.display s.now = y) : ends y := by
        refine own.trans (congrArg _ ?_)
        rw [hy]
        exact State.announceAdopted_queued (o := { y with attempts := 0 }) (State.owned_putOwned_self _ _ _) hsend hroom
      refine ⟨fun hs hd => ended o (hd ▸ Owned.takeDisplay_same hs _), fun hs hd => ended _ (Owned.takeDisplay_new hs hd _),
        fun due hs => ended shown (Owned.takeDisplay_due hs _ _), fun hs => ended o (Owned.takeDisplay_kept hs _ _)⟩
    case dropped =>
      rw [State.endAdoption_elsewhere (s := closed) ha hn, State.adoptedElsewhere_owned (s := closed) ho] at run
      refine ⟨fun hm => run.trans (congrArg _ (State.dropOwned_of (s := closed) ho hm n)), fun m hm hsend hroom =>
        run.trans (congrArg _ ((State.dropOwned_moving (s := closed) ho hm n).trans ?_))⟩
      rw [State.refuseClaim_queued (s := closed) hsend hroom]
    case heard =>
      intro h a e ha ho hh hform harticle he hc o
      have shown : shownArticle x.presence.display = some a := by simp only [shownArticle, hform, harticle]
      have took := State.takeIn_heard (s := closed) (n := x.presence.label) (d := x.presence.display)
        (b := x.presence.battery) (c := .takenByAdoption) hh (shownArticle x.presence.display) (some x.hearing)
      have bound := State.makeOwned_bound (s := closed) (n := x.presence.label) (d := x.presence.display)
        (b := x.presence.battery) (x := h.hearing) he hc
      rw [State.endAdoption_taken (s := closed) ha ho took, shown, bound] at run
      have made : (closed.made x.presence.label x.presence.display x.presence.battery (some a) (e.display a)
          h.hearing).owned x.presence.label = some { o with state := if o.current then .showing else .updateDue s.now } :=
        State.made_owned _ _ _
      have gone := closed.made_heard (n := x.presence.label) (d := x.presence.display) (b := x.presence.battery)
        (x := h.hearing) (some a) (e.display a)
      have entry : (closed.made x.presence.label x.presence.display x.presence.battery (some a) (e.display a)
          h.hearing).entry a = some e := he
      have kept : keeps [.labels] s (closed.made x.presence.label x.presence.display x.presence.battery (some a) (e.display a)
          h.hearing) := (s.withLabels_keeps _).trans (State.withLabels_keeps _ _)
      generalize closed.made x.presence.label x.presence.display x.presence.battery (some a) (e.display a) h.hearing = v at *
      obtain ⟨owned, heard, book, count⟩ := State.announced_spec (v := v.countBound a) made
      have uncounted (c : Count) : (v.countBound a).count c = s.count c :=
        congrArg (fun m : AMap Nat => (AMap.get m _).getD 0) (kept .counts (by decide))
      have counted : keeps [.labels, .book, .counts] s ((v.countBound a).bump .takenByAdoption) :=
        ((kept.mono (by decide)).trans ((v.countBound_keeps a).mono (by decide))).trans ((State.bump_keeps _ _).mono (by decide))
      refine ⟨_, run, heard.trans gone, owned, ?_, count.trans ?_, fun hsend hroom => ?_⟩
      · exact (congrArg (fun b : Book => AMap.get b.entries a) book).trans (State.entry_modifyEntry_self entry _)
      · exact congrArg (fun k => min (k + 1) 4294967295) (uncounted .takenByAdoption)
      · have sends : ((v.countBound a).bump .takenByAdoption).canSend = true :=
          (State.canSend_of_keeps counted (by decide)).trans hsend
        have trunk : ((v.countBound a).bump .takenByAdoption).trunk = s.trunk := counted .trunk (by decide)
        have self : ((v.countBound a).bump .takenByAdoption).self = s.self :=
          congrArg Settings.station (counted .settings (by decide))
        have own : ((v.countBound a).bump .takenByAdoption).owned x.presence.label =
            some { o with state := if o.current then .showing else .updateDue s.now } := made
        rw [State.announceAdopted_queued own sends (trunk ▸ hroom), self, State.withTrunk_trunk, trunk]
    case presence =>
      intro ha ho hh hroom
      have took := State.takeIn_presence (s := closed) (n := x.presence.label) (d := x.presence.display)
        (b := x.presence.battery) (x := x.hearing) (c := .takenByAdoption) hh (State.makeRoom_free hroom)
        (shownArticle x.presence.display)
      rw [State.endAdoption_taken (s := closed) ha ho took] at run
      obtain ⟨bound, target, made⟩ := closed.makeOwned_owned x.presence.label x.presence.display x.presence.battery
        (shownArticle x.presence.display) x.hearing
      obtain ⟨owned, -, -, count⟩ := State.announced_spec made
      refine ⟨_, _, run, owned, rfl, rfl, rfl, rfl, rfl, rfl, rfl, count.trans ?_⟩
      have kept : (closed.makeOwned x.presence.label x.presence.display x.presence.battery (shownArticle x.presence.display)
          x.hearing).counts = s.counts := closed.makeOwned_keeps _ _ _ _ _ .counts (by decide)
      simp only [State.count, kept]
end
